-- ==== Sys2Proof/Word.lean ====
section
/-! DEFINITION. The word types and the plain containers the model is built of: bit vectors of the widths of the manual, and sparse tables kept as lists. -/

namespace Sys2Proof

/-- A 32-bit register element or instruction word (R19). -/
abbrev Word := BitVec 32

/-- A 64-bit value, address or lane mask (R54, R196). -/
abbrev DWord := BitVec 64

/-- One byte of memory. -/
abbrev Byte := BitVec 8

/-- A sparse table: pairs of key and value, keys rising. -/
abbrev Tbl (α : Type) := List (Nat × α)

/-- The value at a key. -/
def Tbl.get? {α : Type} : Tbl α → Nat → Option α
  | [], _ => none
  | (k', v) :: r, k => if k' = k then some v else Tbl.get? r k

/-- The value at a key, or the given one. -/
def Tbl.getD {α : Type} (t : Tbl α) (k : Nat) (d : α) : α := (Tbl.get? t k).getD d

/-- Sets the value at a key. -/
def Tbl.put {α : Type} : Tbl α → Nat → α → Tbl α
  | [], k, v => [(k, v)]
  | (k', v') :: r, k, v =>
    if k < k' then (k, v) :: (k', v') :: r
    else if k' = k then (k, v) :: r
    else (k', v') :: Tbl.put r k v

/-- Takes a key out. -/
def Tbl.del {α : Type} (t : Tbl α) (k : Nat) : Tbl α := t.filter (fun e => e.1 != k)

/-- Is the key present. -/
def Tbl.has {α : Type} (t : Tbl α) (k : Nat) : Bool := (Tbl.get? t k).isSome

/-- A set of numbers, kept as a rising list. -/
abbrev NSet := List Nat

/-- Adds a number. -/
def NSet.ins : NSet → Nat → NSet
  | [], k => [k]
  | x :: r, k => if k < x then k :: x :: r else if x = k then x :: r else x :: NSet.ins r k

/-- Takes a number out. -/
def NSet.rem (s : NSet) (k : Nat) : NSet := s.filter (fun x => x != k)

/-- The 64 lane numbers (R9). -/
def lanes64 : List Nat := List.range 64

/-- A list with one entry per lane. -/
def mkLanes {α : Type} (f : Nat → α) : List α := lanes64.map f

/-- The mask of the lanes that satisfy a test, as a number: bit l is lane l. -/
def maskOf (f : Nat → Bool) : DWord :=
  BitVec.ofNat 64 (lanes64.foldr (fun l acc => 2 * acc + (if f l then 1 else 0)) 0)

/-- The lanes of a mask in ascending order. -/
def lanesOf (m : DWord) : List Nat := lanes64.filter (fun l => m.getLsbD l)

/-- Sets entry k of a list; missing entries before it take the given value. -/
def putAt {α : Type} : List α → Nat → α → α → List α
  | [], 0, v, _ => [v]
  | [], k + 1, v, d => d :: putAt [] k v d
  | _ :: r, 0, v, _ => v :: r
  | x :: r, k + 1, v, d => x :: putAt r k v d

/-- Bits h down to l of a number (R1). -/
def bitsOf (x h l : Nat) : Nat := (x >>> l) % 2 ^ (h + 1 - l)

/-- Bit i of a number. -/
def bitOf (x i : Nat) : Bool := x.testBit i

/-- The bytes of a number, least significant first (R1). -/
def leBytes : Nat → Nat → List Byte
  | 0, _ => []
  | n + 1, x => BitVec.ofNat 8 x :: leBytes n (x / 256)

/-- The number that bytes hold, least significant first (R1). -/
def ofLeBytes : List Byte → Nat
  | [] => 0
  | b :: r => b.toNat + 256 * ofLeBytes r

end Sys2Proof
end

