-- ==== Sys2Proof/Config.lean ====
section
/-! DEFINITION. What an implementation fixes and the manual leaves open: free values, given no value here, so that no proof can rest on one. -/

namespace Sys2Proof

/-- What a byte stored under one memory key reads as under another (R451): written key, reading key, address, stored byte. -/
opaque Config.recrypt : Nat → Nat → Nat → Byte → Byte

/-- What a read of a write-only device register returns: serial number, die, offset. -/
opaque Config.openReg : Nat → Nat → Nat → DWord

/-- The pattern that fills an f4e2m1 element when a record asks for the canonical NaN of its type (R260): the type has none (R56). -/
opaque Config.f4Fill : BitVec 4

/-- A byte whose value the manual leaves open, by its serial number. -/
opaque Config.freeByte : Nat → Byte

/-- A 32-bit value that the manual leaves open, by its serial number. -/
opaque Config.freeWord : Nat → Word

/-- Whether TRPA of a local access whose address is poisoned has the form of R188 or is the 0 of R206: the two rules differ. -/
opaque Config.poisonedLocalForm : Bool

/-- The digest of the firmware key that the fuses of the part hold (R456). -/
opaque Config.fusedKey : BitVec 256
/-- The minimum version of a firmware image that the fuses of the part hold (R456). -/
opaque Config.fusedVersion : Nat

/-- The bytes of an RSA key, of modulus and exponent, of which the ROM takes the SHA-256 (R456): the manual gives no encoding. -/
opaque Config.keyBytes : Nat → Nat → List Byte

/-- The version of a firmware image (R456): the manual does not say where it stands. -/
opaque Config.imageVersion : List Byte → Nat

/-- What firmware extends M1 with: the digest of its data tables (R456). -/
opaque Config.tableDigest : BitVec 256
/-- What firmware extends M2 with: the digest of the fuse state (R456). -/
opaque Config.fuseDigest : BitVec 256

/-- The signature over a quote's content (R456), as bytes. -/
opaque Config.sign : List Byte → List Byte

/-- The device's certificate (R456). -/
opaque Config.cert : List Byte

/-- Device ID stepping (R448). -/
opaque Config.stepping : BitVec 8

end Sys2Proof
end

