-- ==== Sys2Proof/Syntax.lean ====
section
/-! DEFINITION. The syntax of the instruction set: one operand record per shape of encoding (R33, R44, R344), and Instr, one constructor per row of the opcode table.

A word's constructor holds every bit of the word that its row leaves free, the chain bit c of R19 included.
A row without an encoding is a step of the device (R-rule in its docstring); its operands say where it takes place. -/

namespace Sys2Proof

/-- The source of a soft error (R426): the element or lane state that an uncorrectable error hits. -/
inductive SoftTarget where
  | vec (n lane : Nat)
  | pos (p lane : Nat)
  | scal (n : Nat)
  | pred (k lane : Nat)
  | flag (q : Nat)
  | laneState (lane : Nat)
  deriving DecidableEq, Repr

/-- What one period of the power controller brings (R309): readings and choices of the firmware, an input of the model. -/
structure Telemetry where
  pool  : Nat
  cadt  : List Nat
  temp  : List Int
  volt  : List Nat
  freq  : List Nat
  ilim  : Bool
  power : Nat
  deriving DecidableEq, Repr

/-- The fields of a Peloton data step (R412). -/
structure PData where
  ty   : BitVec 3
  sb   : BitVec 4
  sc   : BitVec 1
  db   : BitVec 4
  dc   : BitVec 1
  len  : BitVec 21
  soff : BitVec 12
  doff : BitVec 12
  deriving DecidableEq, Repr

/-- A Peloton message (R413): the rank that emitted it, TAG, LEN, hop number, data. -/
structure PMsg where
  src  : Nat
  tag  : BitVec 16
  len  : Nat
  hop  : Nat
  data : List (BitVec 8)
  deriving DecidableEq, Repr

/-- An access that a host or a peer module makes (R447, R450): a read, a write, or an atomic operation by its code of R188 with its operand `x`; for a compare-and-swap the compare value `x` and the new value `y` (R216). -/
inductive BusAccess where
  | rd (n : Nat)
  | wr (bytes : List (BitVec 8))
  | atom (op : Nat) (x y : Nat)
  deriving DecidableEq, Repr

/-- format B. -/
structure BF where
  c : BitVec 1
  p : BitVec 3
  n : BitVec 1
  off : BitVec 21
  deriving DecidableEq, Repr

/-- format BC. -/
structure BC where
  c : BitVec 1
  sl : BitVec 3
  off : BitVec 22
  deriving DecidableEq, Repr

/-- operands at c 31. -/
structure C0 where
  c : BitVec 1
  deriving DecidableEq, Repr

/-- operands at c 31, s 18:11, sl 7:5. -/
structure CCallS where
  c : BitVec 1
  s : BitVec 8
  sl : BitVec 3
  deriving DecidableEq, Repr

/-- operands at c 31, v 24:19, sl 7:5. -/
structure CCallV where
  c : BitVec 1
  v : BitVec 6
  sl : BitVec 3
  deriving DecidableEq, Repr

/-- operands at c 31, s 18:11. -/
structure CS where
  c : BitVec 1
  s : BitVec 8
  deriving DecidableEq, Repr

/-- operands at c 31, v 24:19. -/
structure CV where
  c : BitVec 1
  v : BitVec 6
  deriving DecidableEq, Repr

/-- operands at c 31, s 18:11, p 7:5. -/
structure CSP where
  c : BitVec 1
  s : BitVec 8
  p : BitVec 3
  deriving DecidableEq, Repr

/-- format VR: vd, va, vb, La, Lb. -/
structure VR where
  c : BitVec 1
  d : BitVec 6
  a : BitVec 6
  b : BitVec 6
  la : BitVec 1
  lb : BitVec 1
  deriving DecidableEq, Repr

/-- VR or VS of a unary function: vb and Lb (or B) are zero. -/
structure VU where
  c : BitVec 1
  d : BitVec 6
  a : BitVec 6
  la : BitVec 1
  deriving DecidableEq, Repr

/-- operands at c 31, a 24:19, s 18:11, la 5. -/
structure CRed where
  c : BitVec 1
  a : BitVec 6
  s : BitVec 8
  la : BitVec 1
  deriving DecidableEq, Repr

/-- operands at c 31, d 24:19, la 11, a 10:5. -/
structure CMov where
  c : BitVec 1
  d : BitVec 6
  la : BitVec 1
  a : BitVec 6
  deriving DecidableEq, Repr

/-- operands at c 31, d 24:19, s 18:11. -/
structure CVS where
  c : BitVec 1
  d : BitVec 6
  s : BitVec 8
  deriving DecidableEq, Repr

/-- operands at c 31, v 24:19, s 18:11, k 10:5. -/
structure CVSK where
  c : BitVec 1
  v : BitVec 6
  s : BitVec 8
  k : BitVec 6
  deriving DecidableEq, Repr

/-- operands at c 31, d 24:19, k 10:5. -/
structure CVK where
  c : BitVec 1
  d : BitVec 6
  k : BitVec 6
  deriving DecidableEq, Repr

/-- operands at c 31, v 24:19, p 7:5. -/
structure CVP where
  c : BitVec 1
  v : BitVec 6
  p : BitVec 3
  deriving DecidableEq, Repr

/-- operands at c 31, a 24:19, la 11, p 7:5. -/
structure CPmov where
  c : BitVec 1
  a : BitVec 6
  la : BitVec 1
  p : BitVec 3
  deriving DecidableEq, Repr

/-- operands at c 31, d 24:22, a 21:19, b 18:16. -/
structure P3 where
  c : BitVec 1
  d : BitVec 3
  a : BitVec 3
  b : BitVec 3
  deriving DecidableEq, Repr

/-- operands at c 31, d 24:22, a 21:19. -/
structure P2 where
  c : BitVec 1
  d : BitVec 3
  a : BitVec 3
  deriving DecidableEq, Repr

/-- operands at c 31, d 24:22. -/
structure P1 where
  c : BitVec 1
  d : BitVec 3
  deriving DecidableEq, Repr

/-- format VS: B is a B-source code of R33. -/
structure VS where
  c : BitVec 1
  d : BitVec 6
  a : BitVec 6
  b : BitVec 6
  la : BitVec 1
  deriving DecidableEq, Repr

/-- format VP. -/
structure VP where
  c : BitVec 1
  pd : BitVec 3
  cond : BitVec 3
  a : BitVec 6
  b : BitVec 6
  la : BitVec 1
  lb : BitVec 1
  ty : BitVec 5
  deriving DecidableEq, Repr

/-- format VP with a B-source code. -/
structure VPS where
  c : BitVec 1
  pd : BitVec 3
  cond : BitVec 3
  a : BitVec 6
  b : BitVec 6
  la : BitVec 1
  ty : BitVec 5
  deriving DecidableEq, Repr

/-- SEL: fn[4:2] predicate, fn[1] negate. -/
structure VSel where
  c : BitVec 1
  d : BitVec 6
  a : BitVec 6
  b : BitVec 6
  la : BitVec 1
  lb : BitVec 1
  p : BitVec 3
  n : BitVec 1
  deriving DecidableEq, Repr

/-- format VX. -/
structure VX where
  c : BitVec 1
  d : BitVec 6
  a : BitVec 6
  dt : BitVec 4
  st : BitVec 4
  rm : BitVec 3
  sat : BitVec 1
  la : BitVec 1
  deriving DecidableEq, Repr

/-- FCVT with dt = st = 0 (frnd). -/
structure VRnd where
  c : BitVec 1
  d : BitVec 6
  a : BitVec 6
  rm : BitVec 3
  sat : BitVec 1
  la : BitVec 1
  deriving DecidableEq, Repr

/-- format SR. -/
structure SR where
  c : BitVec 1
  d : BitVec 8
  a : BitVec 8
  b : BitVec 6
  deriving DecidableEq, Repr

/-- format SC. -/
structure SC where
  c : BitVec 1
  q : BitVec 2
  cond : BitVec 3
  ty : BitVec 2
  a : BitVec 8
  b : BitVec 6
  deriving DecidableEq, Repr

/-- format SB. -/
structure SB where
  c : BitVec 1
  q : BitVec 2
  n : BitVec 1
  off : BitVec 22
  deriving DecidableEq, Repr

/-- operands at c 31, s 24:17, r 16:9. -/
structure SXFs where
  c : BitVec 1
  s : BitVec 8
  r : BitVec 8
  deriving DecidableEq, Repr

/-- operands at c 31, r 24:17, s 16:9. -/
structure SXTs where
  c : BitVec 1
  r : BitVec 8
  s : BitVec 8
  deriving DecidableEq, Repr

/-- operands at c 31, s 24:17. -/
structure E1 where
  c : BitVec 1
  s : BitVec 8
  deriving DecidableEq, Repr

/-- operands at c 31, n 24:17. -/
structure SXN where
  c : BitVec 1
  n : BitVec 8
  deriving DecidableEq, Repr

/-- operands at c 31, e 8:5. -/
structure SXE where
  c : BitVec 1
  e : BitVec 4
  deriving DecidableEq, Repr

/-- operands at c 31, x 24:19, a 18:13, b 12:5, sz 4:2, sx 1, la 0. -/
structure ML where
  c : BitVec 1
  x : BitVec 6
  a : BitVec 6
  b : BitVec 8
  sz : BitVec 3
  sx : BitVec 1
  la : BitVec 1
  deriving DecidableEq, Repr

/-- operands at c 31, x 24:19, a 18:13, b 12:5, sz 4:2, la 0. -/
structure MS where
  c : BitVec 1
  x : BitVec 6
  a : BitVec 6
  b : BitVec 8
  sz : BitVec 3
  la : BitVec 1
  deriving DecidableEq, Repr

/-- operands at c 31, x 24:19, a 18:13, b 12:5, op 4:1, la 0. -/
structure MA where
  c : BitVec 1
  x : BitVec 6
  a : BitVec 6
  b : BitVec 8
  op : BitVec 4
  la : BitVec 1
  deriving DecidableEq, Repr

/-- operands at c 31, x 24:19, a 18:13, b 12:5, la 0. -/
structure MD where
  c : BitVec 1
  x : BitVec 6
  a : BitVec 6
  b : BitVec 8
  la : BitVec 1
  deriving DecidableEq, Repr

/-- operands at c 31, k 10:5. -/
structure CK where
  c : BitVec 1
  k : BitVec 6
  deriving DecidableEq, Repr

/-- operands at c 31, n 16:11, k 10:5. -/
structure CWait where
  c : BitVec 1
  n : BitVec 6
  k : BitVec 6
  deriving DecidableEq, Repr

/-- operands at c 31, v 24:19, s 18:11, l 6:5. -/
structure CPf where
  c : BitVec 1
  v : BitVec 6
  s : BitVec 8
  l : BitVec 2
  deriving DecidableEq, Repr

/-- operands at c 31, s 18:11, scope 9:7, cond 6:5. -/
structure CMwait where
  c : BitVec 1
  s : BitVec 8
  scope : BitVec 3
  cond : BitVec 2
  deriving DecidableEq, Repr

/-- operands at c 31, s 18:11, m 6:5. -/
structure CBmode where
  c : BitVec 1
  s : BitVec 8
  m : BitVec 2
  deriving DecidableEq, Repr

/-- operands at c 31, s 18:11, r 9:5. -/
structure CRing where
  c : BitVec 1
  s : BitVec 8
  r : BitVec 5
  deriving DecidableEq, Repr

/-- operands at c 31, s 18:11, b 8:5. -/
structure CBarS where
  c : BitVec 1
  s : BitVec 8
  b : BitVec 4
  deriving DecidableEq, Repr

/-- operands at c 31, b 8:5. -/
structure CBar where
  c : BitVec 1
  b : BitVec 4
  deriving DecidableEq, Repr

/-- operands at c 31, p 9, b 8:5. -/
structure CBarP where
  c : BitVec 1
  p : BitVec 1
  b : BitVec 4
  deriving DecidableEq, Repr

/-- operands at c 31, s 18:11, p 9, b 8:5. -/
structure CBarPS where
  c : BitVec 1
  s : BitVec 8
  p : BitVec 1
  b : BitVec 4
  deriving DecidableEq, Repr

/-- operands at c 31, q 13:11, p 9, b 8:5. -/
structure CBart where
  c : BitVec 1
  q : BitVec 3
  p : BitVec 1
  b : BitVec 4
  deriving DecidableEq, Repr

/-- operands at c 31, s 24:17, a 16:11, b 10:5. -/
structure E3 where
  c : BitVec 1
  s : BitVec 8
  a : BitVec 6
  b : BitVec 6
  deriving DecidableEq, Repr

/-- operands at c 31, s 24:17, j 5. -/
structure EJ where
  c : BitVec 1
  s : BitVec 8
  j : BitVec 1
  deriving DecidableEq, Repr

/-- operands at c 31, s 24:17, z 8, j 7, n 6:5. -/
structure EMmul where
  c : BitVec 1
  s : BitVec 8
  z : BitVec 1
  j : BitVec 1
  n : BitVec 2
  deriving DecidableEq, Repr

/-- operands at c 31, d 16:11, z 8, j 7, n 6:5. -/
structure EMmulR where
  c : BitVec 1
  d : BitVec 6
  z : BitVec 1
  j : BitVec 1
  n : BitVec 2
  deriving DecidableEq, Repr

/-- operands at c 31, s 24:17, d 16:11, w 10, n 6:5. -/
structure EDrainR where
  c : BitVec 1
  s : BitVec 8
  d : BitVec 6
  w : BitVec 1
  n : BitVec 2
  deriving DecidableEq, Repr

/-- operands at c 31, s 24:17, w 10, n 6:5. -/
structure EDrain where
  c : BitVec 1
  s : BitVec 8
  w : BitVec 1
  n : BitVec 2
  deriving DecidableEq, Repr

/-- operands at c 31, m 8:5. -/
structure EMask where
  c : BitVec 1
  m : BitVec 4
  deriving DecidableEq, Repr

/-- operands at c 31, s 24:17, p 16:11. -/
structure E2 where
  c : BitVec 1
  s : BitVec 8
  p : BitVec 6
  deriving DecidableEq, Repr

/-- operands at c 31, d 16:11. -/
structure EV where
  c : BitVec 1
  d : BitVec 6
  deriving DecidableEq, Repr

/-- a LIT word (R29). -/
structure LitW where
  c : BitVec 1
  payload : BitVec 25
  deriving DecidableEq, Repr

/-- operands at a 22:19, k 1:0. -/
structure UAK where
  a : BitVec 4
  k : BitVec 2
  deriving DecidableEq, Repr

/-- operands at d 26:23, a 22:19, f 3:0. -/
structure UDAF where
  d : BitVec 4
  a : BitVec 4
  f : BitVec 4
  deriving DecidableEq, Repr

/-- operands at d 26:23, a 22:19. -/
structure UDA where
  d : BitVec 4
  a : BitVec 4
  deriving DecidableEq, Repr

/-- operands at d 26:23, a 22:19, b 18:15, m 14:13, v 12:0. -/
structure USel where
  d : BitVec 4
  a : BitVec 4
  b : BitVec 4
  m : BitVec 2
  v : BitVec 13
  deriving DecidableEq, Repr

/-- operands at a 22:19. -/
structure UA where
  a : BitVec 4
  deriving DecidableEq, Repr

/-- operands at d 26:23. -/
structure UD where
  d : BitVec 4
  deriving DecidableEq, Repr

/-- operands at d 26:23, a 22:19, b 18:15, t 11:0. -/
structure UBr where
  d : BitVec 4
  a : BitVec 4
  b : BitVec 4
  t : BitVec 12
  deriving DecidableEq, Repr

/-- operands at a 22:19, t 11:0. -/
structure ULoop where
  a : BitVec 4
  t : BitVec 12
  deriving DecidableEq, Repr

/-- operands at a 22:19, k 3:2, m 1:0. -/
structure USetb where
  a : BitVec 4
  k : BitVec 2
  m : BitVec 2
  deriving DecidableEq, Repr

/-- operands at a 22:19, m 0. -/
structure UStb where
  a : BitVec 4
  m : BitVec 1
  deriving DecidableEq, Repr

/-- operands at r 7:0. -/
structure UYield where
  r : BitVec 8
  deriving DecidableEq, Repr

/-- One constructor per row of the opcode table, in its order. -/
inductive Instr where
  /-- BRA (R89). -/
  | bra (o : BF)
  /-- CALL (R130). -/
  | call (o : BC)
  /-- RET (R131). -/
  | ret (o : C0)
  /-- CALLI_S (R130). -/
  | calliS (o : CCallS)
  /-- CALLI_V (R130). -/
  | calliV (o : CCallV)
  /-- JMP_S (R92). -/
  | jmpS (o : CS)
  /-- JMP_V (R92). -/
  | jmpV (o : CV)
  /-- EXIT (R93). -/
  | exitW (o : C0)
  /-- EXIT_S (R93). -/
  | exitS (o : CS)
  /-- YIELD (R95). -/
  | yield (o : C0)
  /-- ELECT (R96). -/
  | elect (o : CSP)
  /-- SYNC (R97). -/
  | sync (o : C0)
  /-- SYNCM (R97). -/
  | syncm (o : CS)
  /-- NOP (R98). -/
  | nop (o : C0)
  /-- WFLUSH (R142). -/
  | wflush (o : C0)
  /-- QUOTA (R107). -/
  | quota (o : CS)
  /-- SHFL (R119). -/
  | shfl (o : VR)
  /-- SHFLX (R119). -/
  | shflx (o : VR)
  /-- SHFLUP (R119). -/
  | shflup (o : VR)
  /-- SHFLDN (R119). -/
  | shfldn (o : VR)
  /-- QSWAP_H (R119). -/
  | qswapH (o : VU)
  /-- QSWAP_V (R119). -/
  | qswapV (o : VU)
  /-- QSWAP_D (R119). -/
  | qswapD (o : VU)
  /-- QBCAST (R119). -/
  | qbcast (o : VR)
  /-- SCAN_ADD_I32 (R120). -/
  | scanAddI32 (o : VU)
  /-- SCAN_ADD_F32 (R120). -/
  | scanAddF32 (o : VU)
  /-- SCAN_MAX_I32 (R120). -/
  | scanMaxI32 (o : VU)
  /-- SCAN_MIN_I32 (R120). -/
  | scanMinI32 (o : VU)
  /-- XSCAN_ADD_I32 (R120). -/
  | xscanAddI32 (o : VU)
  /-- VOTE_ANY (R121). -/
  | voteAny (o : CSP)
  /-- VOTE_ALL (R121). -/
  | voteAll (o : CSP)
  /-- BALLOT (R121). -/
  | ballot (o : CSP)
  /-- REDW_ADD_I32 (R122). -/
  | redwAddI32 (o : CRed)
  /-- REDW_MIN_I32 (R122). -/
  | redwMinI32 (o : CRed)
  /-- REDW_MAX_I32 (R122). -/
  | redwMaxI32 (o : CRed)
  /-- REDW_MIN_N32 (R122). -/
  | redwMinN32 (o : CRed)
  /-- REDW_MAX_N32 (R122). -/
  | redwMaxN32 (o : CRed)
  /-- REDW_AND (R122). -/
  | redwAnd (o : CRed)
  /-- REDW_OR (R122). -/
  | redwOr (o : CRed)
  /-- REDW_XOR (R122). -/
  | redwXor (o : CRed)
  /-- REDW_ADD_F32 (R122). -/
  | redwAddF32 (o : CRed)
  /-- REDW_MIN_F32 (R122). -/
  | redwMinF32 (o : CRed)
  /-- REDW_MAX_F32 (R122). -/
  | redwMaxF32 (o : CRed)
  /-- MOV (R115). -/
  | mov (o : CMov)
  /-- MOVS (R115). -/
  | movs (o : CVS)
  /-- RDL (R115). -/
  | rdl (o : CVSK)
  /-- WRL (R115). -/
  | wrl (o : CVSK)
  /-- LID (R114). -/
  | lid (o : CVK)
  /-- MOVP (R115). -/
  | movp (o : CVP)
  /-- PMOV (R115). -/
  | pmov (o : CPmov)
  /-- MOVI (R115). -/
  | movi (o : CV)
  /-- PAND (R116). -/
  | pand (o : P3)
  /-- POR (R116). -/
  | por (o : P3)
  /-- PXOR (R116). -/
  | pxor (o : P3)
  /-- PANDN (R116). -/
  | pandn (o : P3)
  /-- PNOT (R116). -/
  | pnot (o : P2)
  /-- PSET (R116). -/
  | pset (o : P1)
  /-- PCLR (R116). -/
  | pclr (o : P1)
  /-- ADD_I32 (R149). -/
  | addI32 (o : VR)
  /-- ADD_I32_S (R149). -/
  | addI32S (o : VS)
  /-- SUB_I32 (R149). -/
  | subI32 (o : VR)
  /-- SUB_I32_S (R149). -/
  | subI32S (o : VS)
  /-- MUL_I32 (R149). -/
  | mulI32 (o : VR)
  /-- MUL_I32_S (R149). -/
  | mulI32S (o : VS)
  /-- MULH_I32 (R149). -/
  | mulhI32 (o : VR)
  /-- MULH_I32_S (R149). -/
  | mulhI32S (o : VS)
  /-- MULH_N32 (R149). -/
  | mulhN32 (o : VR)
  /-- MULH_N32_S (R149). -/
  | mulhN32S (o : VS)
  /-- MULW_I32 (R149). -/
  | mulwI32 (o : VR)
  /-- MULW_I32_S (R149). -/
  | mulwI32S (o : VS)
  /-- MULW_N32 (R149). -/
  | mulwN32 (o : VR)
  /-- MULW_N32_S (R149). -/
  | mulwN32S (o : VS)
  /-- MAD_I32 (R149). -/
  | madI32 (o : VR)
  /-- MAD_I32_S (R149). -/
  | madI32S (o : VS)
  /-- MIN_I32 (R149). -/
  | minI32 (o : VR)
  /-- MIN_I32_S (R149). -/
  | minI32S (o : VS)
  /-- MAX_I32 (R149). -/
  | maxI32 (o : VR)
  /-- MAX_I32_S (R149). -/
  | maxI32S (o : VS)
  /-- MIN_N32 (R149). -/
  | minN32 (o : VR)
  /-- MIN_N32_S (R149). -/
  | minN32S (o : VS)
  /-- MAX_N32 (R149). -/
  | maxN32 (o : VR)
  /-- MAX_N32_S (R149). -/
  | maxN32S (o : VS)
  /-- ABS_I32 (R149). -/
  | absI32 (o : VU)
  /-- ABS_I32_S (R149). -/
  | absI32S (o : VU)
  /-- ADDS_I32 (R149). -/
  | addsI32 (o : VR)
  /-- ADDS_I32_S (R149). -/
  | addsI32S (o : VS)
  /-- SUBS_I32 (R149). -/
  | subsI32 (o : VR)
  /-- SUBS_I32_S (R149). -/
  | subsI32S (o : VS)
  /-- ADDS_N32 (R149). -/
  | addsN32 (o : VR)
  /-- ADDS_N32_S (R149). -/
  | addsN32S (o : VS)
  /-- SUBS_N32 (R149). -/
  | subsN32 (o : VR)
  /-- SUBS_N32_S (R149). -/
  | subsN32S (o : VS)
  /-- ADD_I64 (R149). -/
  | addI64 (o : VR)
  /-- ADD_I64_S (R149). -/
  | addI64S (o : VS)
  /-- SUB_I64 (R149). -/
  | subI64 (o : VR)
  /-- SUB_I64_S (R149). -/
  | subI64S (o : VS)
  /-- ADD_I16X2 (R149). -/
  | addI16x2 (o : VR)
  /-- ADD_I16X2_S (R149). -/
  | addI16x2S (o : VS)
  /-- SUB_I16X2 (R149). -/
  | subI16x2 (o : VR)
  /-- SUB_I16X2_S (R149). -/
  | subI16x2S (o : VS)
  /-- DP4_I8 (R149). -/
  | dp4I8 (o : VR)
  /-- DP4_I8_S (R149). -/
  | dp4I8S (o : VS)
  /-- DP4_N8 (R149). -/
  | dp4N8 (o : VR)
  /-- DP4_N8_S (R149). -/
  | dp4N8S (o : VS)
  /-- AND (R149). -/
  | vAnd (o : VR)
  /-- AND_S (R149). -/
  | vAndS (o : VS)
  /-- OR (R149). -/
  | vOr (o : VR)
  /-- OR_S (R149). -/
  | vOrS (o : VS)
  /-- XOR (R149). -/
  | vXor (o : VR)
  /-- XOR_S (R149). -/
  | vXorS (o : VS)
  /-- ANDN (R149). -/
  | vAndn (o : VR)
  /-- ANDN_S (R149). -/
  | vAndnS (o : VS)
  /-- SHL (R149). -/
  | shl (o : VR)
  /-- SHL_S (R149). -/
  | shlS (o : VS)
  /-- SHR (R149). -/
  | shr (o : VR)
  /-- SHR_S (R149). -/
  | shrS (o : VS)
  /-- SAR (R149). -/
  | sar (o : VR)
  /-- SAR_S (R149). -/
  | sarS (o : VS)
  /-- ROTL (R149). -/
  | rotl (o : VR)
  /-- ROTL_S (R149). -/
  | rotlS (o : VS)
  /-- BFX_I32 (R150). -/
  | bfxI32 (o : VR)
  /-- BFX_N32 (R150). -/
  | bfxN32 (o : VR)
  /-- BFI (R150). -/
  | bfi (o : VR)
  /-- PERM (R150). -/
  | perm (o : VR)
  /-- POPC (R150). -/
  | popc (o : VU)
  /-- CLZ (R150). -/
  | clz (o : VU)
  /-- CTZ (R150). -/
  | ctz (o : VU)
  /-- BREV (R150). -/
  | brev (o : VU)
  /-- FSHL (R150). -/
  | fshl (o : VR)
  /-- FSHR (R150). -/
  | fshr (o : VR)
  /-- SEXT_8 (R150). -/
  | sext8 (o : VU)
  /-- SEXT_16 (R150). -/
  | sext16 (o : VU)
  /-- ICMP (R151). -/
  | icmp (o : VP)
  /-- ICMP_S (R151). -/
  | icmpS (o : VPS)
  /-- SEL (R117). -/
  | sel (o : VSel)
  /-- FADD_F32 (R159). -/
  | faddF32 (o : VR)
  /-- FADD_F32_S (R159). -/
  | faddF32S (o : VS)
  /-- FSUB_F32 (R159). -/
  | fsubF32 (o : VR)
  /-- FSUB_F32_S (R159). -/
  | fsubF32S (o : VS)
  /-- FMUL_F32 (R159). -/
  | fmulF32 (o : VR)
  /-- FMUL_F32_S (R159). -/
  | fmulF32S (o : VS)
  /-- FMA_F32 (R159). -/
  | fmaF32 (o : VR)
  /-- FMA_F32_S (R159). -/
  | fmaF32S (o : VS)
  /-- FNMA_F32 (R159). -/
  | fnmaF32 (o : VR)
  /-- FNMA_F32_S (R159). -/
  | fnmaF32S (o : VS)
  /-- FMIN_F32 (R160). -/
  | fminF32 (o : VR)
  /-- FMIN_F32_S (R160). -/
  | fminF32S (o : VS)
  /-- FMAX_F32 (R160). -/
  | fmaxF32 (o : VR)
  /-- FMAX_F32_S (R160). -/
  | fmaxF32S (o : VS)
  /-- FABS_F32 (R159). -/
  | fabsF32 (o : VU)
  /-- FABS_F32_S (R159). -/
  | fabsF32S (o : VU)
  /-- FNEG_F32 (R159). -/
  | fnegF32 (o : VU)
  /-- FNEG_F32_S (R159). -/
  | fnegF32S (o : VU)
  /-- FSIGN_F32 (R161). -/
  | fsignF32 (o : VU)
  /-- FSIGN_F32_S (R161). -/
  | fsignF32S (o : VU)
  /-- FLDEXP_F32 (R161). -/
  | fldexpF32 (o : VR)
  /-- FLDEXP_F32_S (R161). -/
  | fldexpF32S (o : VS)
  /-- FFRAC_F32 (R161). -/
  | ffracF32 (o : VU)
  /-- FFRAC_F32_S (R161). -/
  | ffracF32S (o : VU)
  /-- FCLASS_F32 (R161). -/
  | fclassF32 (o : VU)
  /-- FCLASS_F32_S (R161). -/
  | fclassF32S (o : VU)
  /-- FADD_F16X2 (R162). -/
  | faddF16x2 (o : VR)
  /-- FADD_F16X2_S (R162). -/
  | faddF16x2S (o : VS)
  /-- FMUL_F16X2 (R162). -/
  | fmulF16x2 (o : VR)
  /-- FMUL_F16X2_S (R162). -/
  | fmulF16x2S (o : VS)
  /-- FMA_F16X2 (R162). -/
  | fmaF16x2 (o : VR)
  /-- FMA_F16X2_S (R162). -/
  | fmaF16x2S (o : VS)
  /-- FMIN_F16X2 (R162). -/
  | fminF16x2 (o : VR)
  /-- FMIN_F16X2_S (R162). -/
  | fminF16x2S (o : VS)
  /-- FMAX_F16X2 (R162). -/
  | fmaxF16x2 (o : VR)
  /-- FMAX_F16X2_S (R162). -/
  | fmaxF16x2S (o : VS)
  /-- FADD_BF16X2 (R162). -/
  | faddBf16x2 (o : VR)
  /-- FADD_BF16X2_S (R162). -/
  | faddBf16x2S (o : VS)
  /-- FMUL_BF16X2 (R162). -/
  | fmulBf16x2 (o : VR)
  /-- FMUL_BF16X2_S (R162). -/
  | fmulBf16x2S (o : VS)
  /-- FMA_BF16X2 (R162). -/
  | fmaBf16x2 (o : VR)
  /-- FMA_BF16X2_S (R162). -/
  | fmaBf16x2S (o : VS)
  /-- FMIN_BF16X2 (R162). -/
  | fminBf16x2 (o : VR)
  /-- FMIN_BF16X2_S (R162). -/
  | fminBf16x2S (o : VS)
  /-- FMAX_BF16X2 (R162). -/
  | fmaxBf16x2 (o : VR)
  /-- FMAX_BF16X2_S (R162). -/
  | fmaxBf16x2S (o : VS)
  /-- FDOT2_BF16 (R162). -/
  | fdot2Bf16 (o : VR)
  /-- FDOT2_BF16_S (R162). -/
  | fdot2Bf16S (o : VS)
  /-- FDOT2_F16 (R162). -/
  | fdot2F16 (o : VR)
  /-- FDOT2_F16_S (R162). -/
  | fdot2F16S (o : VS)
  /-- FLERP_F32 (R161). -/
  | flerpF32 (o : VR)
  /-- FLERP_F32_S (R161). -/
  | flerpF32S (o : VS)
  /-- FCMP (R163). -/
  | fcmp (o : VP)
  /-- FCMP_S (R163). -/
  | fcmpS (o : VPS)
  /-- FCVT (R166). -/
  | fcvt (o : VX)
  /-- FRND (R167). -/
  | frnd (o : VRnd)
  /-- FRCP (R170). -/
  | frcp (o : VU)
  /-- FRSQ (R170). -/
  | frsq (o : VU)
  /-- FSQRT (R170). -/
  | fsqrt (o : VU)
  /-- FEXP2 (R170). -/
  | fexp2 (o : VU)
  /-- FLOG2 (R170). -/
  | flog2 (o : VU)
  /-- FSINP (R170). -/
  | fsinp (o : VU)
  /-- FCOSP (R170). -/
  | fcosp (o : VU)
  /-- FTANH (R170). -/
  | ftanh (o : VU)
  /-- FDIV (R170). -/
  | fdiv (o : VR)
  /-- MXQ_F8E4 (R168). -/
  | mxqF8e4 (o : CVSK)
  /-- MXQ_F8E5 (R168). -/
  | mxqF8e5 (o : CVSK)
  /-- MXQ_F4 (R168). -/
  | mxqF4 (o : CVSK)
  /-- MXDQ_F8E4 (R169). -/
  | mxdqF8e4 (o : CVSK)
  /-- MXDQ_F8E5 (R169). -/
  | mxdqF8e5 (o : CVSK)
  /-- MXDQ_F4 (R169). -/
  | mxdqF4 (o : CVSK)
  /-- SADD (R152). -/
  | sadd (o : SR)
  /-- SSUB (R152). -/
  | ssub (o : SR)
  /-- SMUL (R152). -/
  | smul (o : SR)
  /-- SAND (R152). -/
  | sand (o : SR)
  /-- SOR (R152). -/
  | sor (o : SR)
  /-- SXOR (R152). -/
  | sxor (o : SR)
  /-- SSHL (R152). -/
  | sshl (o : SR)
  /-- SSHR (R152). -/
  | sshr (o : SR)
  /-- SSAR (R152). -/
  | ssar (o : SR)
  /-- SMIN (R152). -/
  | smin (o : SR)
  /-- SMAX (R152). -/
  | smax (o : SR)
  /-- SMINN (R152). -/
  | sminn (o : SR)
  /-- SMAXN (R152). -/
  | smaxn (o : SR)
  /-- SMULH (R152). -/
  | smulh (o : SR)
  /-- SADD64 (R152). -/
  | sadd64 (o : SR)
  /-- SSEL (R152). -/
  | ssel (o : SR)
  /-- SCMP (R91). -/
  | scmp (o : SC)
  /-- SBR (R90). -/
  | sbr (o : SB)
  /-- SLD_W (R154). -/
  | sldW (o : SR)
  /-- SLD_D (R154). -/
  | sldD (o : SR)
  /-- SLD_Q (R154). -/
  | sldQ (o : SR)
  /-- SST_W (R154). -/
  | sstW (o : SR)
  /-- SST_D (R154). -/
  | sstD (o : SR)
  /-- SST_Q (R154). -/
  | sstQ (o : SR)
  /-- MFS (R155). -/
  | mfs (o : SXFs)
  /-- MTS (R155). -/
  | mts (o : SXTs)
  /-- CINV_I (R438). -/
  | cinvI (o : E1)
  /-- CINV_D (R438). -/
  | cinvD (o : E1)
  /-- CWB_L1 (R438). -/
  | cwbL1 (o : E1)
  /-- CWB_L2 (R438). -/
  | cwbL2 (o : E1)
  /-- TLBINV_PAGE (R439). -/
  | tlbinvPage (o : E1)
  /-- TLBINV_RANGE (R439). -/
  | tlbinvRange (o : E1)
  /-- TLBINV_ASID (R439). -/
  | tlbinvAsid (o : C0)
  /-- TLBINV_ALL (R439). -/
  | tlbinvAll (o : C0)
  /-- BRK (R435). -/
  | brk (o : SXN)
  /-- TRAP (R435). -/
  | trapW (o : SXN)
  /-- RTE (R436). -/
  | rte (o : C0)
  /-- RQR (R437). -/
  | rqr (o : SXE)
  /-- RQW (R437). -/
  | rqw (o : SXE)
  /-- RQD (R437). -/
  | rqd (o : SXE)
  /-- LD (R211). -/
  | ld (o : ML)
  /-- ST (R211). -/
  | st (o : MS)
  /-- ATOM (R215). -/
  | atom (o : MA)
  /-- RED (R215). -/
  | red (o : MA)
  /-- DOPEN (R222). -/
  | dopen (o : MD)
  /-- DADD (R223). -/
  | dadd (o : MD)
  /-- DCLOSE (R224). -/
  | dclose (o : MD)
  /-- FENCE (R234). -/
  | fence (o : CK)
  /-- FENCE_ACQ (R234). -/
  | fenceAcq (o : CK)
  /-- FENCE_REL (R234). -/
  | fenceRel (o : CK)
  /-- WAITK (R241). -/
  | waitk (o : CWait)
  /-- PF (R217). -/
  | pf (o : CPf)
  /-- PCHK_V (R218). -/
  | pchkV (o : CVP)
  /-- PCHK_S (R218). -/
  | pchkS (o : CSP)
  /-- MWAIT (R220). -/
  | mwait (o : CMwait)
  /-- PCLR_V (R219). -/
  | pclrV (o : CV)
  /-- PCLR_S (R219). -/
  | pclrS (o : CS)
  /-- LDL (R188). -/
  | ldl (o : ML)
  /-- STL (R188). -/
  | stl (o : MS)
  /-- ATOML (R188). -/
  | atoml (o : MA)
  /-- SALLOC (R181). -/
  | salloc (o : CS)
  /-- SFREE (R182). -/
  | sfree (o : CS)
  /-- BMODE (R176). -/
  | bmode (o : CBmode)
  /-- JOIN (R179). -/
  | join (o : CS)
  /-- LEAVE (R179). -/
  | leave (o : C0)
  /-- RINIT (R191). -/
  | rinit (o : CS)
  /-- RINIT_FREE (R191). -/
  | rinitFree (o : CS)
  /-- RPUSH_RES (R193). -/
  | rpushRes (o : CRing)
  /-- RPUSH_CMT (R193). -/
  | rpushCmt (o : CRing)
  /-- RPOP_RES (R193). -/
  | rpopRes (o : CRing)
  /-- RPOP_REL (R193). -/
  | rpopRel (o : CRing)
  /-- RLEN (R194). -/
  | rlen (o : CRing)
  /-- PRES_GET (R186). -/
  | presGet (o : CS)
  /-- PRES_SET (R186). -/
  | presSet (o : CS)
  /-- BINIT (R255). -/
  | binit (o : CBarS)
  /-- BARR (R255). -/
  | barr (o : CBar)
  /-- BARX (R255). -/
  | barx (o : CBarS)
  /-- BARW (R256). -/
  | barw (o : CBarP)
  /-- BARW_S (R256). -/
  | barwS (o : CBarPS)
  /-- BART (R256). -/
  | bart (o : CBart)
  /-- CPL (R265). -/
  | cpl (o : E3)
  /-- CPLS (R265). -/
  | cpls (o : E3)
  /-- CPT (R266). -/
  | cpt (o : E1)
  /-- CPTS (R266). -/
  | cpts (o : E1)
  /-- TDESC (R258). -/
  | tdesc (o : E1)
  /-- FMT (R278). -/
  | fmt (o : E1)
  /-- MSHAPE (R279). -/
  | mshape (o : E1)
  /-- MLOAD (R287). -/
  | mload (o : EJ)
  /-- MMUL (R289). -/
  | mmul (o : EMmul)
  /-- MMUL_REG (R289). -/
  | mmulReg (o : EMmulR)
  /-- MDRAIN_F32 (R293). -/
  | mdrainF32 (o : EDrainR)
  /-- MDRAIN_BF16 (R293). -/
  | mdrainBf16 (o : EDrainR)
  /-- MDRAIN_TILE (R294). -/
  | mdrainTile (o : EDrain)
  /-- MDRAIN_RING (R294). -/
  | mdrainRing (o : EDrain)
  /-- MDRAIN_PORT (R295). -/
  | mdrainPort (o : EDrain)
  /-- MCLR (R297). -/
  | mclr (o : EMask)
  /-- MSTAT (R298). -/
  | mstat (o : EJ)
  /-- HXCFG (R323). -/
  | hxcfg (o : E1)
  /-- HXQ (R327). -/
  | hxq (o : E3)
  /-- HXQ_RING (R328). -/
  | hxqRing (o : E2)
  /-- HXG (R330). -/
  | hxg (o : E3)
  /-- VPUB (R323). -/
  | vpub (o : E1)
  /-- VBIND (R323). -/
  | vbind (o : E1)
  /-- TLAYOUT (R337). -/
  | tlayout (o : E1)
  /-- TCODE (R337). -/
  | tcode (o : E1)
  /-- TRACE (R357). -/
  | trace (o : E2)
  /-- TGET (R358). -/
  | tget (o : EV)
  /-- TRESUME (R374). -/
  | tresume (o : E2)
  /-- TABORT (R359). -/
  | tabort (o : C0)
  /-- TSTAMP (R377). -/
  | tstamp (o : E2)
  /-- COLL (R407). -/
  | coll (o : E1)
  /-- LAUNCH (R397). -/
  | launchW (o : E1)
  /-- TAPE (R398). -/
  | tapeW (o : E1)
  /-- LIT (R30). -/
  | lit (o : LitW)
  /-- ACTIVE_SLOT_FILL (R75). -/
  | evActiveSlotFill (core : Nat) (slot : Nat)
  /-- WAVE_SWAP (R77). -/
  | evWaveSwap (core : Nat) (slot : Nat)
  /-- WATCHDOG (R88). -/
  | evWatchdog (words : Nat)
  /-- TRAP_ENTRY (R429). -/
  | evTrapEntry (code : BitVec 8) (trlm : BitVec 64) (trpa : BitVec 64) (num : BitVec 8)
  /-- STORE_TRANSLATION_FAULT (R212). -/
  | evStoreTranslationFault (wave : Nat) (idx : Nat)
  /-- SOFT_ERROR (R426). -/
  | evSoftError (wave : Nat) (target : SoftTarget)
  /-- SUCCESSOR_RESTART (R94). -/
  | evSuccessorRestart (wg : Nat)
  /-- SPILL (R135). -/
  | evSpill (wave : Nat) (idx : Nat) (frame : Bool)
  /-- SPILL_COMPLETE (R135). -/
  | evSpillComplete (wave : Nat) (idx : Nat) (frame : Bool)
  /-- REFILL (R136). -/
  | evRefill (wave : Nat) (idx : Nat) (frame : Bool)
  /-- REFILL_COMPLETE (R136). -/
  | evRefillComplete (wave : Nat) (idx : Nat) (frame : Bool)
  /-- OPERATION_COMPLETE (R240). -/
  | evOperationComplete (wave : Nat) (cls : Nat)
  /-- ENGINE_DISPATCH (R271). -/
  | evEngineDispatch (core : Nat) (idx : Nat)
  /-- ENGINE_OP_FIRE (R195). -/
  | evEngineOpFire (op : Nat)
  /-- COPY_ARRIVAL (R268). -/
  | evCopyArrival (op : Nat)
  /-- SLOT_OPEN (R222). -/
  | evSlotOpen (asid : Nat) (pa : Nat) (launch : Nat)
  /-- SLOT_ADDITION (R223). -/
  | evSlotAddition (asid : Nat) (pa : Nat) (x : BitVec 32) (launch : Nat)
  /-- SLOT_CLOSE (R224). -/
  | evSlotClose (asid : Nat) (pa : Nat)
  /-- PAIR_OP_START (R291). -/
  | evPairOpStart (pair : Nat)
  /-- ROW_INJECTION (R289). -/
  | evRowInjection (pair : Nat)
  /-- PAIR_OP_RETIRE (R291). -/
  | evPairOpRetire (pair : Nat)
  /-- TOKEN_HOP (R300). -/
  | evTokenHop (die : Nat) (idx : Nat)
  /-- BURST_QUIET_CLOSE (R302). -/
  | evBurstQuietClose (pair : Nat)
  /-- BURST_TIME_LIMIT (R302). -/
  | evBurstTimeLimit (pair : Nat)
  /-- TOKEN_RELEASE (R302). -/
  | evTokenRelease (pair : Nat)
  /-- RAMP_STEP (R306). -/
  | evRampStep (cluster : Nat)
  /-- CONTROLLER_PERIOD (R309). -/
  | evControllerPeriod (die : Nat) (inp : Telemetry)
  /-- THERMAL_TRIP_WARNING (R310). -/
  | evThermalTripWarning (die : Nat) (cluster : Nat)
  /-- THERMAL_STOP (R310). -/
  | evThermalStop (die : Nat) (cluster : Nat)
  /-- MARGIN_MEASUREMENT (R311). -/
  | evMarginMeasurement (island : Nat) (marg : BitVec 10)
  /-- TIMING_REPLAY (R313). -/
  | evTimingReplay (island : Nat)
  /-- REPLAY_RATE_STEP (R313). -/
  | evReplayRateStep (island : Nat) (raise : Bool) (step : Nat)
  /-- REPLAY_THROTTLE (R315). -/
  | evReplayThrottle (island : Nat) (step : Nat)
  /-- L1_LINE_REFRESH (R233). -/
  | evL1LineRefresh (cluster : Nat) (line : Nat)
  /-- VERSION_STEP (R322). -/
  | evVersionStep (op : Nat)
  /-- BINDING_RELEASE (R324). -/
  | evBindingRelease (idx : Nat)
  /-- MICRO_NOP (R344). -/
  | miNop
  /-- FETCH (R346). -/
  | miFetch (o : UAK)
  /-- FIELD (R344). -/
  | miField (o : UDAF)
  /-- BOX (R347). -/
  | miBox (o : UDA)
  /-- SORT (R347). -/
  | miSort (o : UDAF)
  /-- SELECT (R347). -/
  | miSelect (o : USel)
  /-- PUSH (R348). -/
  | miPush (o : UA)
  /-- POP (R348). -/
  | miPop (o : UD)
  /-- TRI (R365). -/
  | miTri (o : UA)
  /-- CAPS (R366). -/
  | miCaps (o : UA)
  /-- CURVE (R367). -/
  | miCurve (o : UA)
  /-- XFORM (R350). -/
  | miXform (o : UDA)
  /-- POPX (R350). -/
  | miPopx
  /-- ACCEPT (R349). -/
  | miAccept
  /-- TERM (R349). -/
  | miTerm
  /-- BR (R351). -/
  | miBr (o : UBr)
  /-- LOOP (R351). -/
  | miLoop (o : ULoop)
  /-- SETB (R352). -/
  | miSetb (o : USetb)
  /-- STB (R353). -/
  | miStb (o : UStb)
  /-- MICRO_YIELD (R354). -/
  | miYield (o : UYield)
  /-- BUDGET_EXHAUSTED (R345). -/
  | evBudgetExhausted (wave : Nat) (lane : Nat)
  /-- PROGRAM_START (R409). -/
  | evProgramStart (die : Nat)
  /-- SEND (R414). -/
  | evSend (die : Nat) (f : PData)
  /-- RECV (R414). -/
  | evRecv (die : Nat) (f : PData)
  /-- RRS (R414). -/
  | evRrs (die : Nat) (f : PData)
  /-- RRW (R414). -/
  | evRrw (die : Nat) (f : PData)
  /-- COPY (R414). -/
  | evCopy (die : Nat) (f : PData)
  /-- WAIT (R416). -/
  | evWait (die : Nat) (cond : BitVec 2) (b : BitVec 4) (off : BitVec 20) (thr : BitVec 32)
  /-- PELOTON_LOOP (R417). -/
  | evPelotonLoop (die : Nat) (j : BitVec 2) (count : BitVec 32)
  /-- ENDL (R417). -/
  | evEndl (die : Nat) (j : BitVec 2)
  /-- PEER (R417). -/
  | evPeer (die : Nat) (dst : BitVec 2) (x : BitVec 1) (m : BitVec 2) (j : BitVec 2) (imm : BitVec 32)
  /-- SRK (R417). -/
  | evSrk (die : Nat) (key : BitVec 32)
  /-- DONE (R416). -/
  | evDone (die : Nat) (b : BitVec 4) (off : BitVec 20) (inc : BitVec 32)
  /-- STEPX (R418). -/
  | evStepx (die : Nat) (b : BitVec 4) (off : BitVec 20)
  /-- MESSAGE_ARRIVAL (R413). -/
  | evMessageArrival (die : Nat) (msg : PMsg)
  /-- ABORT_FLIT (R421). -/
  | evAbortFlit (die : Nat) (tag : BitVec 16)
  /-- LINK_STOP (R422). -/
  | evLinkStop (die : Nat) (link : Nat) (on : Bool)
  /-- DOORBELL (R381). -/
  | evDoorbell (q : Nat) (v : BitVec 64) (src : Nat)
  /-- LAUNCH_ENTRY (R383). -/
  | evLaunchEntry (q : Nat)
  /-- TAPE_RUN (R399). -/
  | evTapeRun (q : Nat)
  /-- FRAME_MARK (R400). -/
  | evFrameMark (q : Nat)
  /-- LAUNCH_CONDITIONS_HOLD (R386). -/
  | evLaunchConditionsHold (q : Nat) (i : Nat)
  /-- PLACE_GANG (R390). -/
  | evPlaceGang
  /-- CLUSTER_DRAIN (R391). -/
  | evClusterDrain (q : Nat)
  /-- PREEMPTION_COMPLETE (R441). -/
  | evPreemptionComplete (gang : Nat)
  /-- PENDING_LAUNCH_APPEND (R397). -/
  | evPendingLaunchAppend (wave : Nat)
  /-- BACKGROUND_BUDGET_REACHED (R400). -/
  | evBackgroundBudgetReached (q : Nat)
  /-- WORKGROUP_RETIRE (R402). -/
  | evWorkgroupRetire (wg : Nat)
  /-- LAUNCH_RETIRE (R403). -/
  | evLaunchRetire (launch : Nat)
  /-- SPLINTER (R204). -/
  | evSplinter (die : Nat) (v : BitVec 64)
  /-- PSTAT_READ (R307). -/
  | evPstatRead (die : Nat)
  /-- QCMD_ENABLE (R449). -/
  | evQcmdEnable (q : Nat) (src : Nat)
  /-- QCMD_DISABLE (R449). -/
  | evQcmdDisable (q : Nat) (src : Nat)
  /-- QCMD_SUSPEND (R449). -/
  | evQcmdSuspend (q : Nat) (src : Nat)
  /-- QCMD_KILL (R449). -/
  | evQcmdKill (q : Nat) (src : Nat)
  /-- KILLL (R404). -/
  | evKilll (lnch : BitVec 32) (src : Nat)
  /-- KEY_LOAD (R451). -/
  | evKeyLoad (v : BitVec 64) (src : Nat)
  /-- PFLUSH (R420). -/
  | evPflush (die : Nat) (v : BitVec 64)
  /-- PSTEP_WRITE (R420). -/
  | evPstepWrite (die : Nat) (v : BitVec 64) (src : Nat)
  /-- REGISTER_WRITE (R448). -/
  | evRegisterWrite (die : Nat) (off : Nat) (size : Nat) (v : BitVec 64) (src : Nat)
  /-- HOST_BAR_ACCESS (R447). -/
  | evHostBarAccess (port : Nat) (bar : Nat) (off : Nat) (acc : BusAccess)
  /-- PEER_ACCESS (R450). -/
  | evPeerAccess (module : Nat) (addr : Nat) (acc : BusAccess)
  /-- LINK_STATE_CHANGE (R447). -/
  | evLinkStateChange (host : Bool) (idx : Nat) (up : Bool)
  /-- READ (R453). -/
  | evRead (die : BitVec 8) (off : BitVec 32)
  /-- WRITE (R453). -/
  | evWrite (die : BitVec 8) (off : BitVec 32) (v : BitVec 64)
  /-- RESYNC (R455). -/
  | evResync
  /-- QUOTE (R456). -/
  | evQuote (nonce : BitVec 256)
  /-- CERT (R453). -/
  | evCert
  /-- COLD_RESET (R454). -/
  | evColdReset
  /-- WARM_RESET (R454). -/
  | evWarmReset
  /-- PORT_RETRAIN (R454). -/
  | evPortRetrain (port : Nat)
  /-- RELEASE (R453). -/
  | evRelease
  /-- KILL (R453). -/
  | evKill (lnch : BitVec 32)
  /-- EXTEND (R456). -/
  | evExtend (i : Nat) (digest : BitVec 256)
  /-- FIRMWARE_VERIFY (R456): an image, the version and the digest that the ROM finds in it and of its key, the key, the signature. -/
  | evFirmwareVerify (image : List (BitVec 8)) (version : Nat) (keyDigest : BitVec 256) (modulus : Nat) (exponent : Nat) (sig : Nat)
  /-- BRINGUP_STEP (R454). -/
  | evBringupStep (ok : Bool)
  /-- ZERO_FILL (R181). -/
  | evZeroFill (idx : Nat)
  /-- MODE_SWITCH_COMPLETE (R176). -/
  | evModeSwitchComplete (core : Nat)
  /-- SPLINTER_DONE (R204). -/
  | evSplinterDone (die : Nat)
  /-- PACKET_ARRIVAL (R83). -/
  | evPacketArrival (core : Nat) (asid : Nat) (line : Nat)
  /-- BAD_FRAME (R453). -/
  | evBadFrame (frame : List (BitVec 8))
  /-- CORE_CYCLE (R113). -/
  | evCoreCycle (core : Nat)
  /-- MODULE_RESET (R454). -/
  | evModuleReset
  deriving DecidableEq, Repr

end Sys2Proof
end

