-- ==== Sys2Proof/WellFormed.lean ====
section
/-! DEFINITION. Which words are well formed: the field checks that a word alone decides (R28 step 4, R35 to R45 and each entry). An ill-formed word raises illegal operand (0x03). -/

namespace Sys2Proof

/-- The names of a decode fault (R28): codes 0x01, 0x02, 0x03. -/
inductive DecodeFault where
  | illegalInstruction
  | illegalFunction
  | illegalOperand
  deriving DecidableEq, Repr

/-- An even register number. -/
def isEven {n : Nat} (x : BitVec n) : Bool := x.toNat % 2 == 0

/-- The name of a pair is at most v62 (R36). -/
def pairOk (v : BitVec 6) : Bool := v.toNat ≤ 62

/-- A vector group of n names starting at v stays within v63 (R36). -/
def groupOk (v : BitVec 6) (n : Nat) : Bool := v.toNat + n ≤ 64

/-- A B-source code (R33, R35): 0 to 55 or 63. -/
def bsrcOk (b : BitVec 6) : Bool := b.toNat ≤ 55 || b == 63

/-- A 64-bit B-source code (R148): even, or the literal. -/
def bsrc64Ok (b : BitVec 6) : Bool := (b.toNat ≤ 55 && isEven b) || b == 63

/-- The number of names a size code moves (R36). -/
def sizeRegs (sz : BitVec 3) : Nat :=
  match sz.toNat with
  | 3 => 2
  | 4 => 4
  | _ => 1

/-- Size code, sign bit and data names of a load or store (R36). -/
def sizeOk (x : BitVec 6) (sz : BitVec 3) (sx : Bool) : Bool :=
  sz.toNat ≤ 4 && groupOk x (sizeRegs sz) && (!sx || sz.toNat < 2)

/-- The names that an atomic's data occupies (R41). -/
def atomRegs (op : BitVec 4) : Nat :=
  match op.toNat with
  | 9 => 2
  | 12 => 2
  | 13 => 2
  | 14 => 4
  | _ => 1

/-- The type pairs of R164. -/
def fcvtOk (dt st : BitVec 4) : Bool :=
  match st.toNat with
  | 0 => 1 ≤ dt.toNat && dt.toNat ≤ 12
  | 12 => dt.toNat == 0
  | s => if s ≤ 5 then dt.toNat ≤ 11 && dt.toNat != s else s ≤ 11 && dt.toNat ≤ 5

/-- A rounding code that is not reserved (R40). -/
def rmOk (rm : BitVec 3) : Bool := rm.toNat ≤ 6

/-- The scalar group of an engine word or system word: even and at most 252. -/
def grp252 (s : BitVec 8) : Bool := isEven s && s.toNat ≤ 252

/-- A special register of R111. -/
def specialOk (r : BitVec 8) : Bool :=
  let n := r.toNat
  n ≤ 0x08 || (0x10 ≤ n && n ≤ 0x17) || (0x20 ≤ n && n ≤ 0x24) || (0x30 ≤ n && n ≤ 0x3E) || n == 0x41 || n == 0x42

/-- A special register that R111 lists for writing (RW or P). -/
def specialRW (r : BitVec 8) : Bool :=
  let n := r.toNat
  (0x11 ≤ n && n ≤ 0x14) || n == 0x16 || n == 0x17 || n == 0x20 || n == 0x21 || (0x3B ≤ n && n ≤ 0x3E)

/-- The field checks of R28 step 4 that a word alone decides: reserved field values, forbidden register uses, pairs and quads that would pass the file. -/
def Instr.wf : Instr → Bool
  | .bra o => o.p != 0 || o.n == 0
  | .call o => o.sl != 0 && o.sl != 7
  | .ret _ => true
  | .calliS o => isEven o.s && o.sl != 0 && o.sl != 7
  | .calliV o => pairOk o.v && o.sl != 0 && o.sl != 7
  | .jmpS o => isEven o.s
  | .jmpV o => pairOk o.v
  | .exitW _ => true
  | .exitS o => isEven o.s
  | .yield _ => true
  | .elect o => o.p != 0
  | .sync _ => true
  | .syncm o => isEven o.s
  | .nop _ => true
  | .wflush _ => true
  | .quota o => isEven o.s
  | .shfl _ => true
  | .shflx _ => true
  | .shflup _ => true
  | .shfldn _ => true
  | .qswapH _ => true
  | .qswapV _ => true
  | .qswapD _ => true
  | .qbcast _ => true
  | .scanAddI32 _ => true
  | .scanAddF32 _ => true
  | .scanMaxI32 _ => true
  | .scanMinI32 _ => true
  | .xscanAddI32 _ => true
  | .voteAny _ => true
  | .voteAll _ => true
  | .ballot o => isEven o.s
  | .redwAddI32 _ => true
  | .redwMinI32 _ => true
  | .redwMaxI32 _ => true
  | .redwMinN32 _ => true
  | .redwMaxN32 _ => true
  | .redwAnd _ => true
  | .redwOr _ => true
  | .redwXor _ => true
  | .redwAddF32 _ => true
  | .redwMinF32 _ => true
  | .redwMaxF32 _ => true
  | .mov _ => true
  | .movs _ => true
  | .rdl _ => true
  | .wrl _ => true
  | .lid o => o.k.toNat ≤ 6
  | .movp _ => true
  | .pmov o => o.p != 0
  | .movi _ => true
  | .pand o => o.d != 0
  | .por o => o.d != 0
  | .pxor o => o.d != 0
  | .pandn o => o.d != 0
  | .pnot o => o.d != 0
  | .pset o => o.d != 0
  | .pclr o => o.d != 0
  | .addI32 _ => true
  | .addI32S o => bsrcOk o.b
  | .subI32 _ => true
  | .subI32S o => bsrcOk o.b
  | .mulI32 _ => true
  | .mulI32S o => bsrcOk o.b
  | .mulhI32 _ => true
  | .mulhI32S o => bsrcOk o.b
  | .mulhN32 _ => true
  | .mulhN32S o => bsrcOk o.b
  | .mulwI32 o => pairOk o.d
  | .mulwI32S o => pairOk o.d && bsrcOk o.b
  | .mulwN32 o => pairOk o.d
  | .mulwN32S o => pairOk o.d && bsrcOk o.b
  | .madI32 _ => true
  | .madI32S o => bsrcOk o.b
  | .minI32 _ => true
  | .minI32S o => bsrcOk o.b
  | .maxI32 _ => true
  | .maxI32S o => bsrcOk o.b
  | .minN32 _ => true
  | .minN32S o => bsrcOk o.b
  | .maxN32 _ => true
  | .maxN32S o => bsrcOk o.b
  | .absI32 _ => true
  | .absI32S _ => true
  | .addsI32 _ => true
  | .addsI32S o => bsrcOk o.b
  | .subsI32 _ => true
  | .subsI32S o => bsrcOk o.b
  | .addsN32 _ => true
  | .addsN32S o => bsrcOk o.b
  | .subsN32 _ => true
  | .subsN32S o => bsrcOk o.b
  | .addI64 o => pairOk o.d && pairOk o.a && pairOk o.b
  | .addI64S o => pairOk o.d && pairOk o.a && bsrc64Ok o.b
  | .subI64 o => pairOk o.d && pairOk o.a && pairOk o.b
  | .subI64S o => pairOk o.d && pairOk o.a && bsrc64Ok o.b
  | .addI16x2 _ => true
  | .addI16x2S o => bsrcOk o.b
  | .subI16x2 _ => true
  | .subI16x2S o => bsrcOk o.b
  | .dp4I8 _ => true
  | .dp4I8S o => bsrcOk o.b
  | .dp4N8 _ => true
  | .dp4N8S o => bsrcOk o.b
  | .vAnd _ => true
  | .vAndS o => bsrcOk o.b
  | .vOr _ => true
  | .vOrS o => bsrcOk o.b
  | .vXor _ => true
  | .vXorS o => bsrcOk o.b
  | .vAndn _ => true
  | .vAndnS o => bsrcOk o.b
  | .shl _ => true
  | .shlS o => bsrcOk o.b
  | .shr _ => true
  | .shrS o => bsrcOk o.b
  | .sar _ => true
  | .sarS o => bsrcOk o.b
  | .rotl _ => true
  | .rotlS o => bsrcOk o.b
  | .bfxI32 _ => true
  | .bfxN32 _ => true
  | .bfi _ => true
  | .perm _ => true
  | .popc _ => true
  | .clz _ => true
  | .ctz _ => true
  | .brev _ => true
  | .fshl _ => true
  | .fshr _ => true
  | .sext8 _ => true
  | .sext16 _ => true
  | .icmp o => o.pd != 0 && o.cond.toNat ≤ 5 && o.ty.toNat ≤ 3 && (o.ty.toNat < 2 || (pairOk o.a && pairOk o.b))
  | .icmpS o => o.pd != 0 && o.cond.toNat ≤ 5 && o.ty.toNat ≤ 3 && (if o.ty.toNat < 2 then bsrcOk o.b else pairOk o.a && bsrc64Ok o.b)
  | .sel _ => true
  | .faddF32 _ => true
  | .faddF32S o => bsrcOk o.b
  | .fsubF32 _ => true
  | .fsubF32S o => bsrcOk o.b
  | .fmulF32 _ => true
  | .fmulF32S o => bsrcOk o.b
  | .fmaF32 _ => true
  | .fmaF32S o => bsrcOk o.b
  | .fnmaF32 _ => true
  | .fnmaF32S o => bsrcOk o.b
  | .fminF32 _ => true
  | .fminF32S o => bsrcOk o.b
  | .fmaxF32 _ => true
  | .fmaxF32S o => bsrcOk o.b
  | .fabsF32 _ => true
  | .fabsF32S _ => true
  | .fnegF32 _ => true
  | .fnegF32S _ => true
  | .fsignF32 _ => true
  | .fsignF32S _ => true
  | .fldexpF32 _ => true
  | .fldexpF32S o => bsrcOk o.b
  | .ffracF32 _ => true
  | .ffracF32S _ => true
  | .fclassF32 _ => true
  | .fclassF32S _ => true
  | .faddF16x2 _ => true
  | .faddF16x2S o => bsrcOk o.b
  | .fmulF16x2 _ => true
  | .fmulF16x2S o => bsrcOk o.b
  | .fmaF16x2 _ => true
  | .fmaF16x2S o => bsrcOk o.b
  | .fminF16x2 _ => true
  | .fminF16x2S o => bsrcOk o.b
  | .fmaxF16x2 _ => true
  | .fmaxF16x2S o => bsrcOk o.b
  | .faddBf16x2 _ => true
  | .faddBf16x2S o => bsrcOk o.b
  | .fmulBf16x2 _ => true
  | .fmulBf16x2S o => bsrcOk o.b
  | .fmaBf16x2 _ => true
  | .fmaBf16x2S o => bsrcOk o.b
  | .fminBf16x2 _ => true
  | .fminBf16x2S o => bsrcOk o.b
  | .fmaxBf16x2 _ => true
  | .fmaxBf16x2S o => bsrcOk o.b
  | .fdot2Bf16 _ => true
  | .fdot2Bf16S o => bsrcOk o.b
  | .fdot2F16 _ => true
  | .fdot2F16S o => bsrcOk o.b
  | .flerpF32 _ => true
  | .flerpF32S o => bsrcOk o.b
  | .fcmp o => o.pd != 0 && o.ty.toNat ≤ 2
  | .fcmpS o => o.pd != 0 && o.ty.toNat ≤ 2 && bsrcOk o.b
  | .fcvt o => fcvtOk o.dt o.st && rmOk o.rm
  | .frnd o => rmOk o.rm
  | .frcp _ => true
  | .frsq _ => true
  | .fsqrt _ => true
  | .fexp2 _ => true
  | .flog2 _ => true
  | .fsinp _ => true
  | .fcosp _ => true
  | .ftanh _ => true
  | .fdiv _ => true
  | .mxqF8e4 _ => true
  | .mxqF8e5 _ => true
  | .mxqF4 _ => true
  | .mxdqF8e4 _ => true
  | .mxdqF8e5 _ => true
  | .mxdqF4 _ => true
  | .sadd _ => true
  | .ssub _ => true
  | .smul _ => true
  | .sand _ => true
  | .sor _ => true
  | .sxor _ => true
  | .sshl _ => true
  | .sshr _ => true
  | .ssar _ => true
  | .smin _ => true
  | .smax _ => true
  | .sminn _ => true
  | .smaxn _ => true
  | .smulh _ => true
  | .sadd64 o => isEven o.d && isEven o.a && (isEven o.b || o.b == 63)
  | .ssel _ => true
  | .scmp o => o.cond.toNat ≤ 5 && (o.ty.toNat < 2 || (isEven o.a && (isEven o.b || o.b == 63)))
  | .sbr _ => true
  | .sldW o => isEven o.a
  | .sldD o => isEven o.a && isEven o.d
  | .sldQ o => isEven o.a && o.d.toNat % 4 == 0
  | .sstW o => isEven o.a
  | .sstD o => isEven o.a && isEven o.d
  | .sstQ o => isEven o.a && o.d.toNat % 4 == 0
  | .mfs o => specialOk o.r
  | .mts o => specialOk o.r
  | .cinvI o => grp252 o.s
  | .cinvD o => grp252 o.s
  | .cwbL1 o => grp252 o.s
  | .cwbL2 o => grp252 o.s
  | .tlbinvPage o => grp252 o.s
  | .tlbinvRange o => grp252 o.s
  | .tlbinvAsid _ => true
  | .tlbinvAll _ => true
  | .brk _ => true
  | .trapW _ => true
  | .rte _ => true
  | .rqr o => o.e.toNat ≤ 5
  | .rqw o => o.e.toNat ≤ 5
  | .rqd o => o.e.toNat ≤ 5
  | .ld o => isEven o.b && sizeOk o.x o.sz (o.sx == 1)
  | .st o => isEven o.b && sizeOk o.x o.sz false
  | .atom o => isEven o.b && groupOk o.x (atomRegs o.op)
  | .red o => isEven o.b && groupOk o.x (atomRegs o.op) && o.op != 8 && o.op != 9 && o.op != 13 && o.op != 14
  | .dopen o => isEven o.b
  | .dadd o => isEven o.b
  | .dclose o => isEven o.b && pairOk o.x
  | .fence o => o.k.toNat ≤ 5
  | .fenceAcq o => o.k.toNat ≤ 5
  | .fenceRel o => o.k.toNat ≤ 5
  | .waitk o => o.k.toNat ≤ 7
  | .pf o => isEven o.s && o.l != 3
  | .pchkV o => o.p != 0
  | .pchkS o => o.p != 0
  | .mwait o => o.s.toNat % 4 == 0 && o.cond != 3 && o.scope.toNat ≤ 5
  | .pclrV _ => true
  | .pclrS _ => true
  | .ldl o => sizeOk o.x o.sz (o.sx == 1)
  | .stl o => sizeOk o.x o.sz false
  | .atoml o => groupOk o.x (atomRegs o.op)
  | .salloc _ => true
  | .sfree _ => true
  | .bmode o => o.m != 3
  | .join _ => true
  | .leave _ => true
  | .rinit _ => true
  | .rinitFree _ => true
  | .rpushRes o => isEven o.s
  | .rpushCmt o => isEven o.s
  | .rpopRes o => isEven o.s
  | .rpopRel o => isEven o.s
  | .rlen o => isEven o.s
  | .presGet o => isEven o.s
  | .presSet o => isEven o.s
  | .binit _ => true
  | .barr _ => true
  | .barx _ => true
  | .barw _ => true
  | .barwS _ => true
  | .bart o => o.q != 0
  | .cpl o => o.s.toNat % 4 == 0
  | .cpls o => o.s.toNat % 4 == 0
  | .cpt _ => true
  | .cpts _ => true
  | .tdesc o => grp252 o.s
  | .fmt _ => true
  | .mshape _ => true
  | .mload o => isEven o.s
  | .mmul o => isEven o.s
  | .mmulReg o => o.d.toNat ≤ 32
  | .mdrainF32 o => isEven o.s
  | .mdrainBf16 o => isEven o.s
  | .mdrainTile o => grp252 o.s
  | .mdrainRing o => grp252 o.s
  | .mdrainPort o => isEven o.s && o.s.toNat ≤ 250
  | .mclr o => o.m != 0
  | .mstat o => isEven o.s
  | .hxcfg o => grp252 o.s
  | .hxq o => o.a.toNat ≤ 61 && o.b != 0
  | .hxqRing o => o.p.toNat ≤ 61
  | .hxg o => o.a.toNat ≤ 61
  | .vpub o => grp252 o.s
  | .vbind o => isEven o.s && o.s.toNat ≤ 250
  | .tlayout o => grp252 o.s
  | .tcode o => grp252 o.s
  | .trace o => o.s.toNat % 4 == 0 && o.s.toNat ≤ 252 && o.p.toNat ≤ 54
  | .tget o => o.d.toNat ≤ 56
  | .tresume o => o.s.toNat % 4 == 0 && o.s.toNat ≤ 252 && o.p.toNat ≤ 57
  | .tabort _ => true
  | .tstamp o => o.s.toNat % 4 == 0 && o.s.toNat ≤ 252 && o.p.toNat ≤ 62
  | .coll o => grp252 o.s
  | .launchW o => grp252 o.s
  | .tapeW o => grp252 o.s
  | .lit _ => true
  | .evActiveSlotFill _ _ => true
  | .evWaveSwap _ _ => true
  | .evWatchdog _ => true
  | .evTrapEntry _ _ _ _ => true
  | .evStoreTranslationFault _ _ => true
  | .evSoftError _ _ => true
  | .evSuccessorRestart _ => true
  | .evSpill _ _ _ => true
  | .evSpillComplete _ _ _ => true
  | .evRefill _ _ _ => true
  | .evRefillComplete _ _ _ => true
  | .evOperationComplete _ _ => true
  | .evEngineDispatch _ _ => true
  | .evEngineOpFire _ => true
  | .evCopyArrival _ => true
  | .evSlotOpen _ _ _ => true
  | .evSlotAddition _ _ _ _ => true
  | .evSlotClose _ _ => true
  | .evPairOpStart _ => true
  | .evRowInjection _ => true
  | .evPairOpRetire _ => true
  | .evTokenHop _ _ => true
  | .evBurstQuietClose _ => true
  | .evBurstTimeLimit _ => true
  | .evTokenRelease _ => true
  | .evRampStep _ => true
  | .evControllerPeriod _ _ => true
  | .evThermalTripWarning _ _ => true
  | .evThermalStop _ _ => true
  | .evMarginMeasurement _ _ => true
  | .evTimingReplay _ => true
  | .evReplayRateStep _ _ _ => true
  | .evReplayThrottle _ _ => true
  | .evL1LineRefresh _ _ => true
  | .evVersionStep _ => true
  | .evBindingRelease _ => true
  | .miNop => true
  | .miFetch _ => true
  | .miField o => o.f.toNat ≤ 11
  | .miBox _ => true
  | .miSort o => o.d.toNat ≤ 14 && 1 ≤ o.f.toNat && o.f.toNat ≤ 8 && o.a.toNat + o.f.toNat ≤ 16
  | .miSelect _ => true
  | .miPush _ => true
  | .miPop _ => true
  | .miTri _ => true
  | .miCaps _ => true
  | .miCurve _ => true
  | .miXform o => o.d.toNat ≤ 14
  | .miPopx => true
  | .miAccept => true
  | .miTerm => true
  | .miBr o => !(o.d == 0 || (7 ≤ o.d.toNat && o.d.toNat ≤ 13)) || (o.a == 0 && o.b == 0)
  | .miLoop _ => true
  | .miSetb o => o.m.toNat ≤ 2 && o.k.toNat ≤ 2
  | .miStb _ => true
  | .miYield _ => true
  | .evBudgetExhausted _ _ => true
  | .evProgramStart _ => true
  | .evSend _ _ => true
  | .evRecv _ _ => true
  | .evRrs _ _ => true
  | .evRrw _ _ => true
  | .evCopy _ _ => true
  | .evWait _ _ _ _ _ => true
  | .evPelotonLoop _ _ _ => true
  | .evEndl _ _ => true
  | .evPeer _ _ _ _ _ _ => true
  | .evSrk _ _ => true
  | .evDone _ _ _ _ => true
  | .evStepx _ _ _ => true
  | .evMessageArrival _ _ => true
  | .evAbortFlit _ _ => true
  | .evLinkStop _ _ _ => true
  | .evDoorbell _ _ _ => true
  | .evLaunchEntry _ => true
  | .evTapeRun _ => true
  | .evFrameMark _ => true
  | .evLaunchConditionsHold _ _ => true
  | .evPlaceGang => true
  | .evClusterDrain _ => true
  | .evPreemptionComplete _ => true
  | .evPendingLaunchAppend _ => true
  | .evBackgroundBudgetReached _ => true
  | .evWorkgroupRetire _ => true
  | .evLaunchRetire _ => true
  | .evSplinter _ _ => true
  | .evPstatRead _ => true
  | .evQcmdEnable _ _ => true
  | .evQcmdDisable _ _ => true
  | .evQcmdSuspend _ _ => true
  | .evQcmdKill _ _ => true
  | .evKilll _ _ => true
  | .evKeyLoad _ _ => true
  | .evPflush _ _ => true
  | .evPstepWrite _ _ _ => true
  | .evRegisterWrite _ _ _ _ _ => true
  | .evHostBarAccess _ _ _ _ => true
  | .evPeerAccess _ _ _ => true
  | .evLinkStateChange _ _ _ => true
  | .evRead _ _ => true
  | .evWrite _ _ _ => true
  | .evResync => true
  | .evQuote _ => true
  | .evCert => true
  | .evColdReset => true
  | .evWarmReset => true
  | .evPortRetrain _ => true
  | .evRelease => true
  | .evKill _ => true
  | .evExtend _ _ => true
  | .evFirmwareVerify _ _ _ _ _ _ => true
  | .evBringupStep _ => true
  | .evZeroFill _ => true
  | .evModeSwitchComplete _ => true
  | .evSplinterDone _ => true
  | .evPacketArrival _ _ _ => true
  | .evBadFrame _ => true
  | .evCoreCycle _ => true
  | .evModuleReset => true

end Sys2Proof
end

