-- ==== Sys2Proof/Decode.lean ====
section
/-! DEFINITION. The decoder of instruction words (R19, R33 to R45) and of traversal micro-operation words (R344), total on any bits and rejecting by name, and the encoder, both written from the same formats. -/

namespace Sys2Proof

/-- Bits hi down to lo of a word held as a number (R1). -/
def fld (w hi lo : Nat) : Nat := w / 2 ^ lo % 2 ^ (hi + 1 - lo)

/-- The n-bit field at bit lo. -/
def bfield (w lo n : Nat) : BitVec n := BitVec.ofNat n (w / 2 ^ lo)

/-- The operand fields of shape BF. -/
def BF.ofWord (w : Nat) : BF :=
  ⟨bfield w 31 1, bfield w 22 3, bfield w 21 1, bfield w 0 21⟩

/-- The operand bits of shape BF in place. -/
def BF.bits (o : BF) : Nat :=
  o.c.toNat * 2 ^ 31 + o.p.toNat * 2 ^ 22 + o.n.toNat * 2 ^ 21 + o.off.toNat

/-- The operand fields of shape BC. -/
def BC.ofWord (w : Nat) : BC :=
  ⟨bfield w 31 1, bfield w 22 3, bfield w 0 22⟩

/-- The operand bits of shape BC in place. -/
def BC.bits (o : BC) : Nat :=
  o.c.toNat * 2 ^ 31 + o.sl.toNat * 2 ^ 22 + o.off.toNat

/-- The operand fields of shape C0. -/
def C0.ofWord (w : Nat) : C0 :=
  ⟨bfield w 31 1⟩

/-- The operand bits of shape C0 in place. -/
def C0.bits (o : C0) : Nat :=
  o.c.toNat * 2 ^ 31

/-- The operand fields of shape CCallS. -/
def CCallS.ofWord (w : Nat) : CCallS :=
  ⟨bfield w 31 1, bfield w 11 8, bfield w 5 3⟩

/-- The operand bits of shape CCallS in place. -/
def CCallS.bits (o : CCallS) : Nat :=
  o.c.toNat * 2 ^ 31 + o.s.toNat * 2 ^ 11 + o.sl.toNat * 2 ^ 5

/-- The operand fields of shape CCallV. -/
def CCallV.ofWord (w : Nat) : CCallV :=
  ⟨bfield w 31 1, bfield w 19 6, bfield w 5 3⟩

/-- The operand bits of shape CCallV in place. -/
def CCallV.bits (o : CCallV) : Nat :=
  o.c.toNat * 2 ^ 31 + o.v.toNat * 2 ^ 19 + o.sl.toNat * 2 ^ 5

/-- The operand fields of shape CS. -/
def CS.ofWord (w : Nat) : CS :=
  ⟨bfield w 31 1, bfield w 11 8⟩

/-- The operand bits of shape CS in place. -/
def CS.bits (o : CS) : Nat :=
  o.c.toNat * 2 ^ 31 + o.s.toNat * 2 ^ 11

/-- The operand fields of shape CV. -/
def CV.ofWord (w : Nat) : CV :=
  ⟨bfield w 31 1, bfield w 19 6⟩

/-- The operand bits of shape CV in place. -/
def CV.bits (o : CV) : Nat :=
  o.c.toNat * 2 ^ 31 + o.v.toNat * 2 ^ 19

/-- The operand fields of shape CSP. -/
def CSP.ofWord (w : Nat) : CSP :=
  ⟨bfield w 31 1, bfield w 11 8, bfield w 5 3⟩

/-- The operand bits of shape CSP in place. -/
def CSP.bits (o : CSP) : Nat :=
  o.c.toNat * 2 ^ 31 + o.s.toNat * 2 ^ 11 + o.p.toNat * 2 ^ 5

/-- The operand fields of shape VR. -/
def VR.ofWord (w : Nat) : VR :=
  ⟨bfield w 31 1, bfield w 19 6, bfield w 13 6, bfield w 7 6, bfield w 6 1, bfield w 5 1⟩

/-- The operand bits of shape VR in place. -/
def VR.bits (o : VR) : Nat :=
  o.c.toNat * 2 ^ 31 + o.d.toNat * 2 ^ 19 + o.a.toNat * 2 ^ 13 + o.b.toNat * 2 ^ 7 + o.la.toNat * 2 ^ 6 + o.lb.toNat * 2 ^ 5

/-- The operand fields of shape VU. -/
def VU.ofWord (w : Nat) : VU :=
  ⟨bfield w 31 1, bfield w 19 6, bfield w 13 6, bfield w 6 1⟩

/-- The operand bits of shape VU in place. -/
def VU.bits (o : VU) : Nat :=
  o.c.toNat * 2 ^ 31 + o.d.toNat * 2 ^ 19 + o.a.toNat * 2 ^ 13 + o.la.toNat * 2 ^ 6

/-- The operand fields of shape CRed. -/
def CRed.ofWord (w : Nat) : CRed :=
  ⟨bfield w 31 1, bfield w 19 6, bfield w 11 8, bfield w 5 1⟩

/-- The operand bits of shape CRed in place. -/
def CRed.bits (o : CRed) : Nat :=
  o.c.toNat * 2 ^ 31 + o.a.toNat * 2 ^ 19 + o.s.toNat * 2 ^ 11 + o.la.toNat * 2 ^ 5

/-- The operand fields of shape CMov. -/
def CMov.ofWord (w : Nat) : CMov :=
  ⟨bfield w 31 1, bfield w 19 6, bfield w 11 1, bfield w 5 6⟩

/-- The operand bits of shape CMov in place. -/
def CMov.bits (o : CMov) : Nat :=
  o.c.toNat * 2 ^ 31 + o.d.toNat * 2 ^ 19 + o.la.toNat * 2 ^ 11 + o.a.toNat * 2 ^ 5

/-- The operand fields of shape CVS. -/
def CVS.ofWord (w : Nat) : CVS :=
  ⟨bfield w 31 1, bfield w 19 6, bfield w 11 8⟩

/-- The operand bits of shape CVS in place. -/
def CVS.bits (o : CVS) : Nat :=
  o.c.toNat * 2 ^ 31 + o.d.toNat * 2 ^ 19 + o.s.toNat * 2 ^ 11

/-- The operand fields of shape CVSK. -/
def CVSK.ofWord (w : Nat) : CVSK :=
  ⟨bfield w 31 1, bfield w 19 6, bfield w 11 8, bfield w 5 6⟩

/-- The operand bits of shape CVSK in place. -/
def CVSK.bits (o : CVSK) : Nat :=
  o.c.toNat * 2 ^ 31 + o.v.toNat * 2 ^ 19 + o.s.toNat * 2 ^ 11 + o.k.toNat * 2 ^ 5

/-- The operand fields of shape CVK. -/
def CVK.ofWord (w : Nat) : CVK :=
  ⟨bfield w 31 1, bfield w 19 6, bfield w 5 6⟩

/-- The operand bits of shape CVK in place. -/
def CVK.bits (o : CVK) : Nat :=
  o.c.toNat * 2 ^ 31 + o.d.toNat * 2 ^ 19 + o.k.toNat * 2 ^ 5

/-- The operand fields of shape CVP. -/
def CVP.ofWord (w : Nat) : CVP :=
  ⟨bfield w 31 1, bfield w 19 6, bfield w 5 3⟩

/-- The operand bits of shape CVP in place. -/
def CVP.bits (o : CVP) : Nat :=
  o.c.toNat * 2 ^ 31 + o.v.toNat * 2 ^ 19 + o.p.toNat * 2 ^ 5

/-- The operand fields of shape CPmov. -/
def CPmov.ofWord (w : Nat) : CPmov :=
  ⟨bfield w 31 1, bfield w 19 6, bfield w 11 1, bfield w 5 3⟩

/-- The operand bits of shape CPmov in place. -/
def CPmov.bits (o : CPmov) : Nat :=
  o.c.toNat * 2 ^ 31 + o.a.toNat * 2 ^ 19 + o.la.toNat * 2 ^ 11 + o.p.toNat * 2 ^ 5

/-- The operand fields of shape P3. -/
def P3.ofWord (w : Nat) : P3 :=
  ⟨bfield w 31 1, bfield w 22 3, bfield w 19 3, bfield w 16 3⟩

/-- The operand bits of shape P3 in place. -/
def P3.bits (o : P3) : Nat :=
  o.c.toNat * 2 ^ 31 + o.d.toNat * 2 ^ 22 + o.a.toNat * 2 ^ 19 + o.b.toNat * 2 ^ 16

/-- The operand fields of shape P2. -/
def P2.ofWord (w : Nat) : P2 :=
  ⟨bfield w 31 1, bfield w 22 3, bfield w 19 3⟩

/-- The operand bits of shape P2 in place. -/
def P2.bits (o : P2) : Nat :=
  o.c.toNat * 2 ^ 31 + o.d.toNat * 2 ^ 22 + o.a.toNat * 2 ^ 19

/-- The operand fields of shape P1. -/
def P1.ofWord (w : Nat) : P1 :=
  ⟨bfield w 31 1, bfield w 22 3⟩

/-- The operand bits of shape P1 in place. -/
def P1.bits (o : P1) : Nat :=
  o.c.toNat * 2 ^ 31 + o.d.toNat * 2 ^ 22

/-- The operand fields of shape VS. -/
def VS.ofWord (w : Nat) : VS :=
  ⟨bfield w 31 1, bfield w 19 6, bfield w 13 6, bfield w 7 6, bfield w 6 1⟩

/-- The operand bits of shape VS in place. -/
def VS.bits (o : VS) : Nat :=
  o.c.toNat * 2 ^ 31 + o.d.toNat * 2 ^ 19 + o.a.toNat * 2 ^ 13 + o.b.toNat * 2 ^ 7 + o.la.toNat * 2 ^ 6

/-- The operand fields of shape VP. -/
def VP.ofWord (w : Nat) : VP :=
  ⟨bfield w 31 1, bfield w 22 3, bfield w 19 3, bfield w 13 6, bfield w 7 6, bfield w 6 1, bfield w 5 1, bfield w 0 5⟩

/-- The operand bits of shape VP in place. -/
def VP.bits (o : VP) : Nat :=
  o.c.toNat * 2 ^ 31 + o.pd.toNat * 2 ^ 22 + o.cond.toNat * 2 ^ 19 + o.a.toNat * 2 ^ 13 + o.b.toNat * 2 ^ 7 + o.la.toNat * 2 ^ 6 + o.lb.toNat * 2 ^ 5 + o.ty.toNat

/-- The operand fields of shape VPS. -/
def VPS.ofWord (w : Nat) : VPS :=
  ⟨bfield w 31 1, bfield w 22 3, bfield w 19 3, bfield w 13 6, bfield w 7 6, bfield w 6 1, bfield w 0 5⟩

/-- The operand bits of shape VPS in place. -/
def VPS.bits (o : VPS) : Nat :=
  o.c.toNat * 2 ^ 31 + o.pd.toNat * 2 ^ 22 + o.cond.toNat * 2 ^ 19 + o.a.toNat * 2 ^ 13 + o.b.toNat * 2 ^ 7 + o.la.toNat * 2 ^ 6 + o.ty.toNat

/-- The operand fields of shape VSel. -/
def VSel.ofWord (w : Nat) : VSel :=
  ⟨bfield w 31 1, bfield w 19 6, bfield w 13 6, bfield w 7 6, bfield w 6 1, bfield w 5 1, bfield w 2 3, bfield w 1 1⟩

/-- The operand bits of shape VSel in place. -/
def VSel.bits (o : VSel) : Nat :=
  o.c.toNat * 2 ^ 31 + o.d.toNat * 2 ^ 19 + o.a.toNat * 2 ^ 13 + o.b.toNat * 2 ^ 7 + o.la.toNat * 2 ^ 6 + o.lb.toNat * 2 ^ 5 + o.p.toNat * 2 ^ 2 + o.n.toNat * 2 ^ 1

/-- The operand fields of shape VX. -/
def VX.ofWord (w : Nat) : VX :=
  ⟨bfield w 31 1, bfield w 19 6, bfield w 13 6, bfield w 9 4, bfield w 5 4, bfield w 2 3, bfield w 1 1, bfield w 0 1⟩

/-- The operand bits of shape VX in place. -/
def VX.bits (o : VX) : Nat :=
  o.c.toNat * 2 ^ 31 + o.d.toNat * 2 ^ 19 + o.a.toNat * 2 ^ 13 + o.dt.toNat * 2 ^ 9 + o.st.toNat * 2 ^ 5 + o.rm.toNat * 2 ^ 2 + o.sat.toNat * 2 ^ 1 + o.la.toNat

/-- The operand fields of shape VRnd. -/
def VRnd.ofWord (w : Nat) : VRnd :=
  ⟨bfield w 31 1, bfield w 19 6, bfield w 13 6, bfield w 2 3, bfield w 1 1, bfield w 0 1⟩

/-- The operand bits of shape VRnd in place. -/
def VRnd.bits (o : VRnd) : Nat :=
  o.c.toNat * 2 ^ 31 + o.d.toNat * 2 ^ 19 + o.a.toNat * 2 ^ 13 + o.rm.toNat * 2 ^ 2 + o.sat.toNat * 2 ^ 1 + o.la.toNat

/-- The operand fields of shape SR. -/
def SR.ofWord (w : Nat) : SR :=
  ⟨bfield w 31 1, bfield w 17 8, bfield w 9 8, bfield w 3 6⟩

/-- The operand bits of shape SR in place. -/
def SR.bits (o : SR) : Nat :=
  o.c.toNat * 2 ^ 31 + o.d.toNat * 2 ^ 17 + o.a.toNat * 2 ^ 9 + o.b.toNat * 2 ^ 3

/-- The operand fields of shape SC. -/
def SC.ofWord (w : Nat) : SC :=
  ⟨bfield w 31 1, bfield w 23 2, bfield w 20 3, bfield w 18 2, bfield w 9 8, bfield w 3 6⟩

/-- The operand bits of shape SC in place. -/
def SC.bits (o : SC) : Nat :=
  o.c.toNat * 2 ^ 31 + o.q.toNat * 2 ^ 23 + o.cond.toNat * 2 ^ 20 + o.ty.toNat * 2 ^ 18 + o.a.toNat * 2 ^ 9 + o.b.toNat * 2 ^ 3

/-- The operand fields of shape SB. -/
def SB.ofWord (w : Nat) : SB :=
  ⟨bfield w 31 1, bfield w 23 2, bfield w 22 1, bfield w 0 22⟩

/-- The operand bits of shape SB in place. -/
def SB.bits (o : SB) : Nat :=
  o.c.toNat * 2 ^ 31 + o.q.toNat * 2 ^ 23 + o.n.toNat * 2 ^ 22 + o.off.toNat

/-- The operand fields of shape SXFs. -/
def SXFs.ofWord (w : Nat) : SXFs :=
  ⟨bfield w 31 1, bfield w 17 8, bfield w 9 8⟩

/-- The operand bits of shape SXFs in place. -/
def SXFs.bits (o : SXFs) : Nat :=
  o.c.toNat * 2 ^ 31 + o.s.toNat * 2 ^ 17 + o.r.toNat * 2 ^ 9

/-- The operand fields of shape SXTs. -/
def SXTs.ofWord (w : Nat) : SXTs :=
  ⟨bfield w 31 1, bfield w 17 8, bfield w 9 8⟩

/-- The operand bits of shape SXTs in place. -/
def SXTs.bits (o : SXTs) : Nat :=
  o.c.toNat * 2 ^ 31 + o.r.toNat * 2 ^ 17 + o.s.toNat * 2 ^ 9

/-- The operand fields of shape E1. -/
def E1.ofWord (w : Nat) : E1 :=
  ⟨bfield w 31 1, bfield w 17 8⟩

/-- The operand bits of shape E1 in place. -/
def E1.bits (o : E1) : Nat :=
  o.c.toNat * 2 ^ 31 + o.s.toNat * 2 ^ 17

/-- The operand fields of shape SXN. -/
def SXN.ofWord (w : Nat) : SXN :=
  ⟨bfield w 31 1, bfield w 17 8⟩

/-- The operand bits of shape SXN in place. -/
def SXN.bits (o : SXN) : Nat :=
  o.c.toNat * 2 ^ 31 + o.n.toNat * 2 ^ 17

/-- The operand fields of shape SXE. -/
def SXE.ofWord (w : Nat) : SXE :=
  ⟨bfield w 31 1, bfield w 5 4⟩

/-- The operand bits of shape SXE in place. -/
def SXE.bits (o : SXE) : Nat :=
  o.c.toNat * 2 ^ 31 + o.e.toNat * 2 ^ 5

/-- The operand fields of shape ML. -/
def ML.ofWord (w : Nat) : ML :=
  ⟨bfield w 31 1, bfield w 19 6, bfield w 13 6, bfield w 5 8, bfield w 2 3, bfield w 1 1, bfield w 0 1⟩

/-- The operand bits of shape ML in place. -/
def ML.bits (o : ML) : Nat :=
  o.c.toNat * 2 ^ 31 + o.x.toNat * 2 ^ 19 + o.a.toNat * 2 ^ 13 + o.b.toNat * 2 ^ 5 + o.sz.toNat * 2 ^ 2 + o.sx.toNat * 2 ^ 1 + o.la.toNat

/-- The operand fields of shape MS. -/
def MS.ofWord (w : Nat) : MS :=
  ⟨bfield w 31 1, bfield w 19 6, bfield w 13 6, bfield w 5 8, bfield w 2 3, bfield w 0 1⟩

/-- The operand bits of shape MS in place. -/
def MS.bits (o : MS) : Nat :=
  o.c.toNat * 2 ^ 31 + o.x.toNat * 2 ^ 19 + o.a.toNat * 2 ^ 13 + o.b.toNat * 2 ^ 5 + o.sz.toNat * 2 ^ 2 + o.la.toNat

/-- The operand fields of shape MA. -/
def MA.ofWord (w : Nat) : MA :=
  ⟨bfield w 31 1, bfield w 19 6, bfield w 13 6, bfield w 5 8, bfield w 1 4, bfield w 0 1⟩

/-- The operand bits of shape MA in place. -/
def MA.bits (o : MA) : Nat :=
  o.c.toNat * 2 ^ 31 + o.x.toNat * 2 ^ 19 + o.a.toNat * 2 ^ 13 + o.b.toNat * 2 ^ 5 + o.op.toNat * 2 ^ 1 + o.la.toNat

/-- The operand fields of shape MD. -/
def MD.ofWord (w : Nat) : MD :=
  ⟨bfield w 31 1, bfield w 19 6, bfield w 13 6, bfield w 5 8, bfield w 0 1⟩

/-- The operand bits of shape MD in place. -/
def MD.bits (o : MD) : Nat :=
  o.c.toNat * 2 ^ 31 + o.x.toNat * 2 ^ 19 + o.a.toNat * 2 ^ 13 + o.b.toNat * 2 ^ 5 + o.la.toNat

/-- The operand fields of shape CK. -/
def CK.ofWord (w : Nat) : CK :=
  ⟨bfield w 31 1, bfield w 5 6⟩

/-- The operand bits of shape CK in place. -/
def CK.bits (o : CK) : Nat :=
  o.c.toNat * 2 ^ 31 + o.k.toNat * 2 ^ 5

/-- The operand fields of shape CWait. -/
def CWait.ofWord (w : Nat) : CWait :=
  ⟨bfield w 31 1, bfield w 11 6, bfield w 5 6⟩

/-- The operand bits of shape CWait in place. -/
def CWait.bits (o : CWait) : Nat :=
  o.c.toNat * 2 ^ 31 + o.n.toNat * 2 ^ 11 + o.k.toNat * 2 ^ 5

/-- The operand fields of shape CPf. -/
def CPf.ofWord (w : Nat) : CPf :=
  ⟨bfield w 31 1, bfield w 19 6, bfield w 11 8, bfield w 5 2⟩

/-- The operand bits of shape CPf in place. -/
def CPf.bits (o : CPf) : Nat :=
  o.c.toNat * 2 ^ 31 + o.v.toNat * 2 ^ 19 + o.s.toNat * 2 ^ 11 + o.l.toNat * 2 ^ 5

/-- The operand fields of shape CMwait. -/
def CMwait.ofWord (w : Nat) : CMwait :=
  ⟨bfield w 31 1, bfield w 11 8, bfield w 7 3, bfield w 5 2⟩

/-- The operand bits of shape CMwait in place. -/
def CMwait.bits (o : CMwait) : Nat :=
  o.c.toNat * 2 ^ 31 + o.s.toNat * 2 ^ 11 + o.scope.toNat * 2 ^ 7 + o.cond.toNat * 2 ^ 5

/-- The operand fields of shape CBmode. -/
def CBmode.ofWord (w : Nat) : CBmode :=
  ⟨bfield w 31 1, bfield w 11 8, bfield w 5 2⟩

/-- The operand bits of shape CBmode in place. -/
def CBmode.bits (o : CBmode) : Nat :=
  o.c.toNat * 2 ^ 31 + o.s.toNat * 2 ^ 11 + o.m.toNat * 2 ^ 5

/-- The operand fields of shape CRing. -/
def CRing.ofWord (w : Nat) : CRing :=
  ⟨bfield w 31 1, bfield w 11 8, bfield w 5 5⟩

/-- The operand bits of shape CRing in place. -/
def CRing.bits (o : CRing) : Nat :=
  o.c.toNat * 2 ^ 31 + o.s.toNat * 2 ^ 11 + o.r.toNat * 2 ^ 5

/-- The operand fields of shape CBarS. -/
def CBarS.ofWord (w : Nat) : CBarS :=
  ⟨bfield w 31 1, bfield w 11 8, bfield w 5 4⟩

/-- The operand bits of shape CBarS in place. -/
def CBarS.bits (o : CBarS) : Nat :=
  o.c.toNat * 2 ^ 31 + o.s.toNat * 2 ^ 11 + o.b.toNat * 2 ^ 5

/-- The operand fields of shape CBar. -/
def CBar.ofWord (w : Nat) : CBar :=
  ⟨bfield w 31 1, bfield w 5 4⟩

/-- The operand bits of shape CBar in place. -/
def CBar.bits (o : CBar) : Nat :=
  o.c.toNat * 2 ^ 31 + o.b.toNat * 2 ^ 5

/-- The operand fields of shape CBarP. -/
def CBarP.ofWord (w : Nat) : CBarP :=
  ⟨bfield w 31 1, bfield w 9 1, bfield w 5 4⟩

/-- The operand bits of shape CBarP in place. -/
def CBarP.bits (o : CBarP) : Nat :=
  o.c.toNat * 2 ^ 31 + o.p.toNat * 2 ^ 9 + o.b.toNat * 2 ^ 5

/-- The operand fields of shape CBarPS. -/
def CBarPS.ofWord (w : Nat) : CBarPS :=
  ⟨bfield w 31 1, bfield w 11 8, bfield w 9 1, bfield w 5 4⟩

/-- The operand bits of shape CBarPS in place. -/
def CBarPS.bits (o : CBarPS) : Nat :=
  o.c.toNat * 2 ^ 31 + o.s.toNat * 2 ^ 11 + o.p.toNat * 2 ^ 9 + o.b.toNat * 2 ^ 5

/-- The operand fields of shape CBart. -/
def CBart.ofWord (w : Nat) : CBart :=
  ⟨bfield w 31 1, bfield w 11 3, bfield w 9 1, bfield w 5 4⟩

/-- The operand bits of shape CBart in place. -/
def CBart.bits (o : CBart) : Nat :=
  o.c.toNat * 2 ^ 31 + o.q.toNat * 2 ^ 11 + o.p.toNat * 2 ^ 9 + o.b.toNat * 2 ^ 5

/-- The operand fields of shape E3. -/
def E3.ofWord (w : Nat) : E3 :=
  ⟨bfield w 31 1, bfield w 17 8, bfield w 11 6, bfield w 5 6⟩

/-- The operand bits of shape E3 in place. -/
def E3.bits (o : E3) : Nat :=
  o.c.toNat * 2 ^ 31 + o.s.toNat * 2 ^ 17 + o.a.toNat * 2 ^ 11 + o.b.toNat * 2 ^ 5

/-- The operand fields of shape EJ. -/
def EJ.ofWord (w : Nat) : EJ :=
  ⟨bfield w 31 1, bfield w 17 8, bfield w 5 1⟩

/-- The operand bits of shape EJ in place. -/
def EJ.bits (o : EJ) : Nat :=
  o.c.toNat * 2 ^ 31 + o.s.toNat * 2 ^ 17 + o.j.toNat * 2 ^ 5

/-- The operand fields of shape EMmul. -/
def EMmul.ofWord (w : Nat) : EMmul :=
  ⟨bfield w 31 1, bfield w 17 8, bfield w 8 1, bfield w 7 1, bfield w 5 2⟩

/-- The operand bits of shape EMmul in place. -/
def EMmul.bits (o : EMmul) : Nat :=
  o.c.toNat * 2 ^ 31 + o.s.toNat * 2 ^ 17 + o.z.toNat * 2 ^ 8 + o.j.toNat * 2 ^ 7 + o.n.toNat * 2 ^ 5

/-- The operand fields of shape EMmulR. -/
def EMmulR.ofWord (w : Nat) : EMmulR :=
  ⟨bfield w 31 1, bfield w 11 6, bfield w 8 1, bfield w 7 1, bfield w 5 2⟩

/-- The operand bits of shape EMmulR in place. -/
def EMmulR.bits (o : EMmulR) : Nat :=
  o.c.toNat * 2 ^ 31 + o.d.toNat * 2 ^ 11 + o.z.toNat * 2 ^ 8 + o.j.toNat * 2 ^ 7 + o.n.toNat * 2 ^ 5

/-- The operand fields of shape EDrainR. -/
def EDrainR.ofWord (w : Nat) : EDrainR :=
  ⟨bfield w 31 1, bfield w 17 8, bfield w 11 6, bfield w 10 1, bfield w 5 2⟩

/-- The operand bits of shape EDrainR in place. -/
def EDrainR.bits (o : EDrainR) : Nat :=
  o.c.toNat * 2 ^ 31 + o.s.toNat * 2 ^ 17 + o.d.toNat * 2 ^ 11 + o.w.toNat * 2 ^ 10 + o.n.toNat * 2 ^ 5

/-- The operand fields of shape EDrain. -/
def EDrain.ofWord (w : Nat) : EDrain :=
  ⟨bfield w 31 1, bfield w 17 8, bfield w 10 1, bfield w 5 2⟩

/-- The operand bits of shape EDrain in place. -/
def EDrain.bits (o : EDrain) : Nat :=
  o.c.toNat * 2 ^ 31 + o.s.toNat * 2 ^ 17 + o.w.toNat * 2 ^ 10 + o.n.toNat * 2 ^ 5

/-- The operand fields of shape EMask. -/
def EMask.ofWord (w : Nat) : EMask :=
  ⟨bfield w 31 1, bfield w 5 4⟩

/-- The operand bits of shape EMask in place. -/
def EMask.bits (o : EMask) : Nat :=
  o.c.toNat * 2 ^ 31 + o.m.toNat * 2 ^ 5

/-- The operand fields of shape E2. -/
def E2.ofWord (w : Nat) : E2 :=
  ⟨bfield w 31 1, bfield w 17 8, bfield w 11 6⟩

/-- The operand bits of shape E2 in place. -/
def E2.bits (o : E2) : Nat :=
  o.c.toNat * 2 ^ 31 + o.s.toNat * 2 ^ 17 + o.p.toNat * 2 ^ 11

/-- The operand fields of shape EV. -/
def EV.ofWord (w : Nat) : EV :=
  ⟨bfield w 31 1, bfield w 11 6⟩

/-- The operand bits of shape EV in place. -/
def EV.bits (o : EV) : Nat :=
  o.c.toNat * 2 ^ 31 + o.d.toNat * 2 ^ 11

/-- The operand fields of shape LitW. -/
def LitW.ofWord (w : Nat) : LitW :=
  ⟨bfield w 31 1, bfield w 0 25⟩

/-- The operand bits of shape LitW in place. -/
def LitW.bits (o : LitW) : Nat :=
  o.c.toNat * 2 ^ 31 + o.payload.toNat

/-- The operand fields of shape UAK. -/
def UAK.ofWord (w : Nat) : UAK :=
  ⟨bfield w 19 4, bfield w 0 2⟩

/-- The operand bits of shape UAK in place. -/
def UAK.bits (o : UAK) : Nat :=
  o.a.toNat * 2 ^ 19 + o.k.toNat

/-- The operand fields of shape UDAF. -/
def UDAF.ofWord (w : Nat) : UDAF :=
  ⟨bfield w 23 4, bfield w 19 4, bfield w 0 4⟩

/-- The operand bits of shape UDAF in place. -/
def UDAF.bits (o : UDAF) : Nat :=
  o.d.toNat * 2 ^ 23 + o.a.toNat * 2 ^ 19 + o.f.toNat

/-- The operand fields of shape UDA. -/
def UDA.ofWord (w : Nat) : UDA :=
  ⟨bfield w 23 4, bfield w 19 4⟩

/-- The operand bits of shape UDA in place. -/
def UDA.bits (o : UDA) : Nat :=
  o.d.toNat * 2 ^ 23 + o.a.toNat * 2 ^ 19

/-- The operand fields of shape USel. -/
def USel.ofWord (w : Nat) : USel :=
  ⟨bfield w 23 4, bfield w 19 4, bfield w 15 4, bfield w 13 2, bfield w 0 13⟩

/-- The operand bits of shape USel in place. -/
def USel.bits (o : USel) : Nat :=
  o.d.toNat * 2 ^ 23 + o.a.toNat * 2 ^ 19 + o.b.toNat * 2 ^ 15 + o.m.toNat * 2 ^ 13 + o.v.toNat

/-- The operand fields of shape UA. -/
def UA.ofWord (w : Nat) : UA :=
  ⟨bfield w 19 4⟩

/-- The operand bits of shape UA in place. -/
def UA.bits (o : UA) : Nat :=
  o.a.toNat * 2 ^ 19

/-- The operand fields of shape UD. -/
def UD.ofWord (w : Nat) : UD :=
  ⟨bfield w 23 4⟩

/-- The operand bits of shape UD in place. -/
def UD.bits (o : UD) : Nat :=
  o.d.toNat * 2 ^ 23

/-- The operand fields of shape UBr. -/
def UBr.ofWord (w : Nat) : UBr :=
  ⟨bfield w 23 4, bfield w 19 4, bfield w 15 4, bfield w 0 12⟩

/-- The operand bits of shape UBr in place. -/
def UBr.bits (o : UBr) : Nat :=
  o.d.toNat * 2 ^ 23 + o.a.toNat * 2 ^ 19 + o.b.toNat * 2 ^ 15 + o.t.toNat

/-- The operand fields of shape ULoop. -/
def ULoop.ofWord (w : Nat) : ULoop :=
  ⟨bfield w 19 4, bfield w 0 12⟩

/-- The operand bits of shape ULoop in place. -/
def ULoop.bits (o : ULoop) : Nat :=
  o.a.toNat * 2 ^ 19 + o.t.toNat

/-- The operand fields of shape USetb. -/
def USetb.ofWord (w : Nat) : USetb :=
  ⟨bfield w 19 4, bfield w 2 2, bfield w 0 2⟩

/-- The operand bits of shape USetb in place. -/
def USetb.bits (o : USetb) : Nat :=
  o.a.toNat * 2 ^ 19 + o.k.toNat * 2 ^ 2 + o.m.toNat

/-- The operand fields of shape UStb. -/
def UStb.ofWord (w : Nat) : UStb :=
  ⟨bfield w 19 4, bfield w 0 1⟩

/-- The operand bits of shape UStb in place. -/
def UStb.bits (o : UStb) : Nat :=
  o.a.toNat * 2 ^ 19 + o.m.toNat

/-- The operand fields of shape UYield. -/
def UYield.ofWord (w : Nat) : UYield :=
  ⟨bfield w 0 8⟩

/-- The operand bits of shape UYield in place. -/
def UYield.bits (o : UYield) : Nat :=
  o.r.toNat

/-- Major 0x03 (FLOW), by its function number (R44, R45). -/
noncomputable def decodeFlow (w : Nat) : Except DecodeFault Instr :=
  match fld w 4 0 with
  | 0 => if fld w 24 5 == 0 then .ok (.ret (C0.ofWord w))
    else .error .illegalOperand
  | 1 => if fld w 18 8 == 1 then .ok (.calliV (CCallV.ofWord w))
    else if fld w 24 19 == 0 && fld w 10 8 == 0 then .ok (.calliS (CCallS.ofWord w))
    else .error .illegalOperand
  | 2 => if fld w 18 5 == 1 then .ok (.jmpV (CV.ofWord w))
    else if fld w 24 19 == 0 && fld w 10 5 == 0 then .ok (.jmpS (CS.ofWord w))
    else .error .illegalOperand
  | 3 => if fld w 24 5 == 0 then .ok (.exitW (C0.ofWord w))
    else if fld w 24 19 == 0 && fld w 10 5 == 1 then .ok (.exitS (CS.ofWord w))
    else .error .illegalOperand
  | 4 => if fld w 24 5 == 0 then .ok (.yield (C0.ofWord w))
    else .error .illegalOperand
  | 5 => if fld w 24 19 == 0 && fld w 10 8 == 0 then .ok (.elect (CSP.ofWord w))
    else .error .illegalOperand
  | 6 => if fld w 24 5 == 0 then .ok (.sync (C0.ofWord w))
    else .error .illegalOperand
  | 7 => if fld w 24 19 == 0 && fld w 10 5 == 0 then .ok (.syncm (CS.ofWord w))
    else .error .illegalOperand
  | 8 => if fld w 24 5 == 0 then .ok (.nop (C0.ofWord w))
    else .error .illegalOperand
  | 9 => if fld w 24 5 == 0 then .ok (.wflush (C0.ofWord w))
    else .error .illegalOperand
  | 10 => if fld w 24 19 == 0 && fld w 10 5 == 0 then .ok (.quota (CS.ofWord w))
    else .error .illegalOperand
  | _ => .error .illegalFunction

/-- Major 0x04 (XLANE), by its function number (R44, R45). -/
noncomputable def decodeXlane (w : Nat) : Except DecodeFault Instr :=
  match fld w 4 0 with
  | 0 => .ok (.shfl (VR.ofWord w))
  | 1 => .ok (.shflx (VR.ofWord w))
  | 2 => .ok (.shflup (VR.ofWord w))
  | 3 => .ok (.shfldn (VR.ofWord w))
  | 4 => if fld w 12 7 == 0 && fld w 5 5 == 0 then .ok (.qswapH (VU.ofWord w))
    else .error .illegalOperand
  | 5 => if fld w 12 7 == 0 && fld w 5 5 == 0 then .ok (.qswapV (VU.ofWord w))
    else .error .illegalOperand
  | 6 => if fld w 12 7 == 0 && fld w 5 5 == 0 then .ok (.qswapD (VU.ofWord w))
    else .error .illegalOperand
  | 7 => .ok (.qbcast (VR.ofWord w))
  | 8 => if fld w 12 7 == 0 && fld w 5 5 == 0 then .ok (.scanAddI32 (VU.ofWord w))
    else .error .illegalOperand
  | 9 => if fld w 12 7 == 0 && fld w 5 5 == 0 then .ok (.scanAddF32 (VU.ofWord w))
    else .error .illegalOperand
  | 10 => if fld w 12 7 == 0 && fld w 5 5 == 0 then .ok (.scanMaxI32 (VU.ofWord w))
    else .error .illegalOperand
  | 11 => if fld w 12 7 == 0 && fld w 5 5 == 0 then .ok (.scanMinI32 (VU.ofWord w))
    else .error .illegalOperand
  | 12 => if fld w 12 7 == 0 && fld w 5 5 == 0 then .ok (.xscanAddI32 (VU.ofWord w))
    else .error .illegalOperand
  | _ => .error .illegalFunction

/-- Major 0x05 (WRED), by its function number (R44, R45). -/
noncomputable def decodeWred (w : Nat) : Except DecodeFault Instr :=
  match fld w 4 0 with
  | 0 => if fld w 24 19 == 0 && fld w 10 8 == 0 then .ok (.voteAny (CSP.ofWord w))
    else .error .illegalOperand
  | 1 => if fld w 24 19 == 0 && fld w 10 8 == 0 then .ok (.voteAll (CSP.ofWord w))
    else .error .illegalOperand
  | 2 => if fld w 24 19 == 0 && fld w 10 8 == 0 then .ok (.ballot (CSP.ofWord w))
    else .error .illegalOperand
  | 3 => if fld w 10 6 == 0 then .ok (.redwAddI32 (CRed.ofWord w))
    else .error .illegalOperand
  | 4 => if fld w 10 6 == 0 then .ok (.redwMinI32 (CRed.ofWord w))
    else .error .illegalOperand
  | 5 => if fld w 10 6 == 0 then .ok (.redwMaxI32 (CRed.ofWord w))
    else .error .illegalOperand
  | 6 => if fld w 10 6 == 0 then .ok (.redwMinN32 (CRed.ofWord w))
    else .error .illegalOperand
  | 7 => if fld w 10 6 == 0 then .ok (.redwMaxN32 (CRed.ofWord w))
    else .error .illegalOperand
  | 8 => if fld w 10 6 == 0 then .ok (.redwAnd (CRed.ofWord w))
    else .error .illegalOperand
  | 9 => if fld w 10 6 == 0 then .ok (.redwOr (CRed.ofWord w))
    else .error .illegalOperand
  | 10 => if fld w 10 6 == 0 then .ok (.redwXor (CRed.ofWord w))
    else .error .illegalOperand
  | 11 => if fld w 10 6 == 0 then .ok (.redwAddF32 (CRed.ofWord w))
    else .error .illegalOperand
  | 12 => if fld w 10 6 == 0 then .ok (.redwMinF32 (CRed.ofWord w))
    else .error .illegalOperand
  | 13 => if fld w 10 6 == 0 then .ok (.redwMaxF32 (CRed.ofWord w))
    else .error .illegalOperand
  | _ => .error .illegalFunction

/-- Major 0x06 (MOV), by its function number (R44, R45). -/
noncomputable def decodeMov (w : Nat) : Except DecodeFault Instr :=
  match fld w 4 0 with
  | 0 => if fld w 18 12 == 0 then .ok (.mov (CMov.ofWord w))
    else .error .illegalOperand
  | 1 => if fld w 10 5 == 0 then .ok (.movs (CVS.ofWord w))
    else .error .illegalOperand
  | 2 => .ok (.rdl (CVSK.ofWord w))
  | 3 => .ok (.wrl (CVSK.ofWord w))
  | 4 => if fld w 18 11 == 0 then .ok (.lid (CVK.ofWord w))
    else .error .illegalOperand
  | 5 => if fld w 18 8 == 0 then .ok (.movp (CVP.ofWord w))
    else .error .illegalOperand
  | 6 => if fld w 18 12 == 0 && fld w 10 8 == 0 then .ok (.pmov (CPmov.ofWord w))
    else .error .illegalOperand
  | 7 => if fld w 18 5 == 0 then .ok (.movi (CV.ofWord w))
    else .error .illegalOperand
  | _ => .error .illegalFunction

/-- Major 0x07 (PLOG), by its function number (R44, R45). -/
noncomputable def decodePlog (w : Nat) : Except DecodeFault Instr :=
  match fld w 4 0 with
  | 0 => if fld w 15 5 == 0 then .ok (.pand (P3.ofWord w))
    else .error .illegalOperand
  | 1 => if fld w 15 5 == 0 then .ok (.por (P3.ofWord w))
    else .error .illegalOperand
  | 2 => if fld w 15 5 == 0 then .ok (.pxor (P3.ofWord w))
    else .error .illegalOperand
  | 3 => if fld w 15 5 == 0 then .ok (.pandn (P3.ofWord w))
    else .error .illegalOperand
  | 4 => if fld w 18 5 == 0 then .ok (.pnot (P2.ofWord w))
    else .error .illegalOperand
  | 5 => if fld w 21 5 == 0 then .ok (.pset (P1.ofWord w))
    else .error .illegalOperand
  | 6 => if fld w 21 5 == 0 then .ok (.pclr (P1.ofWord w))
    else .error .illegalOperand
  | _ => .error .illegalFunction

/-- Major 0x08 (IALU), by its function number (R44, R45). -/
noncomputable def decodeIalu (w : Nat) : Except DecodeFault Instr :=
  match fld w 4 0 with
  | 0 => .ok (.addI32 (VR.ofWord w))
  | 1 => .ok (.subI32 (VR.ofWord w))
  | 2 => .ok (.mulI32 (VR.ofWord w))
  | 3 => .ok (.mulhI32 (VR.ofWord w))
  | 4 => .ok (.mulhN32 (VR.ofWord w))
  | 5 => .ok (.mulwI32 (VR.ofWord w))
  | 6 => .ok (.mulwN32 (VR.ofWord w))
  | 7 => .ok (.madI32 (VR.ofWord w))
  | 8 => .ok (.minI32 (VR.ofWord w))
  | 9 => .ok (.maxI32 (VR.ofWord w))
  | 10 => .ok (.minN32 (VR.ofWord w))
  | 11 => .ok (.maxN32 (VR.ofWord w))
  | 12 => if fld w 12 7 == 0 && fld w 5 5 == 0 then .ok (.absI32 (VU.ofWord w))
    else .error .illegalOperand
  | 13 => .ok (.addsI32 (VR.ofWord w))
  | 14 => .ok (.subsI32 (VR.ofWord w))
  | 15 => .ok (.addsN32 (VR.ofWord w))
  | 16 => .ok (.subsN32 (VR.ofWord w))
  | 17 => .ok (.addI64 (VR.ofWord w))
  | 18 => .ok (.subI64 (VR.ofWord w))
  | 19 => .ok (.addI16x2 (VR.ofWord w))
  | 20 => .ok (.subI16x2 (VR.ofWord w))
  | 21 => .ok (.dp4I8 (VR.ofWord w))
  | 22 => .ok (.dp4N8 (VR.ofWord w))
  | 23 => .ok (.vAnd (VR.ofWord w))
  | 24 => .ok (.vOr (VR.ofWord w))
  | 25 => .ok (.vXor (VR.ofWord w))
  | 26 => .ok (.vAndn (VR.ofWord w))
  | 27 => .ok (.shl (VR.ofWord w))
  | 28 => .ok (.shr (VR.ofWord w))
  | 29 => .ok (.sar (VR.ofWord w))
  | 30 => .ok (.rotl (VR.ofWord w))
  | _ => .error .illegalFunction

/-- Major 0x09 (IALUS), by its function number (R44, R45). -/
noncomputable def decodeIaluS (w : Nat) : Except DecodeFault Instr :=
  match fld w 4 0 with
  | 0 => if fld w 5 5 == 0 then .ok (.addI32S (VS.ofWord w))
    else .error .illegalOperand
  | 1 => if fld w 5 5 == 0 then .ok (.subI32S (VS.ofWord w))
    else .error .illegalOperand
  | 2 => if fld w 5 5 == 0 then .ok (.mulI32S (VS.ofWord w))
    else .error .illegalOperand
  | 3 => if fld w 5 5 == 0 then .ok (.mulhI32S (VS.ofWord w))
    else .error .illegalOperand
  | 4 => if fld w 5 5 == 0 then .ok (.mulhN32S (VS.ofWord w))
    else .error .illegalOperand
  | 5 => if fld w 5 5 == 0 then .ok (.mulwI32S (VS.ofWord w))
    else .error .illegalOperand
  | 6 => if fld w 5 5 == 0 then .ok (.mulwN32S (VS.ofWord w))
    else .error .illegalOperand
  | 7 => if fld w 5 5 == 0 then .ok (.madI32S (VS.ofWord w))
    else .error .illegalOperand
  | 8 => if fld w 5 5 == 0 then .ok (.minI32S (VS.ofWord w))
    else .error .illegalOperand
  | 9 => if fld w 5 5 == 0 then .ok (.maxI32S (VS.ofWord w))
    else .error .illegalOperand
  | 10 => if fld w 5 5 == 0 then .ok (.minN32S (VS.ofWord w))
    else .error .illegalOperand
  | 11 => if fld w 5 5 == 0 then .ok (.maxN32S (VS.ofWord w))
    else .error .illegalOperand
  | 12 => if fld w 12 7 == 0 && fld w 5 5 == 0 then .ok (.absI32S (VU.ofWord w))
    else .error .illegalOperand
  | 13 => if fld w 5 5 == 0 then .ok (.addsI32S (VS.ofWord w))
    else .error .illegalOperand
  | 14 => if fld w 5 5 == 0 then .ok (.subsI32S (VS.ofWord w))
    else .error .illegalOperand
  | 15 => if fld w 5 5 == 0 then .ok (.addsN32S (VS.ofWord w))
    else .error .illegalOperand
  | 16 => if fld w 5 5 == 0 then .ok (.subsN32S (VS.ofWord w))
    else .error .illegalOperand
  | 17 => if fld w 5 5 == 0 then .ok (.addI64S (VS.ofWord w))
    else .error .illegalOperand
  | 18 => if fld w 5 5 == 0 then .ok (.subI64S (VS.ofWord w))
    else .error .illegalOperand
  | 19 => if fld w 5 5 == 0 then .ok (.addI16x2S (VS.ofWord w))
    else .error .illegalOperand
  | 20 => if fld w 5 5 == 0 then .ok (.subI16x2S (VS.ofWord w))
    else .error .illegalOperand
  | 21 => if fld w 5 5 == 0 then .ok (.dp4I8S (VS.ofWord w))
    else .error .illegalOperand
  | 22 => if fld w 5 5 == 0 then .ok (.dp4N8S (VS.ofWord w))
    else .error .illegalOperand
  | 23 => if fld w 5 5 == 0 then .ok (.vAndS (VS.ofWord w))
    else .error .illegalOperand
  | 24 => if fld w 5 5 == 0 then .ok (.vOrS (VS.ofWord w))
    else .error .illegalOperand
  | 25 => if fld w 5 5 == 0 then .ok (.vXorS (VS.ofWord w))
    else .error .illegalOperand
  | 26 => if fld w 5 5 == 0 then .ok (.vAndnS (VS.ofWord w))
    else .error .illegalOperand
  | 27 => if fld w 5 5 == 0 then .ok (.shlS (VS.ofWord w))
    else .error .illegalOperand
  | 28 => if fld w 5 5 == 0 then .ok (.shrS (VS.ofWord w))
    else .error .illegalOperand
  | 29 => if fld w 5 5 == 0 then .ok (.sarS (VS.ofWord w))
    else .error .illegalOperand
  | 30 => if fld w 5 5 == 0 then .ok (.rotlS (VS.ofWord w))
    else .error .illegalOperand
  | _ => .error .illegalFunction

/-- Major 0x0A (BITF), by its function number (R44, R45). -/
noncomputable def decodeBitf (w : Nat) : Except DecodeFault Instr :=
  match fld w 4 0 with
  | 0 => .ok (.bfxI32 (VR.ofWord w))
  | 1 => .ok (.bfxN32 (VR.ofWord w))
  | 2 => .ok (.bfi (VR.ofWord w))
  | 3 => .ok (.perm (VR.ofWord w))
  | 4 => if fld w 12 7 == 0 && fld w 5 5 == 0 then .ok (.popc (VU.ofWord w))
    else .error .illegalOperand
  | 5 => if fld w 12 7 == 0 && fld w 5 5 == 0 then .ok (.clz (VU.ofWord w))
    else .error .illegalOperand
  | 6 => if fld w 12 7 == 0 && fld w 5 5 == 0 then .ok (.ctz (VU.ofWord w))
    else .error .illegalOperand
  | 7 => if fld w 12 7 == 0 && fld w 5 5 == 0 then .ok (.brev (VU.ofWord w))
    else .error .illegalOperand
  | 8 => .ok (.fshl (VR.ofWord w))
  | 9 => .ok (.fshr (VR.ofWord w))
  | 10 => if fld w 12 7 == 0 && fld w 5 5 == 0 then .ok (.sext8 (VU.ofWord w))
    else .error .illegalOperand
  | 11 => if fld w 12 7 == 0 && fld w 5 5 == 0 then .ok (.sext16 (VU.ofWord w))
    else .error .illegalOperand
  | _ => .error .illegalFunction

/-- Major 0x0E (FALU), by its function number (R44, R45). -/
noncomputable def decodeFalu (w : Nat) : Except DecodeFault Instr :=
  match fld w 4 0 with
  | 0 => .ok (.faddF32 (VR.ofWord w))
  | 1 => .ok (.fsubF32 (VR.ofWord w))
  | 2 => .ok (.fmulF32 (VR.ofWord w))
  | 3 => .ok (.fmaF32 (VR.ofWord w))
  | 4 => .ok (.fnmaF32 (VR.ofWord w))
  | 5 => .ok (.fminF32 (VR.ofWord w))
  | 6 => .ok (.fmaxF32 (VR.ofWord w))
  | 7 => if fld w 12 7 == 0 && fld w 5 5 == 0 then .ok (.fabsF32 (VU.ofWord w))
    else .error .illegalOperand
  | 8 => if fld w 12 7 == 0 && fld w 5 5 == 0 then .ok (.fnegF32 (VU.ofWord w))
    else .error .illegalOperand
  | 9 => if fld w 12 7 == 0 && fld w 5 5 == 0 then .ok (.fsignF32 (VU.ofWord w))
    else .error .illegalOperand
  | 10 => .ok (.fldexpF32 (VR.ofWord w))
  | 11 => if fld w 12 7 == 0 && fld w 5 5 == 0 then .ok (.ffracF32 (VU.ofWord w))
    else .error .illegalOperand
  | 12 => if fld w 12 7 == 0 && fld w 5 5 == 0 then .ok (.fclassF32 (VU.ofWord w))
    else .error .illegalOperand
  | 13 => .ok (.faddF16x2 (VR.ofWord w))
  | 14 => .ok (.fmulF16x2 (VR.ofWord w))
  | 15 => .ok (.fmaF16x2 (VR.ofWord w))
  | 16 => .ok (.fminF16x2 (VR.ofWord w))
  | 17 => .ok (.fmaxF16x2 (VR.ofWord w))
  | 18 => .ok (.faddBf16x2 (VR.ofWord w))
  | 19 => .ok (.fmulBf16x2 (VR.ofWord w))
  | 20 => .ok (.fmaBf16x2 (VR.ofWord w))
  | 21 => .ok (.fminBf16x2 (VR.ofWord w))
  | 22 => .ok (.fmaxBf16x2 (VR.ofWord w))
  | 23 => .ok (.fdot2Bf16 (VR.ofWord w))
  | 24 => .ok (.fdot2F16 (VR.ofWord w))
  | 25 => .ok (.flerpF32 (VR.ofWord w))
  | _ => .error .illegalFunction

/-- Major 0x0F (FALUS), by its function number (R44, R45). -/
noncomputable def decodeFaluS (w : Nat) : Except DecodeFault Instr :=
  match fld w 4 0 with
  | 0 => if fld w 5 5 == 0 then .ok (.faddF32S (VS.ofWord w))
    else .error .illegalOperand
  | 1 => if fld w 5 5 == 0 then .ok (.fsubF32S (VS.ofWord w))
    else .error .illegalOperand
  | 2 => if fld w 5 5 == 0 then .ok (.fmulF32S (VS.ofWord w))
    else .error .illegalOperand
  | 3 => if fld w 5 5 == 0 then .ok (.fmaF32S (VS.ofWord w))
    else .error .illegalOperand
  | 4 => if fld w 5 5 == 0 then .ok (.fnmaF32S (VS.ofWord w))
    else .error .illegalOperand
  | 5 => if fld w 5 5 == 0 then .ok (.fminF32S (VS.ofWord w))
    else .error .illegalOperand
  | 6 => if fld w 5 5 == 0 then .ok (.fmaxF32S (VS.ofWord w))
    else .error .illegalOperand
  | 7 => if fld w 12 7 == 0 && fld w 5 5 == 0 then .ok (.fabsF32S (VU.ofWord w))
    else .error .illegalOperand
  | 8 => if fld w 12 7 == 0 && fld w 5 5 == 0 then .ok (.fnegF32S (VU.ofWord w))
    else .error .illegalOperand
  | 9 => if fld w 12 7 == 0 && fld w 5 5 == 0 then .ok (.fsignF32S (VU.ofWord w))
    else .error .illegalOperand
  | 10 => if fld w 5 5 == 0 then .ok (.fldexpF32S (VS.ofWord w))
    else .error .illegalOperand
  | 11 => if fld w 12 7 == 0 && fld w 5 5 == 0 then .ok (.ffracF32S (VU.ofWord w))
    else .error .illegalOperand
  | 12 => if fld w 12 7 == 0 && fld w 5 5 == 0 then .ok (.fclassF32S (VU.ofWord w))
    else .error .illegalOperand
  | 13 => if fld w 5 5 == 0 then .ok (.faddF16x2S (VS.ofWord w))
    else .error .illegalOperand
  | 14 => if fld w 5 5 == 0 then .ok (.fmulF16x2S (VS.ofWord w))
    else .error .illegalOperand
  | 15 => if fld w 5 5 == 0 then .ok (.fmaF16x2S (VS.ofWord w))
    else .error .illegalOperand
  | 16 => if fld w 5 5 == 0 then .ok (.fminF16x2S (VS.ofWord w))
    else .error .illegalOperand
  | 17 => if fld w 5 5 == 0 then .ok (.fmaxF16x2S (VS.ofWord w))
    else .error .illegalOperand
  | 18 => if fld w 5 5 == 0 then .ok (.faddBf16x2S (VS.ofWord w))
    else .error .illegalOperand
  | 19 => if fld w 5 5 == 0 then .ok (.fmulBf16x2S (VS.ofWord w))
    else .error .illegalOperand
  | 20 => if fld w 5 5 == 0 then .ok (.fmaBf16x2S (VS.ofWord w))
    else .error .illegalOperand
  | 21 => if fld w 5 5 == 0 then .ok (.fminBf16x2S (VS.ofWord w))
    else .error .illegalOperand
  | 22 => if fld w 5 5 == 0 then .ok (.fmaxBf16x2S (VS.ofWord w))
    else .error .illegalOperand
  | 23 => if fld w 5 5 == 0 then .ok (.fdot2Bf16S (VS.ofWord w))
    else .error .illegalOperand
  | 24 => if fld w 5 5 == 0 then .ok (.fdot2F16S (VS.ofWord w))
    else .error .illegalOperand
  | 25 => if fld w 5 5 == 0 then .ok (.flerpF32S (VS.ofWord w))
    else .error .illegalOperand
  | _ => .error .illegalFunction

/-- Major 0x13 (FSPC), by its function number (R44, R45). -/
noncomputable def decodeFspc (w : Nat) : Except DecodeFault Instr :=
  match fld w 4 0 with
  | 0 => if fld w 12 7 == 0 && fld w 5 5 == 0 then .ok (.frcp (VU.ofWord w))
    else .error .illegalOperand
  | 1 => if fld w 12 7 == 0 && fld w 5 5 == 0 then .ok (.frsq (VU.ofWord w))
    else .error .illegalOperand
  | 2 => if fld w 12 7 == 0 && fld w 5 5 == 0 then .ok (.fsqrt (VU.ofWord w))
    else .error .illegalOperand
  | 3 => if fld w 12 7 == 0 && fld w 5 5 == 0 then .ok (.fexp2 (VU.ofWord w))
    else .error .illegalOperand
  | 4 => if fld w 12 7 == 0 && fld w 5 5 == 0 then .ok (.flog2 (VU.ofWord w))
    else .error .illegalOperand
  | 5 => if fld w 12 7 == 0 && fld w 5 5 == 0 then .ok (.fsinp (VU.ofWord w))
    else .error .illegalOperand
  | 6 => if fld w 12 7 == 0 && fld w 5 5 == 0 then .ok (.fcosp (VU.ofWord w))
    else .error .illegalOperand
  | 7 => if fld w 12 7 == 0 && fld w 5 5 == 0 then .ok (.ftanh (VU.ofWord w))
    else .error .illegalOperand
  | 8 => .ok (.fdiv (VR.ofWord w))
  | _ => .error .illegalFunction

/-- Major 0x14 (MXQ), by its function number (R44, R45). -/
noncomputable def decodeMxq (w : Nat) : Except DecodeFault Instr :=
  match fld w 4 0 with
  | 0 => .ok (.mxqF8e4 (CVSK.ofWord w))
  | 1 => .ok (.mxqF8e5 (CVSK.ofWord w))
  | 2 => .ok (.mxqF4 (CVSK.ofWord w))
  | 3 => .ok (.mxdqF8e4 (CVSK.ofWord w))
  | 4 => .ok (.mxdqF8e5 (CVSK.ofWord w))
  | 5 => .ok (.mxdqF4 (CVSK.ofWord w))
  | _ => .error .illegalFunction

/-- Major 0x18 (SALU), by its function number (R44, R45). -/
noncomputable def decodeSalu (w : Nat) : Except DecodeFault Instr :=
  match fld w 2 0 with
  | 0 => .ok (.sadd (SR.ofWord w))
  | 1 => .ok (.ssub (SR.ofWord w))
  | 2 => .ok (.smul (SR.ofWord w))
  | 3 => .ok (.sand (SR.ofWord w))
  | 4 => .ok (.sor (SR.ofWord w))
  | 5 => .ok (.sxor (SR.ofWord w))
  | 6 => .ok (.sshl (SR.ofWord w))
  | 7 => .ok (.sshr (SR.ofWord w))
  | _ => .error .illegalFunction

/-- Major 0x19 (SALU2), by its function number (R44, R45). -/
noncomputable def decodeSalu2 (w : Nat) : Except DecodeFault Instr :=
  match fld w 2 0 with
  | 0 => .ok (.ssar (SR.ofWord w))
  | 1 => .ok (.smin (SR.ofWord w))
  | 2 => .ok (.smax (SR.ofWord w))
  | 3 => .ok (.sminn (SR.ofWord w))
  | 4 => .ok (.smaxn (SR.ofWord w))
  | 5 => .ok (.smulh (SR.ofWord w))
  | 6 => .ok (.sadd64 (SR.ofWord w))
  | 7 => .ok (.ssel (SR.ofWord w))
  | _ => .error .illegalFunction

/-- Major 0x1C (SMEM), by its function number (R44, R45). -/
noncomputable def decodeSmem (w : Nat) : Except DecodeFault Instr :=
  match fld w 2 0 with
  | 0 => .ok (.sldW (SR.ofWord w))
  | 1 => .ok (.sldD (SR.ofWord w))
  | 2 => .ok (.sldQ (SR.ofWord w))
  | 3 => .ok (.sstW (SR.ofWord w))
  | 4 => .ok (.sstD (SR.ofWord w))
  | 5 => .ok (.sstQ (SR.ofWord w))
  | _ => .error .illegalFunction

/-- Major 0x1D (SYS), by its function number (R44, R45). -/
noncomputable def decodeSys (w : Nat) : Except DecodeFault Instr :=
  match fld w 4 0 with
  | 0 => if fld w 8 5 == 0 then .ok (.mfs (SXFs.ofWord w))
    else .error .illegalOperand
  | 1 => if fld w 8 5 == 0 then .ok (.mts (SXTs.ofWord w))
    else .error .illegalOperand
  | 2 => if fld w 16 5 == 0 then .ok (.cinvI (E1.ofWord w))
    else if fld w 16 5 == 1 then .ok (.cinvD (E1.ofWord w))
    else .error .illegalOperand
  | 3 => if fld w 16 5 == 0 then .ok (.cwbL1 (E1.ofWord w))
    else if fld w 16 5 == 1 then .ok (.cwbL2 (E1.ofWord w))
    else .error .illegalOperand
  | 4 => if fld w 24 5 == 2 then .ok (.tlbinvAsid (C0.ofWord w))
    else if fld w 24 5 == 3 then .ok (.tlbinvAll (C0.ofWord w))
    else if fld w 16 5 == 0 then .ok (.tlbinvPage (E1.ofWord w))
    else if fld w 16 5 == 1 then .ok (.tlbinvRange (E1.ofWord w))
    else .error .illegalOperand
  | 5 => if fld w 16 5 == 0 then .ok (.brk (SXN.ofWord w))
    else .error .illegalOperand
  | 6 => if fld w 16 5 == 0 then .ok (.trapW (SXN.ofWord w))
    else .error .illegalOperand
  | 7 => if fld w 24 5 == 0 then .ok (.rte (C0.ofWord w))
    else .error .illegalOperand
  | 8 => if fld w 24 9 == 0 then .ok (.rqr (SXE.ofWord w))
    else .error .illegalOperand
  | 9 => if fld w 24 9 == 0 then .ok (.rqw (SXE.ofWord w))
    else .error .illegalOperand
  | 10 => if fld w 24 9 == 0 then .ok (.rqd (SXE.ofWord w))
    else .error .illegalOperand
  | _ => .error .illegalFunction

/-- Major 0x24 (DACC), by its function number (R44, R45). -/
noncomputable def decodeDacc (w : Nat) : Except DecodeFault Instr :=
  match fld w 4 2 with
  | 0 => if fld w 1 1 == 0 then .ok (.dopen (MD.ofWord w))
    else .error .illegalOperand
  | 1 => if fld w 1 1 == 0 then .ok (.dadd (MD.ofWord w))
    else .error .illegalOperand
  | 2 => if fld w 1 1 == 0 then .ok (.dclose (MD.ofWord w))
    else .error .illegalOperand
  | _ => .error .illegalFunction

/-- Major 0x25 (MCTL), by its function number (R44, R45). -/
noncomputable def decodeMctl (w : Nat) : Except DecodeFault Instr :=
  match fld w 4 0 with
  | 0 => if fld w 24 11 == 0 then .ok (.fence (CK.ofWord w))
    else if fld w 24 11 == 1 then .ok (.fenceAcq (CK.ofWord w))
    else if fld w 24 11 == 2 then .ok (.fenceRel (CK.ofWord w))
    else .error .illegalOperand
  | 1 => if fld w 24 17 == 0 then .ok (.waitk (CWait.ofWord w))
    else .error .illegalOperand
  | 2 => if fld w 10 7 == 0 then .ok (.pf (CPf.ofWord w))
    else .error .illegalOperand
  | 3 => if fld w 18 8 == 0 then .ok (.pchkV (CVP.ofWord w))
    else if fld w 24 19 == 0 && fld w 10 8 == 1 then .ok (.pchkS (CSP.ofWord w))
    else .error .illegalOperand
  | 4 => if fld w 24 19 == 0 && fld w 10 10 == 0 then .ok (.mwait (CMwait.ofWord w))
    else .error .illegalOperand
  | 5 => if fld w 18 5 == 0 then .ok (.pclrV (CV.ofWord w))
    else if fld w 24 19 == 0 && fld w 10 5 == 1 then .ok (.pclrS (CS.ofWord w))
    else .error .illegalOperand
  | _ => .error .illegalFunction

/-- Major 0x29 (SPAD), by its function number (R44, R45). -/
noncomputable def decodeSpad (w : Nat) : Except DecodeFault Instr :=
  match fld w 4 0 with
  | 0 => if fld w 24 19 == 0 && fld w 10 5 == 0 then .ok (.salloc (CS.ofWord w))
    else .error .illegalOperand
  | 1 => if fld w 24 19 == 0 && fld w 10 5 == 0 then .ok (.sfree (CS.ofWord w))
    else .error .illegalOperand
  | 2 => if fld w 24 19 == 0 && fld w 10 7 == 0 then .ok (.bmode (CBmode.ofWord w))
    else .error .illegalOperand
  | 3 => if fld w 24 19 == 0 && fld w 10 5 == 0 then .ok (.join (CS.ofWord w))
    else .error .illegalOperand
  | 4 => if fld w 24 5 == 0 then .ok (.leave (C0.ofWord w))
    else .error .illegalOperand
  | 5 => if fld w 24 19 == 0 && fld w 10 5 == 0 then .ok (.rinit (CS.ofWord w))
    else if fld w 24 19 == 0 && fld w 10 5 == 1 then .ok (.rinitFree (CS.ofWord w))
    else .error .illegalOperand
  | 6 => if fld w 24 19 == 0 && fld w 10 10 == 0 then .ok (.rpushRes (CRing.ofWord w))
    else if fld w 24 19 == 0 && fld w 10 10 == 1 then .ok (.rpushCmt (CRing.ofWord w))
    else .error .illegalOperand
  | 7 => if fld w 24 19 == 0 && fld w 10 10 == 0 then .ok (.rpopRes (CRing.ofWord w))
    else if fld w 24 19 == 0 && fld w 10 10 == 1 then .ok (.rpopRel (CRing.ofWord w))
    else .error .illegalOperand
  | 8 => if fld w 24 19 == 0 && fld w 10 10 == 0 then .ok (.rlen (CRing.ofWord w))
    else .error .illegalOperand
  | 9 => if fld w 24 19 == 0 && fld w 10 5 == 0 then .ok (.presGet (CS.ofWord w))
    else if fld w 24 19 == 0 && fld w 10 5 == 1 then .ok (.presSet (CS.ofWord w))
    else .error .illegalOperand
  | _ => .error .illegalFunction

/-- Major 0x2A (BAR), by its function number (R44, R45). -/
noncomputable def decodeBar (w : Nat) : Except DecodeFault Instr :=
  match fld w 4 0 with
  | 0 => if fld w 24 19 == 0 && fld w 10 9 == 0 then .ok (.binit (CBarS.ofWord w))
    else .error .illegalOperand
  | 1 => if fld w 24 9 == 0 then .ok (.barr (CBar.ofWord w))
    else .error .illegalOperand
  | 2 => if fld w 24 19 == 0 && fld w 10 9 == 0 then .ok (.barx (CBarS.ofWord w))
    else .error .illegalOperand
  | 3 => if fld w 24 10 == 0 then .ok (.barw (CBarP.ofWord w))
    else if fld w 24 19 == 0 && fld w 10 10 == 1 then .ok (.barwS (CBarPS.ofWord w))
    else .error .illegalOperand
  | 4 => if fld w 24 14 == 0 && fld w 10 10 == 0 then .ok (.bart (CBart.ofWord w))
    else .error .illegalOperand
  | _ => .error .illegalFunction

/-- Major 0x2B (CPY), by its function number (R44, R45). -/
noncomputable def decodeCpy (w : Nat) : Except DecodeFault Instr :=
  match fld w 4 0 with
  | 0 => .ok (.cpl (E3.ofWord w))
  | 1 => .ok (.cpls (E3.ofWord w))
  | 2 => if fld w 16 5 == 0 then .ok (.cpt (E1.ofWord w))
    else .error .illegalOperand
  | 3 => if fld w 16 5 == 0 then .ok (.cpts (E1.ofWord w))
    else .error .illegalOperand
  | 4 => if fld w 16 5 == 0 then .ok (.tdesc (E1.ofWord w))
    else .error .illegalOperand
  | _ => .error .illegalFunction

/-- Major 0x2C (MAT), by its function number (R44, R45). -/
noncomputable def decodeMat (w : Nat) : Except DecodeFault Instr :=
  match fld w 4 0 with
  | 0 => if fld w 16 5 == 0 then .ok (.fmt (E1.ofWord w))
    else .error .illegalOperand
  | 1 => if fld w 16 5 == 0 then .ok (.mshape (E1.ofWord w))
    else .error .illegalOperand
  | 2 => if fld w 16 6 == 0 then .ok (.mload (EJ.ofWord w))
    else .error .illegalOperand
  | 3 => if fld w 24 17 == 0 && fld w 10 9 == 1 then .ok (.mmulReg (EMmulR.ofWord w))
    else if fld w 16 9 == 0 then .ok (.mmul (EMmul.ofWord w))
    else .error .illegalOperand
  | 4 => if fld w 16 11 == 0 && fld w 9 7 == 2 then .ok (.mdrainTile (EDrain.ofWord w))
    else if fld w 16 11 == 0 && fld w 9 7 == 3 then .ok (.mdrainRing (EDrain.ofWord w))
    else if fld w 16 11 == 0 && fld w 9 7 == 4 then .ok (.mdrainPort (EDrain.ofWord w))
    else if fld w 9 7 == 0 then .ok (.mdrainF32 (EDrainR.ofWord w))
    else if fld w 9 7 == 1 then .ok (.mdrainBf16 (EDrainR.ofWord w))
    else .error .illegalOperand
  | 5 => if fld w 24 9 == 0 then .ok (.mclr (EMask.ofWord w))
    else .error .illegalOperand
  | 6 => if fld w 16 6 == 0 then .ok (.mstat (EJ.ofWord w))
    else .error .illegalOperand
  | _ => .error .illegalFunction

/-- Major 0x2D (HXE), by its function number (R44, R45). -/
noncomputable def decodeHxe (w : Nat) : Except DecodeFault Instr :=
  match fld w 4 0 with
  | 0 => if fld w 16 5 == 0 then .ok (.hxcfg (E1.ofWord w))
    else .error .illegalOperand
  | 1 => if fld w 10 5 == 0 then .ok (.hxqRing (E2.ofWord w))
    else .ok (.hxq (E3.ofWord w))
  | 2 => .ok (.hxg (E3.ofWord w))
  | 3 => if fld w 16 5 == 0 then .ok (.vpub (E1.ofWord w))
    else .error .illegalOperand
  | 4 => if fld w 16 5 == 0 then .ok (.vbind (E1.ofWord w))
    else .error .illegalOperand
  | _ => .error .illegalFunction

/-- Major 0x2E (TRV), by its function number (R44, R45). -/
noncomputable def decodeTrv (w : Nat) : Except DecodeFault Instr :=
  match fld w 4 0 with
  | 0 => if fld w 16 5 == 0 then .ok (.tlayout (E1.ofWord w))
    else .error .illegalOperand
  | 1 => if fld w 16 5 == 0 then .ok (.tcode (E1.ofWord w))
    else .error .illegalOperand
  | 2 => if fld w 10 5 == 0 then .ok (.trace (E2.ofWord w))
    else .error .illegalOperand
  | 3 => if fld w 24 17 == 0 && fld w 10 5 == 0 then .ok (.tget (EV.ofWord w))
    else .error .illegalOperand
  | 4 => if fld w 10 5 == 0 then .ok (.tresume (E2.ofWord w))
    else .error .illegalOperand
  | 5 => if fld w 24 5 == 0 then .ok (.tabort (C0.ofWord w))
    else .error .illegalOperand
  | 6 => if fld w 10 5 == 0 then .ok (.tstamp (E2.ofWord w))
    else .error .illegalOperand
  | _ => .error .illegalFunction

/-- Major 0x2F (DEV), by its function number (R44, R45). -/
noncomputable def decodeDev (w : Nat) : Except DecodeFault Instr :=
  match fld w 4 0 with
  | 0 => if fld w 16 5 == 0 then .ok (.coll (E1.ofWord w))
    else .error .illegalOperand
  | 1 => if fld w 16 5 == 0 then .ok (.launchW (E1.ofWord w))
    else .error .illegalOperand
  | 2 => if fld w 16 5 == 0 then .ok (.tapeW (E1.ofWord w))
    else .error .illegalOperand
  | _ => .error .illegalFunction

/-- One instruction word by its major (R44), before the field checks of R28 step 4. -/
noncomputable def decodeRaw (w : Nat) : Except DecodeFault Instr :=
  match fld w 30 25 with
  | 1 => .ok (.bra (BF.ofWord w))
  | 2 => .ok (.call (BC.ofWord w))
  | 3 => decodeFlow w
  | 4 => decodeXlane w
  | 5 => decodeWred w
  | 6 => decodeMov w
  | 7 => decodePlog w
  | 8 => decodeIalu w
  | 9 => decodeIaluS w
  | 10 => decodeBitf w
  | 11 => .ok (.icmp (VP.ofWord w))
  | 12 => if fld w 5 5 == 0 then .ok (.icmpS (VPS.ofWord w))
    else .error .illegalOperand
  | 13 => if fld w 0 0 == 0 then .ok (.sel (VSel.ofWord w))
    else .error .illegalOperand
  | 14 => decodeFalu w
  | 15 => decodeFaluS w
  | 16 => .ok (.fcmp (VP.ofWord w))
  | 17 => if fld w 5 5 == 0 then .ok (.fcmpS (VPS.ofWord w))
    else .error .illegalOperand
  | 18 => if fld w 12 5 == 0 then .ok (.frnd (VRnd.ofWord w))
    else .ok (.fcvt (VX.ofWord w))
  | 19 => decodeFspc w
  | 20 => decodeMxq w
  | 24 => decodeSalu w
  | 25 => decodeSalu2 w
  | 26 => if fld w 17 17 == 0 && fld w 2 0 == 0 then .ok (.scmp (SC.ofWord w))
    else .error .illegalOperand
  | 27 => .ok (.sbr (SB.ofWord w))
  | 28 => decodeSmem w
  | 29 => decodeSys w
  | 32 => .ok (.ld (ML.ofWord w))
  | 33 => if fld w 1 1 == 0 then .ok (.st (MS.ofWord w))
    else .error .illegalOperand
  | 34 => .ok (.atom (MA.ofWord w))
  | 35 => .ok (.red (MA.ofWord w))
  | 36 => decodeDacc w
  | 37 => decodeMctl w
  | 38 => .ok (.ldl (ML.ofWord w))
  | 39 => if fld w 1 1 == 0 then .ok (.stl (MS.ofWord w))
    else .error .illegalOperand
  | 40 => .ok (.atoml (MA.ofWord w))
  | 41 => decodeSpad w
  | 42 => decodeBar w
  | 43 => decodeCpy w
  | 44 => decodeMat w
  | 45 => decodeHxe w
  | 46 => decodeTrv w
  | 47 => decodeDev w
  | 63 => .ok (.lit (LitW.ofWord w))
  | _ => .error .illegalInstruction

/-- One instruction word: its instruction, or the decode fault of R28 that its fields raise. -/
noncomputable def decodeWord (w : Word) : Except DecodeFault Instr :=
  match decodeRaw w.toNat with
  | .ok i => if Instr.wf i then .ok i else .error .illegalOperand
  | .error f => .error f

/-- One micro-operation word of a traversal program (R344); none for a word the format does not give. -/
noncomputable def decodeMicroRaw (w : Nat) : Except DecodeFault Instr :=
  match fld w 31 27 with
  | 0 => if fld w 26 0 == 0 then .ok (.miNop)
    else .error .illegalOperand
  | 1 => if fld w 26 23 == 0 && fld w 18 2 == 0 then .ok (.miFetch (UAK.ofWord w))
    else .error .illegalOperand
  | 2 => if fld w 18 4 == 0 then .ok (.miField (UDAF.ofWord w))
    else .error .illegalOperand
  | 3 => if fld w 18 0 == 0 then .ok (.miBox (UDA.ofWord w))
    else .error .illegalOperand
  | 4 => if fld w 18 4 == 0 then .ok (.miSort (UDAF.ofWord w))
    else .error .illegalOperand
  | 5 => .ok (.miSelect (USel.ofWord w))
  | 6 => if fld w 26 23 == 0 && fld w 18 0 == 0 then .ok (.miPush (UA.ofWord w))
    else .error .illegalOperand
  | 7 => if fld w 22 0 == 0 then .ok (.miPop (UD.ofWord w))
    else .error .illegalOperand
  | 8 => if fld w 26 23 == 0 && fld w 18 0 == 0 then .ok (.miTri (UA.ofWord w))
    else .error .illegalOperand
  | 9 => if fld w 26 23 == 0 && fld w 18 0 == 0 then .ok (.miCaps (UA.ofWord w))
    else .error .illegalOperand
  | 10 => if fld w 26 23 == 0 && fld w 18 0 == 0 then .ok (.miCurve (UA.ofWord w))
    else .error .illegalOperand
  | 11 => if fld w 18 0 == 0 then .ok (.miXform (UDA.ofWord w))
    else .error .illegalOperand
  | 12 => if fld w 26 0 == 0 then .ok (.miPopx)
    else .error .illegalOperand
  | 13 => if fld w 26 0 == 0 then .ok (.miAccept)
    else .error .illegalOperand
  | 14 => if fld w 26 0 == 0 then .ok (.miTerm)
    else .error .illegalOperand
  | 15 => if fld w 14 12 == 0 then .ok (.miBr (UBr.ofWord w))
    else .error .illegalOperand
  | 16 => if fld w 26 23 == 0 && fld w 18 12 == 0 then .ok (.miLoop (ULoop.ofWord w))
    else .error .illegalOperand
  | 17 => if fld w 26 23 == 0 && fld w 18 4 == 0 then .ok (.miSetb (USetb.ofWord w))
    else .error .illegalOperand
  | 18 => if fld w 26 23 == 0 && fld w 18 1 == 0 then .ok (.miStb (UStb.ofWord w))
    else .error .illegalOperand
  | 19 => if fld w 26 8 == 0 then .ok (.miYield (UYield.ofWord w))
    else .error .illegalOperand
  | _ => .error .illegalFunction

/-- One micro-operation word: its row, or none (R344). -/
noncomputable def decodeMicro (w : Word) : Option Instr :=
  match decodeMicroRaw w.toNat with
  | .ok i => if Instr.wf i then some i else none
  | .error _ => none

/-- The bits of an instruction word or micro-operation word; none for a row without an encoding. -/
def encodeNat : Instr → Option Nat
  | .bra o => some (0x2000000 + BF.bits o)
  | .call o => some (0x4000000 + BC.bits o)
  | .ret o => some (0x6000000 + C0.bits o)
  | .calliS o => some (0x6000001 + CCallS.bits o)
  | .calliV o => some (0x6000101 + CCallV.bits o)
  | .jmpS o => some (0x6000002 + CS.bits o)
  | .jmpV o => some (0x6000022 + CV.bits o)
  | .exitW o => some (0x6000003 + C0.bits o)
  | .exitS o => some (0x6000023 + CS.bits o)
  | .yield o => some (0x6000004 + C0.bits o)
  | .elect o => some (0x6000005 + CSP.bits o)
  | .sync o => some (0x6000006 + C0.bits o)
  | .syncm o => some (0x6000007 + CS.bits o)
  | .nop o => some (0x6000008 + C0.bits o)
  | .wflush o => some (0x6000009 + C0.bits o)
  | .quota o => some (0x600000a + CS.bits o)
  | .shfl o => some (0x8000000 + VR.bits o)
  | .shflx o => some (0x8000001 + VR.bits o)
  | .shflup o => some (0x8000002 + VR.bits o)
  | .shfldn o => some (0x8000003 + VR.bits o)
  | .qswapH o => some (0x8000004 + VU.bits o)
  | .qswapV o => some (0x8000005 + VU.bits o)
  | .qswapD o => some (0x8000006 + VU.bits o)
  | .qbcast o => some (0x8000007 + VR.bits o)
  | .scanAddI32 o => some (0x8000008 + VU.bits o)
  | .scanAddF32 o => some (0x8000009 + VU.bits o)
  | .scanMaxI32 o => some (0x800000a + VU.bits o)
  | .scanMinI32 o => some (0x800000b + VU.bits o)
  | .xscanAddI32 o => some (0x800000c + VU.bits o)
  | .voteAny o => some (0xa000000 + CSP.bits o)
  | .voteAll o => some (0xa000001 + CSP.bits o)
  | .ballot o => some (0xa000002 + CSP.bits o)
  | .redwAddI32 o => some (0xa000003 + CRed.bits o)
  | .redwMinI32 o => some (0xa000004 + CRed.bits o)
  | .redwMaxI32 o => some (0xa000005 + CRed.bits o)
  | .redwMinN32 o => some (0xa000006 + CRed.bits o)
  | .redwMaxN32 o => some (0xa000007 + CRed.bits o)
  | .redwAnd o => some (0xa000008 + CRed.bits o)
  | .redwOr o => some (0xa000009 + CRed.bits o)
  | .redwXor o => some (0xa00000a + CRed.bits o)
  | .redwAddF32 o => some (0xa00000b + CRed.bits o)
  | .redwMinF32 o => some (0xa00000c + CRed.bits o)
  | .redwMaxF32 o => some (0xa00000d + CRed.bits o)
  | .mov o => some (0xc000000 + CMov.bits o)
  | .movs o => some (0xc000001 + CVS.bits o)
  | .rdl o => some (0xc000002 + CVSK.bits o)
  | .wrl o => some (0xc000003 + CVSK.bits o)
  | .lid o => some (0xc000004 + CVK.bits o)
  | .movp o => some (0xc000005 + CVP.bits o)
  | .pmov o => some (0xc000006 + CPmov.bits o)
  | .movi o => some (0xc000007 + CV.bits o)
  | .pand o => some (0xe000000 + P3.bits o)
  | .por o => some (0xe000001 + P3.bits o)
  | .pxor o => some (0xe000002 + P3.bits o)
  | .pandn o => some (0xe000003 + P3.bits o)
  | .pnot o => some (0xe000004 + P2.bits o)
  | .pset o => some (0xe000005 + P1.bits o)
  | .pclr o => some (0xe000006 + P1.bits o)
  | .addI32 o => some (0x10000000 + VR.bits o)
  | .addI32S o => some (0x12000000 + VS.bits o)
  | .subI32 o => some (0x10000001 + VR.bits o)
  | .subI32S o => some (0x12000001 + VS.bits o)
  | .mulI32 o => some (0x10000002 + VR.bits o)
  | .mulI32S o => some (0x12000002 + VS.bits o)
  | .mulhI32 o => some (0x10000003 + VR.bits o)
  | .mulhI32S o => some (0x12000003 + VS.bits o)
  | .mulhN32 o => some (0x10000004 + VR.bits o)
  | .mulhN32S o => some (0x12000004 + VS.bits o)
  | .mulwI32 o => some (0x10000005 + VR.bits o)
  | .mulwI32S o => some (0x12000005 + VS.bits o)
  | .mulwN32 o => some (0x10000006 + VR.bits o)
  | .mulwN32S o => some (0x12000006 + VS.bits o)
  | .madI32 o => some (0x10000007 + VR.bits o)
  | .madI32S o => some (0x12000007 + VS.bits o)
  | .minI32 o => some (0x10000008 + VR.bits o)
  | .minI32S o => some (0x12000008 + VS.bits o)
  | .maxI32 o => some (0x10000009 + VR.bits o)
  | .maxI32S o => some (0x12000009 + VS.bits o)
  | .minN32 o => some (0x1000000a + VR.bits o)
  | .minN32S o => some (0x1200000a + VS.bits o)
  | .maxN32 o => some (0x1000000b + VR.bits o)
  | .maxN32S o => some (0x1200000b + VS.bits o)
  | .absI32 o => some (0x1000000c + VU.bits o)
  | .absI32S o => some (0x1200000c + VU.bits o)
  | .addsI32 o => some (0x1000000d + VR.bits o)
  | .addsI32S o => some (0x1200000d + VS.bits o)
  | .subsI32 o => some (0x1000000e + VR.bits o)
  | .subsI32S o => some (0x1200000e + VS.bits o)
  | .addsN32 o => some (0x1000000f + VR.bits o)
  | .addsN32S o => some (0x1200000f + VS.bits o)
  | .subsN32 o => some (0x10000010 + VR.bits o)
  | .subsN32S o => some (0x12000010 + VS.bits o)
  | .addI64 o => some (0x10000011 + VR.bits o)
  | .addI64S o => some (0x12000011 + VS.bits o)
  | .subI64 o => some (0x10000012 + VR.bits o)
  | .subI64S o => some (0x12000012 + VS.bits o)
  | .addI16x2 o => some (0x10000013 + VR.bits o)
  | .addI16x2S o => some (0x12000013 + VS.bits o)
  | .subI16x2 o => some (0x10000014 + VR.bits o)
  | .subI16x2S o => some (0x12000014 + VS.bits o)
  | .dp4I8 o => some (0x10000015 + VR.bits o)
  | .dp4I8S o => some (0x12000015 + VS.bits o)
  | .dp4N8 o => some (0x10000016 + VR.bits o)
  | .dp4N8S o => some (0x12000016 + VS.bits o)
  | .vAnd o => some (0x10000017 + VR.bits o)
  | .vAndS o => some (0x12000017 + VS.bits o)
  | .vOr o => some (0x10000018 + VR.bits o)
  | .vOrS o => some (0x12000018 + VS.bits o)
  | .vXor o => some (0x10000019 + VR.bits o)
  | .vXorS o => some (0x12000019 + VS.bits o)
  | .vAndn o => some (0x1000001a + VR.bits o)
  | .vAndnS o => some (0x1200001a + VS.bits o)
  | .shl o => some (0x1000001b + VR.bits o)
  | .shlS o => some (0x1200001b + VS.bits o)
  | .shr o => some (0x1000001c + VR.bits o)
  | .shrS o => some (0x1200001c + VS.bits o)
  | .sar o => some (0x1000001d + VR.bits o)
  | .sarS o => some (0x1200001d + VS.bits o)
  | .rotl o => some (0x1000001e + VR.bits o)
  | .rotlS o => some (0x1200001e + VS.bits o)
  | .bfxI32 o => some (0x14000000 + VR.bits o)
  | .bfxN32 o => some (0x14000001 + VR.bits o)
  | .bfi o => some (0x14000002 + VR.bits o)
  | .perm o => some (0x14000003 + VR.bits o)
  | .popc o => some (0x14000004 + VU.bits o)
  | .clz o => some (0x14000005 + VU.bits o)
  | .ctz o => some (0x14000006 + VU.bits o)
  | .brev o => some (0x14000007 + VU.bits o)
  | .fshl o => some (0x14000008 + VR.bits o)
  | .fshr o => some (0x14000009 + VR.bits o)
  | .sext8 o => some (0x1400000a + VU.bits o)
  | .sext16 o => some (0x1400000b + VU.bits o)
  | .icmp o => some (0x16000000 + VP.bits o)
  | .icmpS o => some (0x18000000 + VPS.bits o)
  | .sel o => some (0x1a000000 + VSel.bits o)
  | .faddF32 o => some (0x1c000000 + VR.bits o)
  | .faddF32S o => some (0x1e000000 + VS.bits o)
  | .fsubF32 o => some (0x1c000001 + VR.bits o)
  | .fsubF32S o => some (0x1e000001 + VS.bits o)
  | .fmulF32 o => some (0x1c000002 + VR.bits o)
  | .fmulF32S o => some (0x1e000002 + VS.bits o)
  | .fmaF32 o => some (0x1c000003 + VR.bits o)
  | .fmaF32S o => some (0x1e000003 + VS.bits o)
  | .fnmaF32 o => some (0x1c000004 + VR.bits o)
  | .fnmaF32S o => some (0x1e000004 + VS.bits o)
  | .fminF32 o => some (0x1c000005 + VR.bits o)
  | .fminF32S o => some (0x1e000005 + VS.bits o)
  | .fmaxF32 o => some (0x1c000006 + VR.bits o)
  | .fmaxF32S o => some (0x1e000006 + VS.bits o)
  | .fabsF32 o => some (0x1c000007 + VU.bits o)
  | .fabsF32S o => some (0x1e000007 + VU.bits o)
  | .fnegF32 o => some (0x1c000008 + VU.bits o)
  | .fnegF32S o => some (0x1e000008 + VU.bits o)
  | .fsignF32 o => some (0x1c000009 + VU.bits o)
  | .fsignF32S o => some (0x1e000009 + VU.bits o)
  | .fldexpF32 o => some (0x1c00000a + VR.bits o)
  | .fldexpF32S o => some (0x1e00000a + VS.bits o)
  | .ffracF32 o => some (0x1c00000b + VU.bits o)
  | .ffracF32S o => some (0x1e00000b + VU.bits o)
  | .fclassF32 o => some (0x1c00000c + VU.bits o)
  | .fclassF32S o => some (0x1e00000c + VU.bits o)
  | .faddF16x2 o => some (0x1c00000d + VR.bits o)
  | .faddF16x2S o => some (0x1e00000d + VS.bits o)
  | .fmulF16x2 o => some (0x1c00000e + VR.bits o)
  | .fmulF16x2S o => some (0x1e00000e + VS.bits o)
  | .fmaF16x2 o => some (0x1c00000f + VR.bits o)
  | .fmaF16x2S o => some (0x1e00000f + VS.bits o)
  | .fminF16x2 o => some (0x1c000010 + VR.bits o)
  | .fminF16x2S o => some (0x1e000010 + VS.bits o)
  | .fmaxF16x2 o => some (0x1c000011 + VR.bits o)
  | .fmaxF16x2S o => some (0x1e000011 + VS.bits o)
  | .faddBf16x2 o => some (0x1c000012 + VR.bits o)
  | .faddBf16x2S o => some (0x1e000012 + VS.bits o)
  | .fmulBf16x2 o => some (0x1c000013 + VR.bits o)
  | .fmulBf16x2S o => some (0x1e000013 + VS.bits o)
  | .fmaBf16x2 o => some (0x1c000014 + VR.bits o)
  | .fmaBf16x2S o => some (0x1e000014 + VS.bits o)
  | .fminBf16x2 o => some (0x1c000015 + VR.bits o)
  | .fminBf16x2S o => some (0x1e000015 + VS.bits o)
  | .fmaxBf16x2 o => some (0x1c000016 + VR.bits o)
  | .fmaxBf16x2S o => some (0x1e000016 + VS.bits o)
  | .fdot2Bf16 o => some (0x1c000017 + VR.bits o)
  | .fdot2Bf16S o => some (0x1e000017 + VS.bits o)
  | .fdot2F16 o => some (0x1c000018 + VR.bits o)
  | .fdot2F16S o => some (0x1e000018 + VS.bits o)
  | .flerpF32 o => some (0x1c000019 + VR.bits o)
  | .flerpF32S o => some (0x1e000019 + VS.bits o)
  | .fcmp o => some (0x20000000 + VP.bits o)
  | .fcmpS o => some (0x22000000 + VPS.bits o)
  | .fcvt o => some (0x24000000 + VX.bits o)
  | .frnd o => some (0x24000000 + VRnd.bits o)
  | .frcp o => some (0x26000000 + VU.bits o)
  | .frsq o => some (0x26000001 + VU.bits o)
  | .fsqrt o => some (0x26000002 + VU.bits o)
  | .fexp2 o => some (0x26000003 + VU.bits o)
  | .flog2 o => some (0x26000004 + VU.bits o)
  | .fsinp o => some (0x26000005 + VU.bits o)
  | .fcosp o => some (0x26000006 + VU.bits o)
  | .ftanh o => some (0x26000007 + VU.bits o)
  | .fdiv o => some (0x26000008 + VR.bits o)
  | .mxqF8e4 o => some (0x28000000 + CVSK.bits o)
  | .mxqF8e5 o => some (0x28000001 + CVSK.bits o)
  | .mxqF4 o => some (0x28000002 + CVSK.bits o)
  | .mxdqF8e4 o => some (0x28000003 + CVSK.bits o)
  | .mxdqF8e5 o => some (0x28000004 + CVSK.bits o)
  | .mxdqF4 o => some (0x28000005 + CVSK.bits o)
  | .sadd o => some (0x30000000 + SR.bits o)
  | .ssub o => some (0x30000001 + SR.bits o)
  | .smul o => some (0x30000002 + SR.bits o)
  | .sand o => some (0x30000003 + SR.bits o)
  | .sor o => some (0x30000004 + SR.bits o)
  | .sxor o => some (0x30000005 + SR.bits o)
  | .sshl o => some (0x30000006 + SR.bits o)
  | .sshr o => some (0x30000007 + SR.bits o)
  | .ssar o => some (0x32000000 + SR.bits o)
  | .smin o => some (0x32000001 + SR.bits o)
  | .smax o => some (0x32000002 + SR.bits o)
  | .sminn o => some (0x32000003 + SR.bits o)
  | .smaxn o => some (0x32000004 + SR.bits o)
  | .smulh o => some (0x32000005 + SR.bits o)
  | .sadd64 o => some (0x32000006 + SR.bits o)
  | .ssel o => some (0x32000007 + SR.bits o)
  | .scmp o => some (0x34000000 + SC.bits o)
  | .sbr o => some (0x36000000 + SB.bits o)
  | .sldW o => some (0x38000000 + SR.bits o)
  | .sldD o => some (0x38000001 + SR.bits o)
  | .sldQ o => some (0x38000002 + SR.bits o)
  | .sstW o => some (0x38000003 + SR.bits o)
  | .sstD o => some (0x38000004 + SR.bits o)
  | .sstQ o => some (0x38000005 + SR.bits o)
  | .mfs o => some (0x3a000000 + SXFs.bits o)
  | .mts o => some (0x3a000001 + SXTs.bits o)
  | .cinvI o => some (0x3a000002 + E1.bits o)
  | .cinvD o => some (0x3a000022 + E1.bits o)
  | .cwbL1 o => some (0x3a000003 + E1.bits o)
  | .cwbL2 o => some (0x3a000023 + E1.bits o)
  | .tlbinvPage o => some (0x3a000004 + E1.bits o)
  | .tlbinvRange o => some (0x3a000024 + E1.bits o)
  | .tlbinvAsid o => some (0x3a000044 + C0.bits o)
  | .tlbinvAll o => some (0x3a000064 + C0.bits o)
  | .brk o => some (0x3a000005 + SXN.bits o)
  | .trapW o => some (0x3a000006 + SXN.bits o)
  | .rte o => some (0x3a000007 + C0.bits o)
  | .rqr o => some (0x3a000008 + SXE.bits o)
  | .rqw o => some (0x3a000009 + SXE.bits o)
  | .rqd o => some (0x3a00000a + SXE.bits o)
  | .ld o => some (0x40000000 + ML.bits o)
  | .st o => some (0x42000000 + MS.bits o)
  | .atom o => some (0x44000000 + MA.bits o)
  | .red o => some (0x46000000 + MA.bits o)
  | .dopen o => some (0x48000000 + MD.bits o)
  | .dadd o => some (0x48000004 + MD.bits o)
  | .dclose o => some (0x48000008 + MD.bits o)
  | .fence o => some (0x4a000000 + CK.bits o)
  | .fenceAcq o => some (0x4a000800 + CK.bits o)
  | .fenceRel o => some (0x4a001000 + CK.bits o)
  | .waitk o => some (0x4a000001 + CWait.bits o)
  | .pf o => some (0x4a000002 + CPf.bits o)
  | .pchkV o => some (0x4a000003 + CVP.bits o)
  | .pchkS o => some (0x4a000103 + CSP.bits o)
  | .mwait o => some (0x4a000004 + CMwait.bits o)
  | .pclrV o => some (0x4a000005 + CV.bits o)
  | .pclrS o => some (0x4a000025 + CS.bits o)
  | .ldl o => some (0x4c000000 + ML.bits o)
  | .stl o => some (0x4e000000 + MS.bits o)
  | .atoml o => some (0x50000000 + MA.bits o)
  | .salloc o => some (0x52000000 + CS.bits o)
  | .sfree o => some (0x52000001 + CS.bits o)
  | .bmode o => some (0x52000002 + CBmode.bits o)
  | .join o => some (0x52000003 + CS.bits o)
  | .leave o => some (0x52000004 + C0.bits o)
  | .rinit o => some (0x52000005 + CS.bits o)
  | .rinitFree o => some (0x52000025 + CS.bits o)
  | .rpushRes o => some (0x52000006 + CRing.bits o)
  | .rpushCmt o => some (0x52000406 + CRing.bits o)
  | .rpopRes o => some (0x52000007 + CRing.bits o)
  | .rpopRel o => some (0x52000407 + CRing.bits o)
  | .rlen o => some (0x52000008 + CRing.bits o)
  | .presGet o => some (0x52000009 + CS.bits o)
  | .presSet o => some (0x52000029 + CS.bits o)
  | .binit o => some (0x54000000 + CBarS.bits o)
  | .barr o => some (0x54000001 + CBar.bits o)
  | .barx o => some (0x54000002 + CBarS.bits o)
  | .barw o => some (0x54000003 + CBarP.bits o)
  | .barwS o => some (0x54000403 + CBarPS.bits o)
  | .bart o => some (0x54000004 + CBart.bits o)
  | .cpl o => some (0x56000000 + E3.bits o)
  | .cpls o => some (0x56000001 + E3.bits o)
  | .cpt o => some (0x56000002 + E1.bits o)
  | .cpts o => some (0x56000003 + E1.bits o)
  | .tdesc o => some (0x56000004 + E1.bits o)
  | .fmt o => some (0x58000000 + E1.bits o)
  | .mshape o => some (0x58000001 + E1.bits o)
  | .mload o => some (0x58000002 + EJ.bits o)
  | .mmul o => some (0x58000003 + EMmul.bits o)
  | .mmulReg o => some (0x58000203 + EMmulR.bits o)
  | .mdrainF32 o => some (0x58000004 + EDrainR.bits o)
  | .mdrainBf16 o => some (0x58000084 + EDrainR.bits o)
  | .mdrainTile o => some (0x58000104 + EDrain.bits o)
  | .mdrainRing o => some (0x58000184 + EDrain.bits o)
  | .mdrainPort o => some (0x58000204 + EDrain.bits o)
  | .mclr o => some (0x58000005 + EMask.bits o)
  | .mstat o => some (0x58000006 + EJ.bits o)
  | .hxcfg o => some (0x5a000000 + E1.bits o)
  | .hxq o => some (0x5a000001 + E3.bits o)
  | .hxqRing o => some (0x5a000001 + E2.bits o)
  | .hxg o => some (0x5a000002 + E3.bits o)
  | .vpub o => some (0x5a000003 + E1.bits o)
  | .vbind o => some (0x5a000004 + E1.bits o)
  | .tlayout o => some (0x5c000000 + E1.bits o)
  | .tcode o => some (0x5c000001 + E1.bits o)
  | .trace o => some (0x5c000002 + E2.bits o)
  | .tget o => some (0x5c000003 + EV.bits o)
  | .tresume o => some (0x5c000004 + E2.bits o)
  | .tabort o => some (0x5c000005 + C0.bits o)
  | .tstamp o => some (0x5c000006 + E2.bits o)
  | .coll o => some (0x5e000000 + E1.bits o)
  | .launchW o => some (0x5e000001 + E1.bits o)
  | .tapeW o => some (0x5e000002 + E1.bits o)
  | .lit o => some (0x7e000000 + LitW.bits o)
  | .evActiveSlotFill _ _ => none
  | .evWaveSwap _ _ => none
  | .evWatchdog _ => none
  | .evTrapEntry _ _ _ _ => none
  | .evStoreTranslationFault _ _ => none
  | .evSoftError _ _ => none
  | .evSuccessorRestart _ => none
  | .evSpill _ _ _ => none
  | .evSpillComplete _ _ _ => none
  | .evRefill _ _ _ => none
  | .evRefillComplete _ _ _ => none
  | .evOperationComplete _ _ => none
  | .evEngineDispatch _ _ => none
  | .evEngineOpFire _ => none
  | .evCopyArrival _ => none
  | .evSlotOpen _ _ _ => none
  | .evSlotAddition _ _ _ _ => none
  | .evSlotClose _ _ => none
  | .evPairOpStart _ => none
  | .evRowInjection _ => none
  | .evPairOpRetire _ => none
  | .evTokenHop _ _ => none
  | .evBurstQuietClose _ => none
  | .evBurstTimeLimit _ => none
  | .evTokenRelease _ => none
  | .evRampStep _ => none
  | .evControllerPeriod _ _ => none
  | .evThermalTripWarning _ _ => none
  | .evThermalStop _ _ => none
  | .evMarginMeasurement _ _ => none
  | .evTimingReplay _ => none
  | .evReplayRateStep _ _ _ => none
  | .evReplayThrottle _ _ => none
  | .evL1LineRefresh _ _ => none
  | .evVersionStep _ => none
  | .evBindingRelease _ => none
  | .miNop => some 0x0
  | .miFetch o => some (0x8000000 + UAK.bits o)
  | .miField o => some (0x10000000 + UDAF.bits o)
  | .miBox o => some (0x18000000 + UDA.bits o)
  | .miSort o => some (0x20000000 + UDAF.bits o)
  | .miSelect o => some (0x28000000 + USel.bits o)
  | .miPush o => some (0x30000000 + UA.bits o)
  | .miPop o => some (0x38000000 + UD.bits o)
  | .miTri o => some (0x40000000 + UA.bits o)
  | .miCaps o => some (0x48000000 + UA.bits o)
  | .miCurve o => some (0x50000000 + UA.bits o)
  | .miXform o => some (0x58000000 + UDA.bits o)
  | .miPopx => some 0x60000000
  | .miAccept => some 0x68000000
  | .miTerm => some 0x70000000
  | .miBr o => some (0x78000000 + UBr.bits o)
  | .miLoop o => some (0x80000000 + ULoop.bits o)
  | .miSetb o => some (0x88000000 + USetb.bits o)
  | .miStb o => some (0x90000000 + UStb.bits o)
  | .miYield o => some (0x98000000 + UYield.bits o)
  | .evBudgetExhausted _ _ => none
  | .evProgramStart _ => none
  | .evSend _ _ => none
  | .evRecv _ _ => none
  | .evRrs _ _ => none
  | .evRrw _ _ => none
  | .evCopy _ _ => none
  | .evWait _ _ _ _ _ => none
  | .evPelotonLoop _ _ _ => none
  | .evEndl _ _ => none
  | .evPeer _ _ _ _ _ _ => none
  | .evSrk _ _ => none
  | .evDone _ _ _ _ => none
  | .evStepx _ _ _ => none
  | .evMessageArrival _ _ => none
  | .evAbortFlit _ _ => none
  | .evLinkStop _ _ _ => none
  | .evDoorbell _ _ _ => none
  | .evLaunchEntry _ => none
  | .evTapeRun _ => none
  | .evFrameMark _ => none
  | .evLaunchConditionsHold _ _ => none
  | .evPlaceGang => none
  | .evClusterDrain _ => none
  | .evPreemptionComplete _ => none
  | .evPendingLaunchAppend _ => none
  | .evBackgroundBudgetReached _ => none
  | .evWorkgroupRetire _ => none
  | .evLaunchRetire _ => none
  | .evSplinter _ _ => none
  | .evPstatRead _ => none
  | .evQcmdEnable _ _ => none
  | .evQcmdDisable _ _ => none
  | .evQcmdSuspend _ _ => none
  | .evQcmdKill _ _ => none
  | .evKilll _ _ => none
  | .evKeyLoad _ _ => none
  | .evPflush _ _ => none
  | .evPstepWrite _ _ _ => none
  | .evRegisterWrite _ _ _ _ _ => none
  | .evHostBarAccess _ _ _ _ => none
  | .evPeerAccess _ _ _ => none
  | .evLinkStateChange _ _ _ => none
  | .evRead _ _ => none
  | .evWrite _ _ _ => none
  | .evResync => none
  | .evQuote _ => none
  | .evCert => none
  | .evColdReset => none
  | .evWarmReset => none
  | .evPortRetrain _ => none
  | .evRelease => none
  | .evKill _ => none
  | .evExtend _ _ => none
  | .evFirmwareVerify _ _ _ _ _ _ => none
  | .evBringupStep _ => none
  | .evZeroFill _ => none
  | .evModeSwitchComplete _ => none
  | .evSplinterDone _ => none
  | .evPacketArrival _ _ _ => none
  | .evBadFrame _ => none
  | .evCoreCycle _ => none
  | .evModuleReset => none

/-- The word of an instruction (R33, R344). -/
def encode (i : Instr) : Option Word := (encodeNat i).map (BitVec.ofNat 32)

/-- Is the row a micro-operation of R344. -/
def Instr.isMicro : Instr → Bool
  | .bra _ => false
  | .call _ => false
  | .ret _ => false
  | .calliS _ => false
  | .calliV _ => false
  | .jmpS _ => false
  | .jmpV _ => false
  | .exitW _ => false
  | .exitS _ => false
  | .yield _ => false
  | .elect _ => false
  | .sync _ => false
  | .syncm _ => false
  | .nop _ => false
  | .wflush _ => false
  | .quota _ => false
  | .shfl _ => false
  | .shflx _ => false
  | .shflup _ => false
  | .shfldn _ => false
  | .qswapH _ => false
  | .qswapV _ => false
  | .qswapD _ => false
  | .qbcast _ => false
  | .scanAddI32 _ => false
  | .scanAddF32 _ => false
  | .scanMaxI32 _ => false
  | .scanMinI32 _ => false
  | .xscanAddI32 _ => false
  | .voteAny _ => false
  | .voteAll _ => false
  | .ballot _ => false
  | .redwAddI32 _ => false
  | .redwMinI32 _ => false
  | .redwMaxI32 _ => false
  | .redwMinN32 _ => false
  | .redwMaxN32 _ => false
  | .redwAnd _ => false
  | .redwOr _ => false
  | .redwXor _ => false
  | .redwAddF32 _ => false
  | .redwMinF32 _ => false
  | .redwMaxF32 _ => false
  | .mov _ => false
  | .movs _ => false
  | .rdl _ => false
  | .wrl _ => false
  | .lid _ => false
  | .movp _ => false
  | .pmov _ => false
  | .movi _ => false
  | .pand _ => false
  | .por _ => false
  | .pxor _ => false
  | .pandn _ => false
  | .pnot _ => false
  | .pset _ => false
  | .pclr _ => false
  | .addI32 _ => false
  | .addI32S _ => false
  | .subI32 _ => false
  | .subI32S _ => false
  | .mulI32 _ => false
  | .mulI32S _ => false
  | .mulhI32 _ => false
  | .mulhI32S _ => false
  | .mulhN32 _ => false
  | .mulhN32S _ => false
  | .mulwI32 _ => false
  | .mulwI32S _ => false
  | .mulwN32 _ => false
  | .mulwN32S _ => false
  | .madI32 _ => false
  | .madI32S _ => false
  | .minI32 _ => false
  | .minI32S _ => false
  | .maxI32 _ => false
  | .maxI32S _ => false
  | .minN32 _ => false
  | .minN32S _ => false
  | .maxN32 _ => false
  | .maxN32S _ => false
  | .absI32 _ => false
  | .absI32S _ => false
  | .addsI32 _ => false
  | .addsI32S _ => false
  | .subsI32 _ => false
  | .subsI32S _ => false
  | .addsN32 _ => false
  | .addsN32S _ => false
  | .subsN32 _ => false
  | .subsN32S _ => false
  | .addI64 _ => false
  | .addI64S _ => false
  | .subI64 _ => false
  | .subI64S _ => false
  | .addI16x2 _ => false
  | .addI16x2S _ => false
  | .subI16x2 _ => false
  | .subI16x2S _ => false
  | .dp4I8 _ => false
  | .dp4I8S _ => false
  | .dp4N8 _ => false
  | .dp4N8S _ => false
  | .vAnd _ => false
  | .vAndS _ => false
  | .vOr _ => false
  | .vOrS _ => false
  | .vXor _ => false
  | .vXorS _ => false
  | .vAndn _ => false
  | .vAndnS _ => false
  | .shl _ => false
  | .shlS _ => false
  | .shr _ => false
  | .shrS _ => false
  | .sar _ => false
  | .sarS _ => false
  | .rotl _ => false
  | .rotlS _ => false
  | .bfxI32 _ => false
  | .bfxN32 _ => false
  | .bfi _ => false
  | .perm _ => false
  | .popc _ => false
  | .clz _ => false
  | .ctz _ => false
  | .brev _ => false
  | .fshl _ => false
  | .fshr _ => false
  | .sext8 _ => false
  | .sext16 _ => false
  | .icmp _ => false
  | .icmpS _ => false
  | .sel _ => false
  | .faddF32 _ => false
  | .faddF32S _ => false
  | .fsubF32 _ => false
  | .fsubF32S _ => false
  | .fmulF32 _ => false
  | .fmulF32S _ => false
  | .fmaF32 _ => false
  | .fmaF32S _ => false
  | .fnmaF32 _ => false
  | .fnmaF32S _ => false
  | .fminF32 _ => false
  | .fminF32S _ => false
  | .fmaxF32 _ => false
  | .fmaxF32S _ => false
  | .fabsF32 _ => false
  | .fabsF32S _ => false
  | .fnegF32 _ => false
  | .fnegF32S _ => false
  | .fsignF32 _ => false
  | .fsignF32S _ => false
  | .fldexpF32 _ => false
  | .fldexpF32S _ => false
  | .ffracF32 _ => false
  | .ffracF32S _ => false
  | .fclassF32 _ => false
  | .fclassF32S _ => false
  | .faddF16x2 _ => false
  | .faddF16x2S _ => false
  | .fmulF16x2 _ => false
  | .fmulF16x2S _ => false
  | .fmaF16x2 _ => false
  | .fmaF16x2S _ => false
  | .fminF16x2 _ => false
  | .fminF16x2S _ => false
  | .fmaxF16x2 _ => false
  | .fmaxF16x2S _ => false
  | .faddBf16x2 _ => false
  | .faddBf16x2S _ => false
  | .fmulBf16x2 _ => false
  | .fmulBf16x2S _ => false
  | .fmaBf16x2 _ => false
  | .fmaBf16x2S _ => false
  | .fminBf16x2 _ => false
  | .fminBf16x2S _ => false
  | .fmaxBf16x2 _ => false
  | .fmaxBf16x2S _ => false
  | .fdot2Bf16 _ => false
  | .fdot2Bf16S _ => false
  | .fdot2F16 _ => false
  | .fdot2F16S _ => false
  | .flerpF32 _ => false
  | .flerpF32S _ => false
  | .fcmp _ => false
  | .fcmpS _ => false
  | .fcvt _ => false
  | .frnd _ => false
  | .frcp _ => false
  | .frsq _ => false
  | .fsqrt _ => false
  | .fexp2 _ => false
  | .flog2 _ => false
  | .fsinp _ => false
  | .fcosp _ => false
  | .ftanh _ => false
  | .fdiv _ => false
  | .mxqF8e4 _ => false
  | .mxqF8e5 _ => false
  | .mxqF4 _ => false
  | .mxdqF8e4 _ => false
  | .mxdqF8e5 _ => false
  | .mxdqF4 _ => false
  | .sadd _ => false
  | .ssub _ => false
  | .smul _ => false
  | .sand _ => false
  | .sor _ => false
  | .sxor _ => false
  | .sshl _ => false
  | .sshr _ => false
  | .ssar _ => false
  | .smin _ => false
  | .smax _ => false
  | .sminn _ => false
  | .smaxn _ => false
  | .smulh _ => false
  | .sadd64 _ => false
  | .ssel _ => false
  | .scmp _ => false
  | .sbr _ => false
  | .sldW _ => false
  | .sldD _ => false
  | .sldQ _ => false
  | .sstW _ => false
  | .sstD _ => false
  | .sstQ _ => false
  | .mfs _ => false
  | .mts _ => false
  | .cinvI _ => false
  | .cinvD _ => false
  | .cwbL1 _ => false
  | .cwbL2 _ => false
  | .tlbinvPage _ => false
  | .tlbinvRange _ => false
  | .tlbinvAsid _ => false
  | .tlbinvAll _ => false
  | .brk _ => false
  | .trapW _ => false
  | .rte _ => false
  | .rqr _ => false
  | .rqw _ => false
  | .rqd _ => false
  | .ld _ => false
  | .st _ => false
  | .atom _ => false
  | .red _ => false
  | .dopen _ => false
  | .dadd _ => false
  | .dclose _ => false
  | .fence _ => false
  | .fenceAcq _ => false
  | .fenceRel _ => false
  | .waitk _ => false
  | .pf _ => false
  | .pchkV _ => false
  | .pchkS _ => false
  | .mwait _ => false
  | .pclrV _ => false
  | .pclrS _ => false
  | .ldl _ => false
  | .stl _ => false
  | .atoml _ => false
  | .salloc _ => false
  | .sfree _ => false
  | .bmode _ => false
  | .join _ => false
  | .leave _ => false
  | .rinit _ => false
  | .rinitFree _ => false
  | .rpushRes _ => false
  | .rpushCmt _ => false
  | .rpopRes _ => false
  | .rpopRel _ => false
  | .rlen _ => false
  | .presGet _ => false
  | .presSet _ => false
  | .binit _ => false
  | .barr _ => false
  | .barx _ => false
  | .barw _ => false
  | .barwS _ => false
  | .bart _ => false
  | .cpl _ => false
  | .cpls _ => false
  | .cpt _ => false
  | .cpts _ => false
  | .tdesc _ => false
  | .fmt _ => false
  | .mshape _ => false
  | .mload _ => false
  | .mmul _ => false
  | .mmulReg _ => false
  | .mdrainF32 _ => false
  | .mdrainBf16 _ => false
  | .mdrainTile _ => false
  | .mdrainRing _ => false
  | .mdrainPort _ => false
  | .mclr _ => false
  | .mstat _ => false
  | .hxcfg _ => false
  | .hxq _ => false
  | .hxqRing _ => false
  | .hxg _ => false
  | .vpub _ => false
  | .vbind _ => false
  | .tlayout _ => false
  | .tcode _ => false
  | .trace _ => false
  | .tget _ => false
  | .tresume _ => false
  | .tabort _ => false
  | .tstamp _ => false
  | .coll _ => false
  | .launchW _ => false
  | .tapeW _ => false
  | .lit _ => false
  | .evActiveSlotFill _ _ => false
  | .evWaveSwap _ _ => false
  | .evWatchdog _ => false
  | .evTrapEntry _ _ _ _ => false
  | .evStoreTranslationFault _ _ => false
  | .evSoftError _ _ => false
  | .evSuccessorRestart _ => false
  | .evSpill _ _ _ => false
  | .evSpillComplete _ _ _ => false
  | .evRefill _ _ _ => false
  | .evRefillComplete _ _ _ => false
  | .evOperationComplete _ _ => false
  | .evEngineDispatch _ _ => false
  | .evEngineOpFire _ => false
  | .evCopyArrival _ => false
  | .evSlotOpen _ _ _ => false
  | .evSlotAddition _ _ _ _ => false
  | .evSlotClose _ _ => false
  | .evPairOpStart _ => false
  | .evRowInjection _ => false
  | .evPairOpRetire _ => false
  | .evTokenHop _ _ => false
  | .evBurstQuietClose _ => false
  | .evBurstTimeLimit _ => false
  | .evTokenRelease _ => false
  | .evRampStep _ => false
  | .evControllerPeriod _ _ => false
  | .evThermalTripWarning _ _ => false
  | .evThermalStop _ _ => false
  | .evMarginMeasurement _ _ => false
  | .evTimingReplay _ => false
  | .evReplayRateStep _ _ _ => false
  | .evReplayThrottle _ _ => false
  | .evL1LineRefresh _ _ => false
  | .evVersionStep _ => false
  | .evBindingRelease _ => false
  | .miNop => true
  | .miFetch _ => true
  | .miField _ => true
  | .miBox _ => true
  | .miSort _ => true
  | .miSelect _ => true
  | .miPush _ => true
  | .miPop _ => true
  | .miTri _ => true
  | .miCaps _ => true
  | .miCurve _ => true
  | .miXform _ => true
  | .miPopx => true
  | .miAccept => true
  | .miTerm => true
  | .miBr _ => true
  | .miLoop _ => true
  | .miSetb _ => true
  | .miStb _ => true
  | .miYield _ => true
  | .evBudgetExhausted _ _ => false
  | .evProgramStart _ => false
  | .evSend _ _ => false
  | .evRecv _ _ => false
  | .evRrs _ _ => false
  | .evRrw _ _ => false
  | .evCopy _ _ => false
  | .evWait _ _ _ _ _ => false
  | .evPelotonLoop _ _ _ => false
  | .evEndl _ _ => false
  | .evPeer _ _ _ _ _ _ => false
  | .evSrk _ _ => false
  | .evDone _ _ _ _ => false
  | .evStepx _ _ _ => false
  | .evMessageArrival _ _ => false
  | .evAbortFlit _ _ => false
  | .evLinkStop _ _ _ => false
  | .evDoorbell _ _ _ => false
  | .evLaunchEntry _ => false
  | .evTapeRun _ => false
  | .evFrameMark _ => false
  | .evLaunchConditionsHold _ _ => false
  | .evPlaceGang => false
  | .evClusterDrain _ => false
  | .evPreemptionComplete _ => false
  | .evPendingLaunchAppend _ => false
  | .evBackgroundBudgetReached _ => false
  | .evWorkgroupRetire _ => false
  | .evLaunchRetire _ => false
  | .evSplinter _ _ => false
  | .evPstatRead _ => false
  | .evQcmdEnable _ _ => false
  | .evQcmdDisable _ _ => false
  | .evQcmdSuspend _ _ => false
  | .evQcmdKill _ _ => false
  | .evKilll _ _ => false
  | .evKeyLoad _ _ => false
  | .evPflush _ _ => false
  | .evPstepWrite _ _ _ => false
  | .evRegisterWrite _ _ _ _ _ => false
  | .evHostBarAccess _ _ _ _ => false
  | .evPeerAccess _ _ _ => false
  | .evLinkStateChange _ _ _ => false
  | .evRead _ _ => false
  | .evWrite _ _ _ => false
  | .evResync => false
  | .evQuote _ => false
  | .evCert => false
  | .evColdReset => false
  | .evWarmReset => false
  | .evPortRetrain _ => false
  | .evRelease => false
  | .evKill _ => false
  | .evExtend _ _ => false
  | .evFirmwareVerify _ _ _ _ _ _ => false
  | .evBringupStep _ => false
  | .evZeroFill _ => false
  | .evModeSwitchComplete _ => false
  | .evSplinterDone _ => false
  | .evPacketArrival _ _ _ => false
  | .evBadFrame _ => false
  | .evCoreCycle _ => false
  | .evModuleReset => false

/-- What the decoder reads from a table row's bits: an instruction word, or, where the word is none, a micro-operation word. -/
noncomputable def decodeTableWord (nbits w : Nat) : Option Instr :=
  if nbits = 32 then
    match decodeWord (BitVec.ofNat 32 w) with
    | .ok i => some i
    | .error _ => decodeMicro (BitVec.ofNat 32 w)
  else none

end Sys2Proof
end

