-- ==== Sys2Proof/Machine/Num.lean ====
section
/-! DEFINITION. The integer helpers of R6 and R55, and the stochastic generator of R68. -/

namespace Sys2Proof.Machine

/-- `zext(x, n)`: the low n bits, unsigned (R55). -/
def zext (x n : Nat) : Nat := x % 2 ^ n

/-- `sext(x, n)`: the low n bits, as two's complement (R55). -/
def sext (x n : Nat) : Int :=
  if x % 2 ^ n ≥ 2 ^ (n - 1) then (x % 2 ^ n : Nat) - (2 ^ n : Nat) else (x % 2 ^ n : Nat)

/-- `wrap(x, n)`: an integer modulo 2^n (R55). -/
def wrap (x : Int) (n : Nat) : Nat := (x % (2 ^ n : Nat)).toNat

/-- A wrapped 32-bit result. -/
def wrap32 (x : Int) : Word := BitVec.ofInt 32 x

/-- A wrapped 64-bit result. -/
def wrap64 (x : Int) : DWord := BitVec.ofInt 64 x

/-- `sat_i(x, n)` (R55). -/
def satI (x : Int) (n : Nat) : Int :=
  min (max x (-(2 ^ (n - 1) : Nat))) ((2 ^ (n - 1) : Nat) - 1)

/-- `sat_n(x, n)` (R55). -/
def satN (x : Int) (n : Nat) : Int := min (max x 0) ((2 ^ n : Nat) - 1)

/-- The low half of a 64-bit value. -/
def lo32 (x : DWord) : Word := x.extractLsb' 0 32

/-- The high half of a 64-bit value. -/
def hi32 (x : DWord) : Word := x.extractLsb' 32 32

/-- The pair of R54: bits 31:0 and bits 63:32. -/
def pair64 (l h : Word) : DWord := h ++ l

/-- Half h of a packed pair (R54). -/
def half (x : Word) (h : Nat) : Nat := bitsOf x.toNat (16 * h + 15) (16 * h)

/-- A packed pair from its halves (R54). -/
def packHalves (l h : Nat) : Word := BitVec.ofNat 32 (l % 65536 + 65536 * (h % 65536))

/-- Byte i of a packed quartet (R54). -/
def byteOf (x : Word) (i : Nat) : Nat := bitsOf x.toNat (8 * i + 7) (8 * i)

/-- A packed quartet from its bytes (R54). -/
def packBytes (f : Nat → Nat) : Word :=
  BitVec.ofNat 32 (f 0 % 256 + 256 * (f 1 % 256) + 65536 * (f 2 % 256) + 16777216 * (f 3 % 256))

/-- `mix32(key, counter)` (R68), with the counter's two halves. -/
def mix32 (key cHi cLo : Word) : Word :=
  let x := cLo ^^^ key
  let x := x * 0x85EBCA6B#32
  let x := x ^^^ (x >>> 13)
  let x := x ^^^ cHi
  let x := x * 0xC2B2AE35#32
  let x := x ^^^ (x >>> 16)
  let x := x * 0x2C1B3C6D#32
  x ^^^ (x >>> 15)

/-- A 57-bit address sign-extended to 64 bits (R126, R196). -/
def sext57 (x : Nat) : DWord := BitVec.ofInt 64 (sext x 57)

/-- Is an address canonical: bits 63:57 equal bit 56 (R196). -/
def canonical (a : DWord) : Bool := sext57 a.toNat == a

/-- Inserts into a list in order, before its equals. -/
def insertBy {α : Type} (le : α → α → Bool) (x : α) : List α → List α
  | [] => [x]
  | y :: r => if le x y then x :: y :: r else y :: insertBy le x r

/-- A list in order, equals in the order they had. -/
def sortBy {α : Type} (le : α → α → Bool) (l : List α) : List α := l.foldr (insertBy le) []

end Sys2Proof.Machine
end

