-- ==== Sys2Proof/Machine/Float.lean ====
section
/-! DEFINITION. Floating-point values as exact dyadic numbers, the element formats of R56, rounding (R60 to R64), microscaling blocks (R58, R59), row summation (R70), exact accumulation (R71) and the reduction tree (R72). -/

namespace Sys2Proof.Machine

/-- An exact value: NaN, an infinity, or (-1)^neg * m * 2^e. A zero keeps its sign. -/
inductive Fv where
  | nan
  | inf (neg : Bool)
  | fin (neg : Bool) (m : Nat) (e : Int)
  deriving DecidableEq, Repr

/-- A floating-point format of R56: exponent width, mantissa width M, bias, the code of its largest finite value, whether it has an infinity, its canonical NaN. -/
structure Fmt where
  ebits  : Nat
  mbits  : Nat
  bias   : Nat
  maxFin : Nat
  hasInf : Bool
  nanBits : Nat
  deriving DecidableEq, Repr

/-- f32 (R56). -/
def f32 : Fmt := ⟨8, 23, 127, 0x7F7FFFFF, true, 0x7FC00000⟩
/-- f16 (R56). -/
def f16 : Fmt := ⟨5, 10, 15, 0x7BFF, true, 0x7E00⟩
/-- bf16 (R56). -/
def bf16 : Fmt := ⟨8, 7, 127, 0x7F7F, true, 0x7FC0⟩
/-- f8e4m3 (R56). -/
def f8e4 : Fmt := ⟨4, 3, 7, 0x7E, false, 0x7F⟩
/-- f8e5m2 (R56). -/
def f8e5 : Fmt := ⟨5, 2, 15, 0x7B, true, 0x7E⟩
/-- f4e2m1 (R56); it has no NaN, and R62 gives code 0 for one. -/
def f4 : Fmt := ⟨2, 1, 1, 0x7, false, 0⟩

/-- The sign bit's place. -/
def Fmt.width (t : Fmt) : Nat := t.ebits + t.mbits

/-- The bits of a value with a sign. -/
def Fmt.signed (t : Fmt) (neg : Bool) (code : Nat) : Nat :=
  code + (if neg then 2 ^ (Fmt.width t) else 0)

/-- The exact value of a bit pattern (R56). -/
def Fmt.value (t : Fmt) (bits : Nat) : Fv :=
  let code := bits % 2 ^ (Fmt.width t)
  let neg := bitOf bits (Fmt.width t)
  let ex := code / 2 ^ t.mbits
  let m := code % 2 ^ t.mbits
  if code > t.maxFin then (if t.hasInf && m == 0 then .inf neg else .nan)
  else if ex == 0 then .fin neg m (1 - (t.bias : Int) - t.mbits)
  else .fin neg (m + 2 ^ t.mbits) ((ex : Int) - t.bias - t.mbits)

/-- Input flush of R64 and R157: a subnormal becomes the zero of its sign. -/
def Fmt.read (t : Fmt) (flush : Bool) (bits : Nat) : Fv :=
  let code := bits % 2 ^ (Fmt.width t)
  if flush && code < 2 ^ t.mbits then .fin (bitOf bits (Fmt.width t)) 0 0 else Fmt.value t bits

/-- floor(log2(m * 2^e)) for m not 0. -/
def ilog (m : Nat) (e : Int) : Int := (Nat.log2 m : Int) + e

/-- The units of 2^q nearest to m * 2^e under a mode (R60), with a draw D for the stochastic mode 4. -/
def gridRound (rm : Nat) (neg : Bool) (draw : Nat) (m : Nat) (e q : Int) : Nat :=
  if e ≥ q then m * 2 ^ (e - q).toNat
  else
    let sh := (q - e).toNat
    let lo := m / 2 ^ sh
    let r := m % 2 ^ sh
    let two := 2 * r
    let up : Bool :=
      if r == 0 then false
      else match rm with
        | 0 => two > 2 ^ sh || (two == 2 ^ sh && lo % 2 == 1)
        | 1 => false
        | 2 => neg
        | 3 => !neg
        | 4 => draw < 2 ^ 32 * r / 2 ^ sh
        | _ => two ≥ 2 ^ sh
    if up then lo + 1 else lo

/-- `round(x, ty, rm, sat, flush)` for a floating-point type (R60 to R62, R64); the result is a bit pattern. -/
def Fmt.round (t : Fmt) (rm : Nat) (sat flush : Bool) (draw : Nat) : Fv → Nat
  | .nan => t.nanBits
  | .inf neg =>
    if sat || !t.hasInf then Fmt.signed t neg t.maxFin else Fmt.signed t neg (t.maxFin + 1)
  | .fin neg m e =>
    if m == 0 then Fmt.signed t neg 0
    else
      let emin : Int := 1 - (t.bias : Int)
      let q := max (ilog m e) emin - t.mbits
      let n := gridRound rm neg draw m e q
      let code := (q + t.mbits + t.bias - 1).toNat * 2 ^ t.mbits + n
      if code > t.maxFin then
        let toInf : Bool :=
          if sat || !t.hasInf then false
          else match rm with
            | 1 => false
            | 2 => neg
            | 3 => !neg
            | _ => true
        Fmt.signed t neg (if toInf then t.maxFin + 1 else t.maxFin)
      else if flush && code < 2 ^ t.mbits then Fmt.signed t neg 0
      else Fmt.signed t neg code

/-- An exact value rounded to an integer under a mode (R63). -/
def Fv.toInt (rm draw : Nat) : Fv → Int
  | .fin neg m e =>
    let n : Int := gridRound rm neg draw m e 0
    if neg then -n else n
  | _ => 0

/-- `round` to a signed integer type of n bits (R62, R63). -/
def roundI (n rm draw : Nat) : Fv → Int
  | .nan => 0
  | .inf neg => if neg then -(2 ^ (n - 1) : Nat) else (2 ^ (n - 1) : Nat) - 1
  | x => satI (Fv.toInt rm draw x) n

/-- `round` to an unsigned integer type of n bits (R62, R63). -/
def roundN (n rm draw : Nat) : Fv → Int
  | .nan => 0
  | .inf neg => if neg then 0 else (2 ^ n : Nat) - 1
  | x => satN (Fv.toInt rm draw x) n

/-- `round` to e8m0 (R62, R63). -/
def roundE8 (rm draw : Nat) : Fv → Nat
  | .nan => 0xFF
  | .inf _ => 254
  | .fin _ m e =>
    if m == 0 then 0
    else
      let k := ilog m e
      let one := 2 ^ Nat.log2 m
      let r := m - one
      let up : Bool :=
        if r == 0 then false
        else match rm with
          | 0 => 2 * r > one || (2 * r == one && (k + 127) % 2 == 1)
          | 1 => false
          | 2 => false
          | 3 => true
          | 4 => draw < 2 ^ 32 * r / one
          | _ => 2 * r ≥ one
      (min (max (k + 127 + (if up then 1 else 0)) 0) 254).toNat

/-- The value of an e8m0 code (R56). -/
def e8Value (code : Nat) : Fv :=
  if code % 256 == 255 then .nan else .fin false 1 ((code % 256 : Nat) - 127)

/-- An integer as an exact value. -/
def Fv.ofInt (x : Int) : Fv := .fin (x < 0) x.natAbs 0

/-- Is the value a NaN. -/
def Fv.isNan : Fv → Bool | .nan => true | _ => false
/-- Is the value an infinity. -/
def Fv.isInf : Fv → Bool | .inf _ => true | _ => false
/-- Is the value a zero. -/
def Fv.isZero : Fv → Bool | .fin _ m _ => m == 0 | _ => false
/-- The sign. -/
def Fv.neg? : Fv → Bool | .nan => false | .inf n => n | .fin n _ _ => n
/-- The value with the other sign. -/
def Fv.opp : Fv → Fv | .nan => .nan | .inf n => .inf (!n) | .fin n m e => .fin (!n) m e

/-- The exact product (R158). -/
def Fv.mul : Fv → Fv → Fv
  | .nan, _ => .nan
  | _, .nan => .nan
  | .inf a, .inf b => .inf (a != b)
  | .inf a, .fin b m _ => if m == 0 then .nan else .inf (a != b)
  | .fin a m _, .inf b => if m == 0 then .nan else .inf (a != b)
  | .fin a m e, .fin b n f => .fin (a != b) (m * n) (e + f)

/-- A finite value in units of 2^q, for q at most its exponent. -/
def Fv.units (q : Int) : Fv → Int
  | .fin neg m e => if neg then -((m * 2 ^ (e - q).toNat : Nat) : Int) else ((m * 2 ^ (e - q).toNat : Nat) : Int)
  | _ => 0

/-- The exponent of a finite value; a zero imposes none. -/
def Fv.exp? : Fv → Option Int
  | .fin _ m e => if m == 0 then none else some e
  | _ => none

/-- The least exponent among the non-zero terms. -/
def minExp (l : List Fv) : Int :=
  match l.filterMap Fv.exp? with
  | [] => 0
  | e :: r => r.foldl min e

/-- The exact sum of a list, with the zero sign of R62 and the invalid cases of R158. -/
def Fv.sum (rdn : Bool) (l : List Fv) : Fv :=
  if l.any Fv.isNan then .nan
  else if l.any (fun x => x == .inf true) && l.any (fun x => x == .inf false) then .nan
  else match l.find? Fv.isInf with
    | some x => x
    | none =>
      let q := minExp l
      let s := l.foldl (fun acc x => acc + (if Fv.isZero x then 0 else Fv.units q x)) (0 : Int)
      if s == 0 then
        .fin (if l.all Fv.neg? then true else if l.any Fv.neg? then rdn else false) 0 0
      else .fin (s < 0) s.natAbs q

/-- Comparison of two values that are not NaN: true when the first is smaller. -/
def Fv.lt : Fv → Fv → Bool
  | .inf true, .inf true => false
  | .inf true, _ => true
  | .inf false, _ => false
  | .fin _ _ _, .inf n => !n
  | .fin a m e, .fin b n f =>
    let q := minExp [.fin a m e, .fin b n f]
    let u := if m == 0 then 0 else Fv.units q (.fin a m e)
    let v := if n == 0 then 0 else Fv.units q (.fin b n f)
    u < v
  | _, _ => false

/-- Equality of two values that are not NaN; the zeros are equal. -/
def Fv.eqv (a b : Fv) : Bool := !Fv.isNan a && !Fv.isNan b && !Fv.lt a b && !Fv.lt b a

/-- floor of a finite value. -/
def Fv.floor : Fv → Int
  | .fin neg m e => Fv.toInt 2 0 (.fin neg m e)
  | _ => 0

/-- The bits of an input after its flush (R160). -/
def flushBits (t : Fmt) (flush : Bool) (bits : Nat) : Nat :=
  let code := bits % 2 ^ (Fmt.width t)
  if flush && code < 2 ^ t.mbits then Fmt.signed t (bitOf bits (Fmt.width t)) 0 else bits

/-- fmin of R160 on flushed bit patterns. -/
def fminBits (t : Fmt) (flush : Bool) (a b : Nat) : Nat :=
  let a := flushBits t flush a
  let b := flushBits t flush b
  let x := Fmt.value t a
  let y := Fmt.value t b
  if Fv.isNan x && Fv.isNan y then t.nanBits
  else if Fv.isNan x then b
  else if Fv.isNan y then a
  else if Fv.isZero x && Fv.isZero y then Fmt.signed t (Fv.neg? x || Fv.neg? y) 0
  else if Fv.lt y x then b else a

/-- fmax of R160 on flushed bit patterns. -/
def fmaxBits (t : Fmt) (flush : Bool) (a b : Nat) : Nat :=
  let a := flushBits t flush a
  let b := flushBits t flush b
  let x := Fmt.value t a
  let y := Fmt.value t b
  if Fv.isNan x && Fv.isNan y then t.nanBits
  else if Fv.isNan x then b
  else if Fv.isNan y then a
  else if Fv.isZero x && Fv.isZero y then Fmt.signed t (Fv.neg? x && Fv.neg? y) 0
  else if Fv.lt x y then b else a

/-- fclass of R161: one bit of the mask. -/
def fclassBits (bits : Nat) : Nat :=
  let neg := bitOf bits 31
  let code := bits % 2 ^ 31
  if code > 0x7F800000 then 2 ^ 8
  else if code == 0x7F800000 then (if neg then 2 ^ 0 else 2 ^ 7)
  else if code == 0 then (if neg then 2 ^ 3 else 2 ^ 4)
  else if code < 2 ^ 23 then (if neg then 2 ^ 2 else 2 ^ 5)
  else (if neg then 2 ^ 1 else 2 ^ 6)

/-- f32 addition of R72: rounded under rne, inputs and result flushed under the given bit. -/
def fadd72 (flush : Bool) (a b : Nat) : Nat :=
  Fmt.round f32 0 false flush 0 (Fv.sum false [Fmt.read f32 flush a, Fmt.read f32 flush b])

/-- One level of R72: neighbouring results combined, the lower lane first. -/
def treeLevel (op : Nat → Nat → Nat) : List Nat → List Nat
  | a :: b :: r => op a b :: treeLevel op r
  | l => l

/-- `tree_reduce` of R72 over 64 values. -/
def treeReduce (op : Nat → Nat → Nat) (x : List Nat) : Nat :=
  ((treeLevel op (treeLevel op (treeLevel op (treeLevel op (treeLevel op (treeLevel op x)))))).head?).getD 0

/-- `mx_dequant(S, e)` (R58). -/
def mxDequant (t : Fmt) (s e : Nat) : Fv :=
  if s % 256 == 255 then .nan
  else match Fmt.value t e with
    | .fin neg m x => .fin neg m (x + ((s % 256 : Nat) - 127))
    | v => v

/-- EMAX of R59. -/
def Fmt.emax (t : Fmt) : Int := (t.maxFin / 2 ^ t.mbits : Nat) - (t.bias : Int)

/-- The value scaled by 2^k. -/
def Fv.scale (k : Int) : Fv → Fv
  | .fin neg m e => .fin neg m (e + k)
  | v => v

/-- `mx_quant(x[0..31], ty, rm)` (R59), with one draw per element: the code, the elements, the overflow flag. -/
def mxQuant (t : Fmt) (rm : Nat) (draws : List Nat) (x : List Fv) : Nat × List Nat × Bool :=
  let elems (k : Int) : List Nat :=
    (x.zip draws).map (fun p => Fmt.round t rm true false p.2 (Fv.scale (-k) p.1))
  if x.any Fv.isNan then (255, x.map (fun _ => t.nanBits), false)
  else if x.any Fv.isInf then (254, elems 127, true)
  else
    let es := x.filterMap (fun v => match v with
      | .fin _ m e => if m == 0 then none else some (ilog m e)
      | _ => none)
    match es with
    | [] => (0, x.map (fun _ => 0), false)
    | e :: r =>
      let k := r.foldl max e - Fmt.emax t
      if k > 127 then (254, elems 127, true)
      else
        let k := max k (-127)
        ((k + 127).toNat, elems k, false)

/-- `rowsum_f32(acc, p)` (R70), on the accumulator's bits. -/
def rowsumF (acc : Nat) (p : List Fv) : Nat :=
  let t : Fv :=
    if p.any Fv.isNan || (p.any (fun x => x == .inf true) && p.any (fun x => x == .inf false)) then .nan
    else match p.find? Fv.isInf with
      | some x => x
      | none =>
        let nz := p.filter (fun x => !Fv.isZero x)
        match nz.filterMap (fun v => match v with
          | .fin _ m e => some (ilog m e)
          | _ => none) with
        | [] => .fin (p.all Fv.neg?) 0 0
        | e :: r =>
          let u := r.foldl max e - 60
          let s := nz.foldl (fun acc v => match v with
            | .fin neg m x =>
              let k : Int := (gridRound 1 neg 0 m x u : Nat)
              acc + (if neg then -k else k)
            | _ => acc) (0 : Int)
          Fmt.value f32 (Fmt.round f32 0 false false 0 (.fin (s < 0) s.natAbs u))
  Fmt.round f32 0 false false 0 (Fv.sum false [Fmt.value f32 acc, t])

/-- An exact-accumulation slot (R71). -/
structure XSlot where
  sum  : Int
  nan  : Bool
  pinf : Bool
  ninf : Bool
  ovf  : Bool
  n    : Nat
  deriving DecidableEq, Repr

/-- An open slot's first state (R71). -/
def XSlot.empty : XSlot := ⟨0, false, false, false, false, 0⟩

/-- `xacc_add(slot, x)` (R71). -/
def XSlot.add (s : XSlot) (x : Fv) : XSlot :=
  let s := match x with
    | .nan => { s with nan := true }
    | .inf false => { s with pinf := true }
    | .inf true => { s with ninf := true }
    | .fin neg m e =>
      let k : Int := (gridRound 1 false 0 m (e + 149) 0 : Nat)
      { s with sum := s.sum + (if neg then -k else k) }
  if s.n + 1 == 2 ^ 40 then { s with ovf := true, n := 2 ^ 40 - 1 } else { s with n := s.n + 1 }

/-- `xacc_close(slot)` (R71): the f32 pattern. -/
def XSlot.close (s : XSlot) : Nat :=
  if s.nan || s.ovf || (s.pinf && s.ninf) then f32.nanBits
  else if s.pinf then 0x7F800000
  else if s.ninf then 0xFF800000
  else Fmt.round f32 0 false false 0 (.fin (s.sum < 0) s.sum.natAbs (-149))

end Sys2Proof.Machine
end

