-- ==== Sys2Proof/Machine/Special.lean ====
section
/-! DEFINITION. The special functions of R170 and R171, correctly rounded: each exact value is given as a dyadic number that lies on the same side of every rounding point, with its last bit set when the value is not dyadic. -/

namespace Sys2Proof.Machine

/-- The number of fraction bits of the fixed-point series. -/
def fxP : Nat := 320

/-- floor(pi * 2^320). -/
def fxPi : Nat := 0x3243f6a8885a308d313198a2e03707344a4093822299f31d0082efa98ec4e6c89452821e638d01377
/-- floor(ln 2 * 2^320). -/
def fxLn2 : Nat := 0xb17217f7d1cf79abc9e3b39803f2f6af40f343267298b62d8a0d175b8baafa2be7b876206debac98
/-- floor(log2 e * 2^320). -/
def fxLog2e : Nat := 0x171547652b82fe1777d0ffda0d23a7d11d6aef551bad2b4b1164a2cd9a342648fbc3887eeaa2ed9ac

/-- Product in fixed point. -/
def fxMul (a b : Nat) : Nat := a * b / 2 ^ fxP

/-- The exponential series: terms from the nth on. -/
def fxExpTerms (x : Nat) : Nat → Nat → Nat → Nat → Nat
  | 0, _, _, acc => acc
  | k + 1, n, t, acc =>
    let t := fxMul t x / n
    fxExpTerms x k (n + 1) t (acc + t)

/-- exp(x) for x below 1, in fixed point. -/
def fxExp (x : Nat) : Nat := fxExpTerms x 70 1 (2 ^ fxP) (2 ^ fxP)

/-- An alternating series with the ratio x^2 / (n (n + 1)). -/
def fxAltTerms (x2 : Nat) : Nat → Nat → Nat → Bool → Int → Int
  | 0, _, _, _, acc => acc
  | k + 1, n, t, sub, acc =>
    let t := fxMul t x2 / (n * (n + 1))
    fxAltTerms x2 k (n + 2) t (!sub) (if sub then acc - t else acc + t)

/-- sin(x) for x below 1, in fixed point. -/
def fxSin (x : Nat) : Nat := (fxAltTerms (fxMul x x) 40 2 x true x).toNat

/-- cos(x) for x in (0, 1), in fixed point, below 1. -/
def fxCos (x : Nat) : Nat :=
  min (fxAltTerms (fxMul x x) 40 1 (2 ^ fxP) true (2 ^ fxP : Nat)).toNat (2 ^ fxP - 1)

/-- An inexact non-negative fixed-point value as a dyadic with its last bit set. -/
def fxSticky (neg : Bool) (y : Nat) (e : Int) : Fv := .fin neg (2 * y + 1) (e - 1)

/-- Integer square root, one bit a step from bit k - 1. -/
def isqrtBits (n : Nat) : Nat → Nat → Nat
  | 0, r => r
  | k + 1, r => isqrtBits n k (if (r + 2 ^ k) * (r + 2 ^ k) ≤ n then r + 2 ^ k else r)

/-- The quotient of two values (R171 gives the special cases). -/
def Fv.div : Fv → Fv → Fv
  | .nan, _ => .nan
  | _, .nan => .nan
  | .inf _, .inf _ => .nan
  | .inf a, .fin b _ _ => .inf (a != b)
  | .fin a _ _, .inf b => .fin (a != b) 0 0
  | .fin a m e, .fin b n f =>
    if n == 0 then (if m == 0 then .nan else .inf (a != b))
    else if m == 0 then .fin (a != b) 0 0
    else
      let y := m * 2 ^ 128 / n
      if y * n == m * 2 ^ 128 then .fin (a != b) y (e - f - 128)
      else fxSticky (a != b) y (e - f - 128)

/-- 1/a. -/
def Fv.rcp (a : Fv) : Fv := Fv.div (.fin false 1 0) a

/-- The square root. -/
def Fv.sqrt : Fv → Fv
  | .nan => .nan
  | .inf neg => if neg then .nan else .inf false
  | .fin neg m e =>
    if m == 0 then .fin neg 0 0
    else if neg then .nan
    else
      let s : Nat := 128 + (e % 2).toNat
      let n := m * 2 ^ s
      let r := isqrtBits n 100 0
      if r * r == n then .fin false r ((e - s) / 2) else fxSticky false r ((e - s) / 2)

/-- 1/sqrt(a). -/
def Fv.rsqrt : Fv → Fv
  | .nan => .nan
  | .inf neg => if neg then .nan else .fin false 0 0
  | .fin neg m e =>
    if m == 0 then .inf neg
    else if neg then .nan
    else
      let t : Nat := 180 + (e % 2).toNat
      let r := isqrtBits (2 ^ t / m) 100 0
      if r * r * m == 2 ^ t then .fin false r (-((e + t) / 2)) else fxSticky false r (-((e + t) / 2))

/-- 2^a. -/
def Fv.exp2 : Fv → Fv
  | .nan => .nan
  | .inf neg => if neg then .fin false 0 0 else .inf false
  | .fin neg m e =>
    if m == 0 then .fin false 1 0
    else if ilog m e ≥ 8 then .fin false 1 (if neg then -400 else 400)
    else
      let x : Int := Fv.units (-(fxP : Int)) (.fin neg m e)
      let n := x / (2 ^ fxP : Nat)
      let f := (x % (2 ^ fxP : Nat)).toNat
      if f == 0 then .fin false 1 n
      else fxSticky false (fxExp (fxMul f fxLn2)) (n - fxP)

/-- The bits of log2 of a number in [1, 2), one squaring a bit. -/
def fxLogBits : Nat → Nat → Nat → Nat
  | 0, _, acc => acc
  | k + 1, y, acc =>
    let y := fxMul y y
    if y ≥ 2 ^ (fxP + 1) then fxLogBits k (y / 2) (2 * acc + 1) else fxLogBits k y (2 * acc)

/-- log2(a). -/
def Fv.log2 : Fv → Fv
  | .nan => .nan
  | .inf neg => if neg then .nan else .inf false
  | .fin neg m e =>
    if m == 0 then .inf true
    else if neg then .nan
    else
      let k := Nat.log2 m
      let n : Int := e + k
      if m == 2 ^ k then .fin (n < 0) n.natAbs 0
      else
        let s : Int := n * (2 ^ 180 : Nat) + (fxLogBits 180 (m * 2 ^ fxP / 2 ^ k) 0 : Nat)
        let v := 2 * s + 1
        .fin (v < 0) v.natAbs (-181)

/-- sin(pi x) for x in [0, 2) given in fixed point: exact zero and one, or sticky. -/
def fxSinPi (neg : Bool) (x : Nat) : Fv :=
  let neg' := if x ≥ 2 ^ fxP then !neg else neg
  let q := x % 2 ^ fxP
  let q := if q > 2 ^ (fxP - 1) then 2 ^ fxP - q else q
  if q == 0 then .fin neg 0 0
  else if q == 2 ^ (fxP - 1) then .fin neg' 1 0
  else if q > 2 ^ (fxP - 2) then fxSticky neg' (fxCos (fxMul (2 ^ (fxP - 1) - q) fxPi)) (-(fxP : Int))
  else fxSticky neg' (fxSin (fxMul q fxPi)) (-(fxP : Int))

/-- A magnitude modulo 2, in fixed point; exact for every f32. -/
def fxMod2 (m : Nat) (e : Int) : Nat := m * 2 ^ (e + fxP).toNat % 2 ^ (fxP + 1)

/-- sin(pi a): an integer gives the zero of a's sign (R171). -/
def Fv.sinPi : Fv → Fv
  | .fin neg m e =>
    if m == 0 then .fin neg 0 0
    else if ilog m e < -40 then fxSticky neg (m * fxPi) (e - fxP)
    else fxSinPi neg (fxMod2 m e)
  | _ => .nan

/-- cos(pi a): a half-integer gives +0 (R171). -/
def Fv.cosPi : Fv → Fv
  | .fin _ m e =>
    if m == 0 then .fin false 1 0
    else
      match fxSinPi false ((fxMod2 m e + 2 ^ (fxP - 1)) % 2 ^ (fxP + 1)) with
      | .fin s 0 x => .fin (s && false) 0 x
      | v => v
  | _ => .nan

/-- tanh(a). -/
def Fv.tanh : Fv → Fv
  | .nan => .nan
  | .inf neg => .fin neg 1 0
  | .fin neg m e =>
    if m == 0 then .fin neg 0 0
    else if ilog m e < -40 then .fin neg (m * 2 ^ 80 - 1) (e - 80)
    else if ilog m e ≥ 4 then .fin neg (2 ^ 80 - 1) (-80)
    else
      let a := m * 2 ^ (e + fxP).toNat
      let y := fxMul (2 * a) fxLog2e
      let n := y / 2 ^ fxP
      let t := 2 ^ (2 * fxP) / fxExp (fxMul (y % 2 ^ fxP) fxLn2) / 2 ^ n
      fxSticky neg ((2 ^ fxP - t) * 2 ^ fxP / (2 ^ fxP + t)) (-(fxP : Int))

end Sys2Proof.Machine
end

