-- ==== Sys2Proof/Machine/Types.lean ====
section
/-! DEFINITION. The plain-data parts of the machine's state: registers, waves, workgroups, clusters, queues and the device's units. Each field's docstring names the rule that gives the machine that state. -/

namespace Sys2Proof.Machine

/-- A set of lanes: bit l is lane l (R9). -/
abbrev Mask := DWord

/-- Main memory, cluster SRAM and host memory by 52-bit physical address (R197), in canonical form: addresses rising, no zero byte listed. -/
abbrev Memory := List Host.Cell

/-- A scalar register or a vector element: 32 bits and a poison bit (R108, R73). -/
structure Elem where
  v : Word
  p : Bool
  deriving DecidableEq, Repr

/-- A vector register (R101 to R103): live mask, poison mask, whether it is uniform, one value per lane. -/
structure VReg where
  live : Mask
  pois : Mask
  unif : Bool
  vals : List Word
  deriving DecidableEq, Repr

/-- The states of an allocated position or frame (R123, R135); an absent one is unallocated. -/
inductive SlotSt where
  | resident
  | spilling
  | spilled
  | refilling
  deriving DecidableEq, Repr

/-- A window position (R123); while it is spilled, what it held (R141), while it is refilling, what the refill has read; `cut`: the lanes whose elements died while the contents stood in memory (R131). -/
structure Slot where
  st  : SlotSt
  reg : VReg
  cut : Mask
  deriving DecidableEq, Repr

/-- A return-stack frame (R126): entry mask, uniform or full, one 64-bit entry per lane; while it is spilled, what it held (R141). -/
structure Frame where
  st      : SlotSt
  unif    : Bool
  mask    : Mask
  entries : List DWord
  deriving DecidableEq, Repr

/-- A predicate register (R109): values and poison, one bit per lane. -/
structure PReg where
  v : Mask
  p : Mask
  deriving DecidableEq, Repr

/-- A flag (R110). -/
structure FReg where
  v : Bool
  p : Bool
  deriving DecidableEq, Repr

/-- An architectural register that the scoreboard tracks (R24, R82). A vector name is resolved to its fixed register or its position (R99). -/
inductive RegId where
  | fixed (n : Nat)
  | pos (p : Nat)
  | frame (f : Nat)
  | scal (n : Nat)
  | pred (k : Nat)
  | flag (q : Nat)
  | special (n : Nat)
  | bar (b : Nat)
  | desc (i : Nat)
  | bank (n : Nat)
  | slot (n : Nat)
  | bind (k : Nat)
  deriving DecidableEq, Repr

/-- A captured per-lane word (R432, R433): a replay entry image's content; `ops` holds the five operand rows va, vx to vx+3. `subset`, which the image does not hold, is the issue subset of its chain (R429). -/
structure Replay where
  w0 : Word
  w1 : Word
  w2 : Word
  valid   : Bool
  nlit    : Nat
  cls     : Nat
  faulted : Bool
  fcode   : BitVec 8
  mask    : Mask
  subset  : Mask
  pc      : DWord
  wb      : Nat
  base    : DWord
  offset  : DWord
  sdata   : List Word
  faddr   : DWord
  ops     : List (List Word)
  deriving DecidableEq, Repr

/-- An issued word, fence or `wflush` that has not left the core (R432, R234, R142). A flush holds the writes of each item (index, frame) of its snapshot. -/
inductive Pend where
  | word (id : Nat) (r : Replay)
  | fence (id : Nat) (acq rel : Bool) (scope : Nat)
  | flush (id : Nat) (items : List ((Nat × Bool) × List (DWord × List Byte)))
  deriving DecidableEq, Repr

/-- An outstanding operation of a counter class, in issue order (R239): whether it is done, the registers it has still to write (R82), and the bytes (address, count) that it has stored into its cluster L1 only (R231). -/
structure OutOp where
  id    : Nat
  cls   : Nat
  done  : Bool
  dests : List RegId
  foot  : List (Nat × Nat)
  deriving DecidableEq, Repr

/-- Where a pending trap comes from (R140, R427): its fields stand as recorded, or TRLM, TRPC and TRWB are found when it is taken, for a spill or for the refill of a position or frame. -/
inductive PSrc where
  | fixed
  | spill
  | refill (frame : Bool) (idx : Nat)
  deriving DecidableEq, Repr

/-- A pending trap of R427 step 2; `num` is the number of a `brk` or `trap` whose exception waits behind a trap at issue; `raised` says that it was detected while the wave's handler ran (R430). -/
structure PTrap where
  src  : PSrc
  code : BitVec 8
  num  : BitVec 8
  raised : Bool
  trlm : Mask
  tram : Mask
  trpc : DWord
  trwb : Nat
  trpa : DWord
  deriving DecidableEq, Repr

/-- A pending launch of a wave (R397): record, target queue, depth. -/
structure PLaunch where
  record : DWord
  queue  : Nat
  depth  : Nat
  deriving DecidableEq, Repr

/-- A version binding (R322): header address, version, the snapshot of the header. -/
structure VBind where
  header : DWord
  ver    : Nat
  snap   : List Byte
  deriving DecidableEq, Repr

/-- A release of a binding that has still to take effect (R324): header, version, address space, the wave and the first operation number after the releasing event. -/
structure Release where
  header : DWord
  ver    : Nat
  asid   : Nat
  core   : Nat
  wave   : Nat
  before : Nat
  lnch   : Word
  deriving DecidableEq, Repr

/-- A traversal binding (R334): the address and the image read from it. -/
structure TBind where
  addr  : DWord
  image : List Byte
  deriving DecidableEq, Repr

/-- The state of a lane's ray slot (R444): `resuming` is that of a ray whose record a `tresume` has claimed and whose snapshots it has still to take (R374), `suspending` that of one whose record is being written (R356, R371). -/
inductive RaySt where
  | running
  | resuming
  | suspending
  | finished
  deriving DecidableEq, Repr

/-- A candidate or committed hit (R343): valid, t, u, v, primitive handle, instance identifier, kind. -/
structure RHit where
  valid : Bool
  t : Word
  u : Word
  v : Word
  prim : Word
  inst : Word
  kind : Nat
  deriving DecidableEq, Repr

/-- A lane's ray slot that is not empty (R334, R343): the operation that filled it, the two snapshots, the micro-program's state, the node buffer, the record base; once finished its code, its detail and the index at which it resumes (R358). `rf` is the FETCH that a resumption asks for (R373); `todo` names the 8-byte units of its record that a suspension has still to write (R371). -/
structure Ray where
  st   : RaySt
  op   : Nat
  lay  : TBind
  code : TBind
  mpc  : Nat
  lim  : Bool
  budget : Word
  rf   : Option (Nat × Nat)
  stamp : Bool
  qerr  : Bool
  slost : Bool
  h     : Bool
  inInst : Bool
  xd    : Nat
  stack : List Word
  regs  : List Word
  org   : List Word
  dir   : List Word
  tmin  : Word
  tmax  : Word
  inb   : DWord
  ipb   : DWord
  iorg  : List Word
  idir  : List Word
  ihnd  : Word
  iid   : Word
  cand  : RHit
  hit   : RHit
  node  : List Byte
  nodeClass : Nat
  nodeAddr  : DWord
  rsb   : DWord
  res    : Nat
  detail : Nat
  rmpc   : Nat
  todo   : List Nat
  deriving DecidableEq, Repr

/-- Why a key is held in a turn: a long or a short stall of R76; among them a wait for a token of a pair (R301), a wait for the refill of a position or frame (R125), a call's wait for its frame's refill (R136), a `barw` on a register and parity (R256); or a hold for room (R104). `ready` stands for a key that is held by none of these. -/
inductive Stall where
  | long
  | short
  | token (pair : Nat)
  | refill (idx : Nat) (frame : Bool)
  | frame (f : Nat)
  | barrier (b p : Nat)
  | room
  | ready
  deriving DecidableEq, Repr

/-- A wave (R9, R74, R99 to R111, R126, R239, R431). `stalls` lists how its keys stood when it was last examined (R76); `carried`: the fences that wait for entries held for `rte`, each with how many of them go before it (R234, R432); `noRefill`: the items (index, frame) whose refill was cancelled since the last `rte` (R140); `born`: the first operation number that its registers take results of, since its start or restart (R94). -/
structure Wave where
  wg     : Nat
  wid    : Nat
  core   : Nat
  rslot  : Nat
  active : Option Nat
  since  : Nat
  fresh  : Bool
  pcs    : List DWord
  wbs    : List Nat
  ages   : List Nat
  exited  : Mask
  helper  : Mask
  waiting : Mask
  epmask  : Mask
  exited0 : Mask
  helper0 : Mask
  preds  : List PReg
  flags  : List FReg
  scal   : Tbl Elem
  vfix   : Tbl VReg
  win    : Tbl Slot
  frames : Tbl Frame
  wlim   : Nat
  wsp    : DWord
  quota  : Nat
  wdog   : Word
  fpm    : Word
  fmt    : Word
  shape  : BitVec 6
  tokw   : Word
  scount : Word
  cycLatch  : Word
  stepLatch : Word
  trc    : BitVec 8
  trlm   : Mask
  tram   : Mask
  trpc   : DWord
  trwb   : Nat
  trpa   : DWord
  trqn   : Nat
  trnum  : BitVec 8
  tbas   : DWord
  tfrm   : DWord
  tbasLo : Option Word
  tfrmLo : Option Word
  handler : Bool
  hexit  : Mask
  hwait  : Mask
  hmask  : Mask
  held   : List Replay
  carried : List (Nat × Pend)
  pend   : List Pend
  outs   : List OutOp
  ptraps : List PTrap
  preempt : Bool
  noSpill : Bool
  firstPoison : Option (DWord × BitVec 8)
  launches : List PLaunch
  blocked : Mask
  vbind  : Option VBind
  tlay   : Option TBind
  tcode  : Option TBind
  rays   : Tbl Ray
  stalls : List Stall
  noRefill : List (Nat × Bool)
  born   : Nat
  ended  : Bool
  deriving DecidableEq, Repr

/-- A barrier register (R252). -/
structure Bar where
  e : Nat
  pend : Nat
  ph : Bool
  err : Bool
  ecode : BitVec 8
  lerr : Bool
  lcode : BitVec 8
  deriving DecidableEq, Repr

/-- A tensor descriptor slot (R257): 256 bytes, or poisoned. -/
structure Desc where
  bytes : List Byte
  pois  : Bool
  deriving DecidableEq, Repr

/-- A workgroup's successor choice (R93). -/
inductive Succ where
  | unset
  | stop
  | entry (e : DWord)
  deriving DecidableEq, Repr

/-- An allocation of scratchpad blocks (R181): first local address, 4 KiB blocks, whether placement made it. -/
structure Alloc where
  base   : Nat
  blocks : Nat
  deriving DecidableEq, Repr

/-- A workgroup (R15). -/
structure Workgroup where
  gang   : Nat
  index  : Nat
  core   : Nat
  waves  : List Nat
  bars   : List Bar
  descs  : List Desc
  succ   : Succ
  allocs : List Alloc
  group  : Option Nat
  autoBanks : List Nat
  killed : Bool
  deriving DecidableEq, Repr

/-- The states of a gang (R388 to R392, R440). -/
inductive GangSt where
  | placed
  | saving
  | saved
  deriving DecidableEq, Repr

/-- A gang (R9, R16): its launch, coordinates, workgroups in order, cluster, lowest core, sharing group, the order of its placement. -/
structure Gang where
  launch : Nat
  gx : Nat
  gy : Nat
  gz : Nat
  wgs  : List Nat
  size : Nat
  low  : Nat
  st   : GangSt
  autoGroup : Option Nat
  order : Nat
  tries : Nat
  drain : Option Nat
  slots : List Nat
  deriving DecidableEq, Repr

/-- A launch record's fields (R383, R384). -/
structure LRec where
  entry : DWord
  argp  : DWord
  gx : Nat
  gy : Nat
  gz : Nat
  gsize : Nat
  waves : Nat
  flags : Nat
  prio  : Nat
  depth : Nat
  wlim  : Nat
  quota : Nat
  spad  : Nat
  spbase : DWord
  spstr  : Nat
  wdog   : Word
  cond0  : DWord × DWord
  cond1  : DWord × DWord
  done   : DWord × DWord
  tbas   : DWord
  tfrb   : DWord
  user   : List Word
  deriving DecidableEq, Repr

/-- A launch (R9, R403), with what has held of its conditions (R386) and the index of its next gang in placement order (R387). -/
structure Launch where
  lnch  : Word
  c0    : Bool
  c1    : Bool
  queue : Nat
  asid  : Nat
  lrec  : LRec
  depth : Nat
  err   : Bool
  next  : Nat
  live  : List Nat
  killed : Bool
  tape  : Bool
  deriving DecidableEq, Repr

/-- What the head of a queue is doing (R382, R386, R399). -/
inductive Head where
  | none
  | launch (id : Nat)
  | tape (running : Option Nat)
  deriving DecidableEq, Repr

/-- A queue (R379 to R382, R387, R449). `seq` is the LNCH sequence; `tries` and `drain` are the attempts of its head gang and the lowest core of the set drained for it (R391); `depths` the depths of the entries that `launch` appended, by index (R397). -/
structure Queue where
  en    : Bool
  susp  : Bool
  res   : Nat
  rbase : DWord
  rsz   : Nat
  ctl   : Nat
  asid  : Nat
  wr    : Word
  rd    : Word
  stat  : Nat
  tbase : DWord
  ttop  : Nat
  errcnt  : Word
  lasterr : Word
  budget : DWord
  used   : DWord
  seq    : Nat
  head   : Head
  tries  : Nat
  drain  : Option Nat
  depths : List (Nat × Nat)
  deriving DecidableEq, Repr

/-- A valid entry held by a translation buffer (R203), a leaf or a table entry: ASID, the number of the region that it covers and the region's size in bits, the entry. -/
structure TlbEntry where
  asid : Nat
  va   : Nat
  bits : Nat
  pte  : DWord
  deriving DecidableEq, Repr

/-- The engine operations. -/
inductive EngKind where
  | cpl
  | cpls
  | cpt
  | cpts
  | tdesc
  | mload
  | mmul
  | mdrain
  | mclr
  | hxq
  | hxg
  | hxcfg
  | vbind
  | vpub
  | coll
  | tlayout
  | tcode
  | trace
  | tresume
  | tabort
  | tstamp
  deriving DecidableEq, Repr

/-- A captured engine word in a core's command queue or in flight (R271): its wave, workgroup, core, launch, address space; kind, counter class, issuing lanes, helper lanes; the scalars of its block, captured vector rows, its register or slot number, its control code, destination registers and window base; a captured record; the SRAM lines it holds absent (R183), the local ranges (first byte, bytes) it reads or writes (R179, R182); the bytes, by physical address, that it has written as a copy (R270); destination workgroups and barrier (R268); input and output rings with counts, and the entries taken (R195); FMT and SHAPE (R280); a version snapshot and the traversal snapshots; the next tile or row, a detail of its progress, its first failure, whether it fired, whether it fires without effect (R195), whether it took the last queue entry (R271). -/
structure EngOp where
  id    : Nat
  wave  : Nat
  wg    : Nat
  core  : Nat
  launch : Nat
  asid  : Nat
  kind  : EngKind
  cls   : Nat
  mask  : Mask
  helpers : Mask
  scal  : List Word
  rows  : List (List Word)
  reg   : Nat
  ctl   : Nat
  dests : List RegId
  wb    : Nat
  desc  : List Byte
  lines : List Nat
  sites : List (Nat × Nat)
  wrote : List Nat
  dstWgs : List Nat
  bar   : Option Nat
  ins   : List (Nat × Nat)
  outs  : List (Nat × Nat)
  entries : List Nat
  fmt   : Word
  shape : BitVec 6
  snap  : Option VBind
  tlay  : Option TBind
  tcode : Option TBind
  phase : Nat
  aux   : List Nat
  err   : Option (DWord × BitVec 8)
  fired : Bool
  void  : Bool
  last  : Bool
  deriving DecidableEq, Repr

/-- A core (R11, R75, R78, R113, R134, R248, R271). `ahead`: the Cassette spills ahead of time, and `aheadAt` is the resident slot at which the next turn of that begins (R134). -/
structure Core where
  cyc    : DWord
  last   : Nat
  queue  : List EngOp
  icache : Tbl (List Byte)
  fenced : Bool
  ahead  : Bool
  aheadAt : Nat
  lastLaunch : Option Nat
  deriving DecidableEq, Repr

/-- The modes of a bank (R174). -/
inductive BankMode where
  | cache
  | spad
  | ring
  deriving DecidableEq, Repr

/-- A reservation of a ring (R192): its holder (a wave or an engine operation), its size, whether it is committed or released. -/
structure Resv where
  holder : Nat
  engine : Bool
  n      : Nat
  done   : Bool
  deriving DecidableEq, Repr

/-- A bound ring (R191, R192). -/
structure Ring where
  owner : Nat
  base  : Nat
  esz   : Nat
  cap   : Nat
  pres  : Word
  pcom  : Word
  cres  : Word
  crel  : Word
  prods : List Resv
  cons  : List Resv
  deriving DecidableEq, Repr

/-- A byte held by a cluster L1 (R175, R231), with the memory key it is stored under (R451). -/
structure L1Byte where
  b     : Byte
  dirty : Bool
  tag   : Nat
  deriving DecidableEq, Repr

/-- A bank's switch that waits for its dirty lines (R176): bank 8k + j, new mode, the key that the `bmode` holds. -/
structure Switch where
  bank  : Nat
  mode  : BankMode
  wave  : Nat
  lanes : Mask
  deriving DecidableEq, Repr

/-- A zero-fill in progress (R181, R191): its number among the operations, cluster, next line, lines left, whether it fills a ring. -/
structure Fill where
  id   : Nat
  cl   : Nat
  line : Nat
  left : Nat
  ring : Bool
  deriving DecidableEq, Repr

/-- An absent line (R183, R184): the zero-fills and copies outstanding on it, by number; the bytes of it, by offset, that have been written since it became absent, each with the number of the copy or zero-fill whose value stands there (0 for an `stl`). -/
structure Absent where
  writers : NSet
  early   : Tbl Nat
  deriving DecidableEq, Repr

/-- A cluster (R173 to R195, R306, R307): bank modes, rings, lines that are absent, poisoned elements, its L1, the power registers. -/
structure Cluster where
  banks  : List BankMode
  rings  : Tbl Ring
  switching : List Switch
  absent : Tbl Absent
  spois  : NSet
  l1     : Tbl L1Byte
  cadt   : Nat
  cadmin : Nat
  ramp   : Nat
  waitc  : Word
  rampRows : Nat
  deriving DecidableEq, Repr

/-- A matrix pair (R273, R275, R301, R302): stationary slots and banks by index (slot, k, n) and (bank, row, n) with their poison, scale codes, flags, origin, the stream of operations, the burst, the launch of the last owner (R290). -/
structure Pair where
  slots  : Tbl (BitVec 16)
  slotP  : NSet
  scales : Tbl Nat
  banks  : Tbl Word
  bankP  : NSet
  sat    : Bool
  perr   : Bool
  flt    : Bool
  org    : Word
  stream : List Nat
  row    : Nat
  token  : Bool
  accept : Bool
  quiet  : Nat
  age    : Nat
  prev   : Option Nat
  deriving DecidableEq, Repr

/-- A Peloton program queued or running on a die (R405 to R410): its operation, its wave's address space, the image's address; once started its rank, group, tag, image bytes and the state of R410. `cover`: the destination of the step just executed, when that was an RRW of TY 5 (R418); `hop`: the hop of the step (R420). `taken` is the message that an RRS has consumed and whose outcome it has still to emit (R414). -/
structure PProg where
  op      : Nat
  wave    : Nat
  asid    : Nat
  addr    : DWord
  started : Bool
  rank    : Nat
  n       : Nat
  gbase   : Nat
  tag     : BitVec 16
  len     : Nat
  image   : List Byte
  pc      : Nat
  toR     : Nat
  fromR   : Nat
  ch      : Nat
  cs      : List Word
  ls      : List (Option Nat)
  key     : Word
  cover   : Option (DWord × Nat)
  hop     : Nat
  taken   : Option PMsg
  deriving DecidableEq, Repr

/-- A Peloton engine (R405 to R424): STEP, the programs queued, the one running, the messages and aborts waiting in staging (8 MiB, R11), the die's links whose receiver asserts stop: 0 to 3 to the dies, 4 + k Spoke link k. -/
structure Peloton where
  step    : DWord
  queue   : List PProg
  running : Option PProg
  msgs    : List PMsg
  aborts  : List (BitVec 16)
  stops   : List Nat
  deriving DecidableEq, Repr

/-- An island's table of voltage against frequency (R312): its revision and the re-plans since bring-up (R455), the mV by which it raises every voltage, its frequency ceiling (0: none), and the raise that the next bring-up takes up. -/
structure Plan where
  rev     : Nat
  replans : Nat
  lift    : Nat
  ceil    : Nat
  kept    : Option Nat
  deriving DecidableEq, Repr

/-- The registers and tokens of a die's power controller (R300 to R315): CLUCTL by cluster, ISLSTAT by island, the hottest reading of each cluster and then of each uncore island in 1/8 °C, the pool P, the positions of the idle tokens, the tokens still to be withdrawn (R303), and each island's table (R312). -/
structure Power where
  pcap    : DWord
  poolmax : DWord
  cluctl  : List DWord
  islstat : List DWord
  temps   : List Int
  energy  : DWord
  rej     : Bool
  thr     : Bool
  ilim    : Bool
  tripw   : Bool
  pool    : Nat
  idle    : List Nat
  owed    : Nat
  plans   : List Plan
  deriving DecidableEq, Repr

/-- A splinter under way (R204): where the leaf stands and what it was, the block taken; or the status that it will end with. -/
inductive Splint where
  | work (at_ : Nat) (old : Nat) (block : Nat)
  | fails (status : Nat)
  deriving DecidableEq, Repr

/-- A die (R10, R11, R204, R307, R420, R440). -/
structure Die where
  splva  : DWord
  splcmd : DWord
  splst  : Nat
  splint : Option Splint
  power  : Power
  pel    : Peloton
  svbase : DWord
  svcnt  : Nat
  svused : NSet
  deriving DecidableEq, Repr

/-- A write to a device register that has not been acted on (R448): source (0 port 0, 1 port 1, 2 the management port, 4 + q + 64 l a wave or program of queue q, of the launch of LNCH l), die, offset, width, value. -/
structure RegWrite where
  src : Nat
  die : Nat
  off : Nat
  size : Nat
  v   : DWord
  deriving DecidableEq, Repr

/-- What the device sends out: the response frames of the management port (R453), message-signalled interrupts (R447), the answers to host and peer accesses (R447, R450: none for a refusal), Peloton messages and aborts to ranks of other modules (R413, R421). -/
inductive OutMsg where
  | resp (frame : List Byte)
  | msi (port vec : Nat)
  | host (port : Nat) (data : Option (List Byte))
  | peer (module : Nat) (data : Option (List Byte))
  | msg (rank : Nat) (m : PMsg)
  | abort (rank : Nat) (tag : BitVec 16)
  deriving DecidableEq, Repr

/-- A request of the management port (R453). -/
inductive MReq where
  | read (die : BitVec 8) (off : Word)
  | write (die : BitVec 8) (off : Word) (v : DWord)
  | resync
  | quote (nonce : BitVec 256)
  | cert
  | cold
  | warm
  | retrain (port : Nat)
  | release
  | kill (lnch : Word)
  | extend (i : Nat) (digest : BitVec 256)
  | bad (frame : List Byte)
  deriving DecidableEq, Repr

/-- The system block and the management state (R447 to R456). QOWN holds its two registers, KEYBUF its eight words; `keys` holds the material of each index that has been loaded, and `keyMats`, the model's own, numbers the distinct materials that bytes have been stored under; `held` is the stop of every clock at 120 °C (R310); `errwr` counts the error records, of which ERRWR shows the low 32 bits (R452); `fuseKey` and `fuseVer` are the fuses (R456); `resync` is a RESYNC under way, with the number of the next field and the bytes read so far (R455), `reqs` the requests that wait behind it (R453). -/
structure SysBlock where
  astb    : DWord
  qtb     : DWord
  hcfg    : DWord
  qown    : List DWord
  winb    : DWord
  errbase : DWord
  errwr   : Nat
  modnum  : Nat
  modSet  : Bool
  peeracc : BitVec 256
  linkst  : DWord
  keybuf  : List DWord
  keycmd  : DWord
  keys    : Tbl (List DWord)
  keyMats : List (List DWord)
  bootst  : Nat
  meas    : List (BitVec 256)
  held    : Bool
  fuseKey : BitVec 256
  fuseVer : Nat
  resync  : Option (Nat × List Byte)
  reqs    : List MReq
  deriving DecidableEq, Repr

/-- A gang saved to save slots (R440 to R446): its die, the slot of each workgroup, when it was pre-empted, whether `suspend` keeps it off the restore list (R449); and what the device keeps beside the slots: the waves and workgroups with their pending work, the pairs by their number in the cluster, the rings by number, queue entries and operations not finished, programs with their die, SRAM lines absent and elements poisoned by local address. -/
structure Saved where
  gang  : Nat
  die   : Nat
  slots : List (Nat × Nat)
  order : Nat
  off   : Bool
  wgs   : List (Nat × Workgroup)
  waves : List (Nat × Wave)
  pairs : List (Nat × Pair)
  rings : List (Nat × Ring)
  queue : List EngOp
  ops   : List EngOp
  progs : List (Nat × PProg)
  absent : Tbl Absent
  spois  : NSet
  deriving DecidableEq, Repr

/-- An open exact-accumulation slot (R221), with the attribute and key of the leaf that opened it. -/
structure XOpen where
  asid   : Nat
  pa     : Nat
  launch : Nat
  attr   : Nat
  key    : Nat
  slot   : XSlot
  deriving DecidableEq, Repr

end Sys2Proof.Machine
end

