-- ==== Sys2Proof/Machine/State.lean ====
section
/-! DEFINITION. The machine's state as plain data, the reasons a step can stop, and the state after reset. -/

namespace Sys2Proof.Machine

/-- The whole module (R10). A table's missing key stands for the unit in its reset state. -/
structure Device where
  /-- HBM, cluster SRAM, peer and host bytes by physical address (R197). -/
  mem      : Memory
  /-- What HBM holds of the bytes that are newer in the L2 of their home die (R11, R231, R454). -/
  hbm      : Tbl Byte
  /-- 8-byte units of memory that read with an uncorrectable error (R205, R480). -/
  memErr   : NSet
  /-- The memory key a byte was stored under (R200, R451), by the number of its material; a byte not listed is plaintext. -/
  mkeys    : Tbl Nat
  waves    : Tbl Wave
  wgs      : Tbl Workgroup
  gangs    : Tbl Gang
  launches : Tbl Launch
  cores    : Tbl Core
  clusters : Tbl Cluster
  pairs    : Tbl Pair
  dies     : Tbl Die
  queues   : Tbl Queue
  sys      : SysBlock
  /-- Engine operations dispatched and not complete (R271), in dispatch order. -/
  ops      : List EngOp
  /-- Zero-fills in progress (R181, R191). -/
  fills    : List Fill
  /-- Translation buffers: unit, entry, leaf or table (R203). Units 0 to 255 are cores, 256 to 287 walk-ahead buffers, 288 to 291 a die's other paths. -/
  tlbs     : List (Nat × TlbEntry)
  /-- Open exact-accumulation slots (R221). -/
  xslots   : List XOpen
  /-- Pre-empted gangs (R392, R440). -/
  saved    : List Saved
  /-- Releases of version bindings that have still to take effect (R324). -/
  pins     : List Release
  /-- Pending launches of waves whose workgroup has retired, which run on (R397, R401): wave, launch. -/
  orphans  : List (Nat × PLaunch)
  /-- The queue last served at each priority (R388). -/
  served   : List Nat
  /-- Device-register writes not yet acted on (R448). -/
  inbox    : List RegWrite
  /-- Peer modules that are out of bring-up and whose PEERACC admits this module (R450): an input. -/
  peers    : NSet
  /-- Modules that are reached over the Spoke links (R421, R450): an input. -/
  reach    : NSet
  /-- Messages sent out (R450, R452, R453). -/
  outbox   : List OutMsg
  /-- The model's own: the next identifier given out, and a clock that orders events of equal standing. -/
  uid      : Nat
  clock    : Nat
  /-- The model's own: how many free values have been drawn. -/
  freeCtr  : Nat
  deriving DecidableEq, Repr

/-- What became of the chain being issued. -/
inductive IssueSt where
  | ok
  | held (w : Stall)
  | trapped
  deriving DecidableEq, Repr

/-- The chain being issued: wave, issue subset and key (R79), the addresses of the chain, of the word and of what follows the chain (R25), the word, its literal payloads (R29) and its LIT words as fetched, the registers its words have written, whether its memory words stay unfinished in the core (R432), whether it yields (R95), and the lane of a micro-operation. -/
structure Ctx where
  wave    : Nat
  lanes   : Mask
  wb      : Nat
  chainPc : DWord
  wordPc  : DWord
  nextPc  : DWord
  word    : Word
  lits    : List (BitVec 25)
  raw     : List Word
  status  : IssueSt
  written : List RegId
  defer   : Bool
  yields  : Bool
  lane    : Nat
  deriving DecidableEq, Repr

/-- What happens next: the model's own schedule of the module's agents and of its inputs. -/
inductive Action where
  /-- One issue turn of a core (R78); with `defer`, the memory words it issues stay unfinished (R432). -/
  | turn (core : Nat) (defer : Bool)
  /-- A row of the opcode table that has no encoding. -/
  | event (i : Instr)
  /-- One micro-operation of a lane's ray (R347). -/
  | ray (wave lane : Nat)
  /-- One tile of a copy (R268). -/
  | tile (op : Nat)
  | tlbFill (unit asid : Nat) (va : DWord) (bits : Nat)
  | tlbEvict (idx : Nat)
  | l1Fill (cluster line : Nat)
  | l1Writeback (cluster line : Nat)
  | l1Evict (cluster line : Nat)
  /-- The L2 of a line's home die writes the line back to HBM (R11). -/
  | l2Writeback (line : Nat)
  | icacheEvict (core line : Nat)
  /-- An unfinished word of a wave leaves its core (R432): a load is performed, a store enters its cluster L1 (R231). -/
  | perform (wave idx : Nat)
  /-- Bytes that a host writes in its own memory, or a peer in its own (R249). -/
  | extWrite (pa : Nat) (bytes : List Byte)
  /-- A peer module begins or ceases to serve this module (R450). -/
  | peer (module : Nat) (on : Bool)
  /-- A module begins or ceases to be reached over the Spoke links (R450). -/
  | reach (module : Nat) (on : Bool)
  /-- The management port reads the next field of a RESYNC (R455), or serves the next request that waits (R453). -/
  | manage
  /-- A unit of memory becomes uncorrectable, or is corrected. -/
  | memError (pa : Nat) (on : Bool)
  deriving DecidableEq, Repr

/-- The machine: the module now (`dev`), the module when the issue turn began, from which every word reads its sources (`pre`, R23, R118), the module to which a chain that traps or is held returns (`base`, R27, R81), the chain being issued, the schedule, and the core that issues when the schedule is empty. -/
structure State where
  dev    : Device
  pre    : Device
  base   : Device
  ctx    : Ctx
  agenda : List Action
  focus  : Nat
  deriving DecidableEq, Repr

/-- Why a step stops with a fault. The manual gives every stop of the device an effect (a trap, a status, a halt of a queue), so no meaning answers with one. -/
inductive Fault where
  /-- Raised by nothing; the type of faults needs a member. Safe. -/
  | none
  deriving DecidableEq, Repr

/-- Why a step has no meaning. -/
inductive Refusal where
  /-- An instruction that has no meaning yet, by its mnemonic. Raised by exec alone. Safe. -/
  | notModelled (mnemonic : String)
  deriving DecidableEq, Repr

/-- A core after reset: cycle counter 0 (R113), nothing queued, nothing cached; the Cassette does not spill ahead of time, and its first such turn begins at resident slot 0 (DESIGN CHOICE 1). -/
def Core.reset : Core := ⟨0, 0, [], [], false, false, 0, none⟩

/-- A cluster after reset (R174): every bank in cache mode, no ring bound; cadence terms 1 (DESIGN CHOICE 3). -/
def Cluster.reset : Cluster := ⟨List.replicate 64 .cache, [], [], [], [], [], 1, 1, 1, 0, 0⟩

/-- A pair after reset (R273): nothing listed reads as +0 with scale code 127; ORG 0; no operation; quiet (DESIGN CHOICE 3). -/
def Pair.reset : Pair := ⟨[], [], [], [], [], false, false, false, 0, [], 0, false, false, 1024, 0, none⟩

/-- A Peloton engine after module reset (R420): STEP 0. -/
def Peloton.reset : Peloton := ⟨0, [], none, [], [], []⟩

/-- An island's table as the firmware begins with it. -/
def Plan.reset : Plan := ⟨0, 0, 0, 0, none⟩

/-- A power block after reset (R308): PCAP 0, POOLMAX 16, CLUCTL 0; the read-only words 0 (DESIGN CHOICE 3). -/
def Power.reset : Power :=
  ⟨0, 16, List.replicate 8 0, List.replicate 44 0, List.replicate 12 0, 0, false, false, false, false, 0, [], 0, List.replicate 44 Plan.reset⟩

/-- A die after reset: splinter and save-pool registers 0 (DESIGN CHOICE 5). -/
def Die.reset : Die := ⟨0, 0, 0, none, Power.reset, Peloton.reset, 0, 0, []⟩

/-- A queue after reset: disabled, all fields 0 (DESIGN CHOICE 4). -/
def Queue.reset : Queue :=
  ⟨false, false, 0, 0, 0, 0, 0, 0, 0, 0, 0, 0, 0, 0, 0, 0, 0, .none, 0, none, []⟩

/-- The system block after reset: BOOTST 1 (R454), measurements 0, the fuses as the part has them (R456), the rest 0 (DESIGN CHOICE 5). -/
def SysBlock.reset : SysBlock :=
  { astb := 0, qtb := 0, hcfg := 0, qown := [0, 0], winb := 0, errbase := 0, errwr := 0, modnum := 0, modSet := false, peeracc := 0,
    linkst := 0, keybuf := List.replicate 8 0, keycmd := 0, keys := [], keyMats := [], bootst := 1, meas := List.replicate 8 0,
    held := false, fuseKey := Config.fusedKey, fuseVer := Config.fusedVersion, resync := none, reqs := [] }

/-- The module after reset: no work placed, nothing listed in memory. -/
def Device.reset : Device :=
  { mem := [], hbm := [], memErr := [], mkeys := [], waves := [], wgs := [], gangs := [], launches := [], cores := [], clusters := [],
    pairs := [], dies := [], queues := [], sys := SysBlock.reset, ops := [], fills := [], tlbs := [], xslots := [], saved := [],
    pins := [], orphans := [], served := List.replicate 8 63, inbox := [], peers := [], reach := [], outbox := [], uid := 1, clock := 0, freeCtr := 0 }

/-- No chain being issued. -/
def Ctx.idle : Ctx := ⟨0, 0, 0, 0, 0, 0, 0, [], [], .ok, [], false, false, 0⟩

/-- The machine right after reset. -/
def State.reset : State :=
  { dev := Device.reset, pre := Device.reset, base := Device.reset, ctx := Ctx.idle, agenda := [], focus := 0 }

end Sys2Proof.Machine
end

