-- ==== Sys2Proof/Machine/Mem.lean ====
section
/-! DEFINITION. Memory: bytes by physical address, the places of R197, translation (R198 to R203, R480), the cluster L1 (R231), replicated and mirrored pages (R207, R208), error records (R452). -/

namespace Sys2Proof.Machine

/-- The byte at a physical address; an unlisted one reads as 0 (DESIGN CHOICE 2). -/
def Memory.read : Memory → Nat → Byte
  | [], _ => 0
  | (a', b) :: r, a => if a' = a then b else Memory.read r a

/-- The cells that hold bytes from an address; zero bytes are not listed. -/
def Memory.cells : Nat → List Byte → Memory
  | _, [] => []
  | a, b :: r => if b = 0 then Memory.cells (a + 1) r else (a, b) :: Memory.cells (a + 1) r

/-- Writes bytes from an address and keeps the canonical form. -/
def Memory.writeN (m : Memory) (a : Nat) (bs : List Byte) : Memory :=
  m.filter (fun c => c.1 < a) ++ Memory.cells a bs ++ m.filter (fun c => a + bs.length ≤ c.1)

/-- Writes one byte. -/
def Memory.write (m : Memory) (a : Nat) (b : Byte) : Memory := Memory.writeN m a [b]

/-- Writes n zero bytes from an address. -/
def Memory.clear (m : Memory) (a n : Nat) : Memory := m.filter (fun c => c.1 < a || a + n ≤ c.1)

/-- The canonical form: addresses rising, no zero byte listed. -/
def Memory.wf : Memory → Bool
  | [] => true
  | [(_, b)] => b != 0
  | (a, b) :: (a', b') :: r => b != 0 && a < a' && Memory.wf ((a', b') :: r)

/-- n bytes from an address. -/
def Memory.readN (m : Memory) (a : Nat) : Nat → List Byte
  | 0 => []
  | n + 1 => Memory.read m a :: Memory.readN m (a + 1) n

/-- A core of the module, by its global number (R10). -/
def Device.core (d : Device) (k : Nat) : Core := Tbl.getD d.cores k Core.reset
/-- A cluster, by 8 * die + cluster. -/
def Device.cluster (d : Device) (c : Nat) : Cluster := Tbl.getD d.clusters c Cluster.reset
/-- A pair, by 4 * cluster + pair. -/
def Device.pair (d : Device) (p : Nat) : Pair := Tbl.getD d.pairs p Pair.reset
/-- A die. -/
def Device.die (d : Device) (i : Nat) : Die := Tbl.getD d.dies i Die.reset
/-- A queue. -/
def Device.queue (d : Device) (q : Nat) : Queue := Tbl.getD d.queues q Queue.reset

/-- Replaces a core. -/
def Device.setCore (d : Device) (k : Nat) (x : Core) : Device := { d with cores := Tbl.put d.cores k x }
/-- Replaces a cluster. -/
def Device.setCluster (d : Device) (k : Nat) (x : Cluster) : Device := { d with clusters := Tbl.put d.clusters k x }
/-- Replaces a pair. -/
def Device.setPair (d : Device) (k : Nat) (x : Pair) : Device := { d with pairs := Tbl.put d.pairs k x }
/-- Replaces a die. -/
def Device.setDie (d : Device) (k : Nat) (x : Die) : Device := { d with dies := Tbl.put d.dies k x }
/-- Replaces a queue. -/
def Device.setQueue (d : Device) (k : Nat) (x : Queue) : Device := { d with queues := Tbl.put d.queues k x }
/-- Replaces a wave. -/
def Device.setWave (d : Device) (k : Nat) (x : Wave) : Device := { d with waves := Tbl.put d.waves k x }
/-- Replaces a workgroup. -/
def Device.setWg (d : Device) (k : Nat) (x : Workgroup) : Device := { d with wgs := Tbl.put d.wgs k x }
/-- Replaces a gang. -/
def Device.setGang (d : Device) (k : Nat) (x : Gang) : Device := { d with gangs := Tbl.put d.gangs k x }
/-- Replaces a launch. -/
def Device.setLaunch (d : Device) (k : Nat) (x : Launch) : Device := { d with launches := Tbl.put d.launches k x }

/-- The place of a physical address (R197). -/
def placeOf (pa : Nat) : Nat := pa / 2 ^ 48 % 16

/-- Do n bytes from an address overlap a unit that reads with an uncorrectable error. -/
def Device.memBad (d : Device) (pa n : Nat) : Bool :=
  d.memErr.any (fun u => u * 8 < pa + n && pa < u * 8 + 8)

/-- Does module m serve this module (R450). -/
def Device.peerOk (d : Device) (m : Nat) : Bool := d.reach.contains m && d.peers.contains m && d.sys.linkst.toNat % 65536 != 0

/-- Is the link of a host port up (R447). -/
def Device.portUp (d : Device) (p : Nat) : Bool := bitOf d.sys.linkst.toNat (16 + p)

/-- The cluster's allocations: those of the workgroups on its cores, as (workgroup, first byte, bytes). -/
def Device.allocs (d : Device) (cl : Nat) : List (Nat × Nat × Nat) :=
  d.wgs.flatMap (fun e => if e.2.core / 8 == cl then e.2.allocs.map (fun a => (e.1, a.base, a.blocks * 4096)) else [])

/-- Do n bytes of a cluster's SRAM lie within one allocation of scratchpad banks. -/
def Device.inAlloc (d : Device) (cl a n : Nat) : Bool :=
  (Device.allocs d cl).any (fun e => e.2.1 ≤ a && a + n ≤ e.2.1 + e.2.2)

/-- A place-0x4 address of this module's own number is its place 0x0 (R197). -/
def Device.normPa (d : Device) (pa : Nat) : Nat :=
  if placeOf pa == 4 && pa / 2 ^ 40 % 256 == d.sys.modnum then pa % 2 ^ 40 else pa

/-- The fate of n bytes at a place (R197, R450): none when they exist, or an access violation. Place 0x2 is decided by the register file. -/
def Device.placeFault (d : Device) (pa n : Nat) : Option (BitVec 8) :=
  let off := pa % 2 ^ 48
  match placeOf pa with
  | 0 => if off / 2 ^ 40 == 0 then none else some 0x07
  | 1 =>
    if off / 2 ^ 28 == 0 && Device.inAlloc d (off / 2 ^ 23) (off % 2 ^ 23) n then none else some 0x07
  | 2 => if off / 2 ^ 42 == 0 && (n == 4 || n == 8) then none else some 0x07
  | 4 => if Device.peerOk d (off / 2 ^ 40) then none else some 0x07
  | p => if p ≥ 8 && Device.portUp d ((p - 8) / 4) then none else some 0x07

/-- The place-0x1 address of a cluster's local byte (R197). -/
def sramPa (cl a : Nat) : Nat := 2 ^ 48 + cl * 2 ^ 23 + a

/-- Bits of a page table entry or record. -/
def pbits (x h l : Nat) : Nat := bitsOf x h l

/-- The number of a key's material (R451): 0 for plaintext, 1 for an index that has not been loaded. -/
def Device.keyTag (d : Device) (key : Nat) : Nat :=
  if key == 0 then 0
  else match Tbl.get? d.sys.keys key with
    | none => 1
    | some m => 2 + d.sys.keyMats.idxOf m

/-- A byte of memory read under the key of a number: what another key stored reads as its decryption under this one (R451). -/
def Device.memByteT (d : Device) (r pa : Nat) : Byte :=
  let b := Memory.read d.mem pa
  let w := Tbl.getD d.mkeys pa 0
  if w == r then b else Config.recrypt w r pa b

/-- A byte of memory read under a leaf's key. -/
def Device.memByte (d : Device) (key pa : Nat) : Byte := Device.memByteT d (Device.keyTag d key) pa

/-- n bytes that the device reads by physical address, in plaintext and at their point of coherence (R245, R451). -/
def Device.plain (d : Device) (pa n : Nat) : List Byte := (List.range n).map (fun i => Device.memByteT d 0 (pa + i))

/-- The 8 bytes of a record or table, or none on an uncorrectable error (R245, R480). -/
def Device.read8 (d : Device) (pa : Nat) : Option Nat :=
  if Device.memBad d pa 8 then none else some (ofLeBytes (Device.plain d pa 8))

/-- Is an entry of a level malformed (R201). -/
def pteBad (level : Nat) (pte : Nat) : Bool :=
  let t := bitOf pte 1
  let addr := pbits pte 51 8 * 256
  let place := placeOf addr
  let pageBits := match level with
    | 2 => 30
    | 1 => 21
    | _ => 16
  pbits pte 55 52 != 0 || pbits pte 7 6 != 0 || bitOf pte 2 || pbits pte 59 58 == 3 || pbits pte 57 56 == 3
  || (!t && level ≥ 3) || (t && level == 0)
  || (t && ((level ≥ 2 && pbits addr 11 8 != 0) || place != 0))
  || (!t && level < 3 && (addr % 2 ^ pageBits != 0 || place == 3 || (5 ≤ place && place ≤ 7)
      || (pbits pte 63 60 != 0 && place != 0 && place != 4) || (pbits pte 59 58 != 0 && place != 0)
      || (place == 2 && pbits pte 57 56 != 2)))

/-- The levels of R199: level number, the lowest address bit its index uses, the width of the index. -/
def walkLevels : List (Nat × Nat × Nat) := [(4, 48, 9), (3, 39, 9), (2, 30, 9), (1, 21, 9), (0, 16, 5)]

/-- A walk from a table (R199 to R201, R480): the leaf and its page size in bits, or a fault code. A table outside the bytes of place 0x0 does not exist (R197). -/
def Device.walkFrom (d : Device) (va : Nat) : List (Nat × Nat × Nat) → Nat → Except (BitVec 8) (Nat × Nat)
  | [], _ => .error 0x07
  | (level, sh, w) :: rest, table =>
    if table / 2 ^ 40 != 0 then .error 0x07
    else match Device.read8 d (table + 8 * (va / 2 ^ sh % 2 ^ w)) with
      | none => .error 0x0F
      | some pte =>
        if !bitOf pte 0 then .error 0x06
        else if pteBad level pte then .error 0x07
        else if bitOf pte 1 then Device.walkFrom d va rest (pbits pte 51 8 * 256)
        else .ok (pte, sh)

/-- The valid entries that a walk from a table meets, with the region that each covers in bits (R203). -/
def Device.walkPath (d : Device) (va : Nat) : List (Nat × Nat × Nat) → Nat → List (Nat × Nat)
  | [], _ => []
  | (level, sh, w) :: rest, table =>
    if table / 2 ^ 40 != 0 then []
    else match Device.read8 d (table + 8 * (va / 2 ^ sh % 2 ^ w)) with
      | none => []
      | some pte =>
        if !bitOf pte 0 || pteBad level pte then []
        else (sh, pte) :: (if bitOf pte 1 then Device.walkPath d va rest (pbits pte 51 8 * 256) else [])

/-- The physical address of an address-space record (R198). -/
def Device.asRecord (d : Device) (asid : Nat) : Nat := d.sys.astb.toNat + 64 * asid

/-- The level-4 table of an address space (R198, R480), or a fault code. A record outside the bytes of place 0x0 does not exist (R197). -/
def Device.rootTable (d : Device) (asid : Nat) : Except (BitVec 8) Nat :=
  let r := Device.asRecord d asid
  if r / 2 ^ 40 != 0 then .error 0x07
  else match Device.read8 d r, Device.read8 d (r + 8), Device.read8 d (r + 16), Device.read8 d (r + 24) with
  | some root, some pool, some w2, some moff =>
    if !bitOf root 0 then .error 0x06
    else if pbits root 63 52 != 0 || pbits root 11 1 != 0 || placeOf root != 0
        || pbits w2 46 40 != 0 || pool % 4096 != 0 || moff % 65536 != 0 then .error 0x07
    else .ok (pbits root 51 12 * 4096)
  | _, _, _, _ => .error 0x0F

/-- A walk from the address-space record (R198, R480). -/
def Device.walk (d : Device) (asid va : Nat) : Except (BitVec 8) (Nat × Nat) :=
  match Device.rootTable d asid with
  | .error c => .error c
  | .ok t => Device.walkFrom d va walkLevels t

/-- The entry that a unit's buffer holds for the smallest region about an address (R203). -/
def Device.tlbFind (d : Device) (unit asid va : Nat) : Option TlbEntry :=
  (d.tlbs.filter (fun e => e.1 == unit && e.2.asid == asid && e.2.va == va / 2 ^ e.2.bits)).foldl (fun m e => match m with
    | none => some e.2
    | some x => if e.2.bits < x.bits then some e.2 else some x) none

/-- The leaf that translates an address: what the unit's buffer holds, or a walk, from the lowest table that the buffer holds the entry of. -/
def Device.leaf (d : Device) (unit asid va : Nat) : Except (BitVec 8) (Nat × Nat) :=
  match Device.tlbFind d unit asid va with
  | some e =>
    if e.pte.getLsbD 1 then
      Device.walkFrom d va (walkLevels.filter (fun l => l.2.1 < e.bits)) (pbits e.pte.toNat 51 8 * 256)
    else .ok (e.pte.toNat, e.bits)
  | none => Device.walk d asid va

/-- A kind of access, for the permission it needs (R202). -/
inductive Need where
  | r
  | w
  | rw
  | x
  deriving DecidableEq, Repr

/-- Does a leaf give the permission (R202). -/
def Need.ok (k : Need) (pte : Nat) : Bool :=
  match k with
  | .r => bitOf pte 3
  | .w => bitOf pte 4
  | .rw => bitOf pte 3 && bitOf pte 4
  | .x => bitOf pte 5

/-- A translated address: physical address, and the leaf's ATTR, CACHE and KEY (R200). -/
structure Tr where
  pa    : Nat
  attr  : Nat
  cache : Nat
  key   : Nat
  deriving DecidableEq, Repr

/-- Translates n bytes at a virtual address for a unit and a kind of access (R196, R199 to R202). The bytes lie in one page. -/
def Device.translate (d : Device) (unit asid : Nat) (k : Need) (va : DWord) (n : Nat) : Except (BitVec 8) Tr :=
  if !canonical va then .error 0x07
  else
    match Device.leaf d unit asid va.toNat with
    | .error c => .error c
    | .ok (pte, bits) =>
      if !Need.ok k pte then .error 0x07
      else
        let pa := Device.normPa d (pbits pte 51 8 * 256 + va.toNat % 2 ^ bits)
        match Device.placeFault d pa n with
        | some c => .error c
        | none => .ok ⟨pa, pbits pte 59 58, pbits pte 57 56, pbits pte 63 60⟩

/-- An agent that accesses memory: its translation unit, its cluster L1 (32 for none), its die, the launch that it works for (R452), the number of the copy that it is (R270), 0 for none. -/
structure Agent where
  unit : Nat
  cl   : Nat
  die  : Nat
  lnch : Word
  copy : Nat
  deriving DecidableEq, Repr

/-- The agent of a core's per-lane words, fetch and Cassette (R203). -/
def coreAgent (core : Nat) : Agent := ⟨core, core / 8, core / 64, 0, 0⟩
/-- The agent of a cluster's engines (R203). -/
def clusterAgent (cl : Nat) : Agent := ⟨256 + cl, cl, cl / 8, 0, 0⟩
/-- The agent of a die's uncore units. -/
def dieAgent (die : Nat) : Agent := ⟨288 + die, 32, die, 0, 0⟩
/-- An agent at work for a launch. -/
def Agent.workFor (ag : Agent) (lnch : Word) : Agent := { ag with lnch := lnch }

/-- The copy of a byte that a reader on a die is served from (R207). -/
def replicaPa (t : Tr) (die : Nat) : Nat := if t.attr == 1 then die * 2 ^ 38 + t.pa % 2 ^ 38 else t.pa

/-- Are bytes of a leaf held by a cluster L1: CACHE = 0 pages, not replicated (R231, R243). -/
def Tr.inL1 (t : Tr) : Bool := t.cache == 0 && t.attr != 1 && placeOf t.pa != 1 && placeOf t.pa != 2

/-- One byte as an agent reads it (R231, R232): from its cluster L1 where that holds it, else from memory. An L1 holds clean bytes in whole units of 16 bytes, and of any other unit only bytes that are newer than memory, so that no unit reads torn (R229). -/
def Device.readByte (d : Device) (ag : Agent) (t : Tr) (i : Nat) : Byte :=
  let pa := replicaPa t ag.die + i
  let raw := Device.memByte d t.key pa
  if Tr.inL1 t && ag.cl < 32 then
    match Tbl.get? (Device.cluster d ag.cl).l1 pa with
    | some x => if x.tag == Device.keyTag d t.key then x.b else Config.recrypt x.tag (Device.keyTag d t.key) pa x.b
    | none => raw
  else raw

/-- n bytes from the ith, as an agent reads them. -/
def Device.readBytes (d : Device) (ag : Agent) (t : Tr) (i : Nat) : Nat → List Byte
  | 0 => []
  | n + 1 => Device.readByte d ag t i :: Device.readBytes d ag t (i + 1) n

/-- Records the key of stored bytes: tag 0 lists nothing. -/
def tagPut (tag : Nat) (m : Tbl Nat) (pa : Nat) : List Byte → Tbl Nat
  | [] => m
  | _ :: r => tagPut tag (if tag == 0 then Tbl.del m pa else Tbl.put m pa tag) (pa + 1) r

/-- What HBM holds behind n bytes that are about to change in the L2 of their home die (R11, R231). -/
def l2Hold (hbm : Tbl Byte) (mem : Memory) (pa n : Nat) : Tbl Byte :=
  hbm.filter (fun e => e.1 < pa)
    ++ (List.range n).map (fun i => (pa + i, (Tbl.get? hbm (pa + i)).getD (Memory.read mem (pa + i))))
    ++ hbm.filter (fun e => pa + n ≤ e.1)

/-- The bytes of the L2 that satisfy a test stand in HBM too (R438). -/
def Device.l2WriteBack (d : Device) (sel : Nat → Bool) : Device := { d with hbm := d.hbm.filter (fun e => !sel e.1) }

/-- The bytes that the L2 of a die holds (R11): 64 MiB. -/
def l2Size : Nat := 2 ^ 26

/-- The L2 of each die keeps no more bytes newer than HBM than it can hold (R11); those of the lowest addresses are written back first (DESIGN CHOICE 23). -/
def l2Fit (hbm : Tbl Byte) : Tbl Byte :=
  if hbm.length ≤ l2Size then hbm
  else [0, 1, 2, 3].flatMap (fun die =>
    let l := hbm.filter (fun e => e.1 / 2 ^ 38 == die)
    l.drop (l.length - l2Size))

/-- Writes bytes to memory under a key's tag, at the point of coherence: for HBM, the L2 of the home die (R231). -/
def Device.memWriteT (d : Device) (tag pa : Nat) (bs : List Byte) : Device :=
  { d with mem := Memory.writeN d.mem pa bs,
           hbm := if placeOf pa == 0 then l2Fit (l2Hold d.hbm d.mem pa bs.length) else d.hbm,
           mkeys := if tag == 0 && d.mkeys.isEmpty then d.mkeys else tagPut tag d.mkeys pa bs }

/-- Writes plaintext bytes to memory, at the point of coherence. -/
def Device.memWrite (d : Device) (pa : Nat) (bs : List Byte) : Device := Device.memWriteT d 0 pa bs

/-- The bytes of a cluster L1 that stay when n bytes are stored: none of those, and no clean byte of a 16-byte unit that they touch. -/
def l1Keep (l1 : Tbl L1Byte) (pa n : Nat) : Tbl L1Byte :=
  l1.filter (fun e => !(pa ≤ e.1 && e.1 < pa + n) && (e.2.dirty || e.1 / 16 < pa / 16 || (pa + n - 1) / 16 < e.1 / 16))

/-- Lists bytes in a cluster L1 as newer than memory. -/
def l1Put (tag : Nat) (l1 : Tbl L1Byte) (pa : Nat) : List Byte → Tbl L1Byte
  | [] => l1
  | b :: r => l1Put tag (Tbl.put l1 pa ⟨b, true, tag⟩) (pa + 1) r

/-- A cluster L1 holds no older value of bytes that an agent of the cluster writes at their point of coherence (R229, R232). -/
def Device.l1Past (d : Device) (cl pa n : Nat) : Device :=
  let c := Device.cluster d cl
  let l := l1Keep c.l1 pa n
  if l == c.l1 then d else Device.setCluster d cl { c with l1 := l }

/-- Appends an error record at ERRBASE (R452); ERRWR advances whether or not the ring can be written. -/
def Device.logError (d : Device) (ty die src detail : Nat) (addr : DWord) (lnch : Word) (addr2 : DWord) : Device :=
  let base := d.sys.errbase.toNat + 32 * (d.sys.errwr % 128)
  let bs := leBytes 2 ty ++ leBytes 1 die ++ leBytes 1 src ++ leBytes 4 detail ++ leBytes 8 addr.toNat
    ++ leBytes 4 lnch.toNat ++ leBytes 8 addr2.toNat ++ leBytes 4 0
  let d := if base / 2 ^ 40 != 0 || Device.memBad d base 32 then d else Device.memWrite d base bs
  { d with sys := { d.sys with errwr := d.sys.errwr + 1 } }

/-- The buddy module of an address space (R199, R208), and the mirror address of a byte where mirroring is on. -/
def Device.mirror (d : Device) (asid pa : Nat) : Nat × Option Nat :=
  let r := Device.asRecord d asid
  match Device.read8 d (r + 16), Device.read8 d (r + 24) with
  | some w2, some moff =>
    let buddy := pbits w2 39 32
    (buddy, if bitOf w2 47 then some (2 ^ 50 + buddy * 2 ^ 40 + (pa % 2 ^ 40 + moff) % 2 ^ 40) else none)
  | _, _ => (0, none)

/-- The ways of a cluster L1: its banks in cache mode that no switch has taken from new fills (R175, R176). -/
def Cluster.ways (c : Cluster) : Nat :=
  ((List.range 64).filter (fun b => c.banks.getD b .cache == .cache && c.switching.all (fun x => x.bank != b))).length

/-- Bytes that an agent of a cluster (32 for none) writes at their point of coherence. -/
def Device.writeThrough (d : Device) (cl tag pa : Nat) (bs : List Byte) : Device :=
  Device.memWriteT (if cl < 32 then Device.l1Past d cl pa bs.length else d) tag pa bs

/-- Bytes that an agent of a cluster writes through a leaf to their own address at the point of coherence; an uncached page is written to HBM (R200). -/
def Device.writeHome (d : Device) (cl tag : Nat) (t : Tr) (bs : List Byte) : Device :=
  let d := Device.writeThrough d cl tag t.pa bs
  if t.cache == 2 then Device.l2WriteBack d (fun pa => t.pa ≤ pa && pa < t.pa + bs.length) else d

/-- Has an outstanding copy, other than the one of a number, written one of n bytes (R270). -/
def Device.raced (d : Device) (id pa n : Nat) : Bool := d.ops.any (fun o => o.id != id && o.wrote.any (fun b => pa ≤ b && b < pa + n))

/-- What a write leaves where outstanding copies have written: for each byte, by a free choice, the value written or the one that stands (R270). -/
def Device.mixed (d : Device) (id pa : Nat) (stands : Nat → Byte) (bs : List Byte) : Device × List Byte :=
  if Device.raced d id pa bs.length then
    ({ d with freeCtr := d.freeCtr + bs.length },
      bs.zipIdx.map (fun e =>
        if Device.raced d id (pa + e.2) 1 && (Config.freeByte (d.freeCtr + e.2)).getLsbD 0 then stands e.2 else e.1))
  else (d, bs)

/-- A write of bytes by an agent through a leaf: into every copy of a replicated page (R207), to the page and its mirror (R208), into the cluster L1 first for a CACHE = 0 page, where `early` keeps them until they are written back (R231), but for a mirrored page, whose two writes are made together (R244), and for a cluster L1 without ways, which takes no byte (R175). -/
def Device.putBytes (d : Device) (ag : Agent) (asid : Nat) (early : Bool) (t : Tr) (bs : List Byte) : Device :=
  let tag := Device.keyTag d t.key
  if t.attr == 1 then
    [0, 1, 2, 3].foldl (fun d die => Device.writeThrough d ag.cl tag (replicaPa t die) bs) d
  else if t.attr == 2 then
    let d := Device.writeHome d ag.cl tag t bs
    let (buddy, m) := Device.mirror d asid t.pa
    match m with
    | some mpa =>
      if buddy == d.sys.modnum || Device.peerOk d buddy then Device.memWriteT d tag (Device.normPa d mpa) bs
      else Device.logError d 1 ag.die 3 buddy (BitVec.ofNat 64 t.pa) ag.lnch 0
    | none => Device.logError d 1 ag.die 3 buddy (BitVec.ofNat 64 t.pa) ag.lnch 0
  else if early && Tr.inL1 t && ag.cl < 32 && Cluster.ways (Device.cluster d ag.cl) != 0 then
    let c := Device.cluster d ag.cl
    Device.setCluster d ag.cl { c with l1 := l1Put tag (l1Keep c.l1 t.pa bs.length) t.pa bs }
  else Device.writeHome d ag.cl tag t bs

/-- A write of bytes by an agent through a leaf, where a copy may have written too (R270). -/
def Device.writeBytes (d : Device) (ag : Agent) (asid : Nat) (early : Bool) (t : Tr) (bs : List Byte) : Device :=
  let (d, bs) := Device.mixed d ag.copy t.pa (Device.readByte d ag t) bs
  Device.putBytes d ag asid early t bs

/-- Lists a whole 16-byte unit in a cluster L1 as memory holds it. -/
def Device.l1Unit (d : Device) (tag unit : Nat) (l1 : Tbl L1Byte) : Tbl L1Byte :=
  (List.range 16).foldl (fun l i => Tbl.put l (16 * unit + i) ⟨Device.memByteT d tag (16 * unit + i), false, tag⟩) l1

/-- Writes back the bytes of a cluster L1 that are newer than memory and lie in lines that satisfy a test; their units stay, clean (R231, R438). -/
def Device.l1WriteBack (d : Device) (cl : Nat) (line : Nat → Bool) : Device :=
  let c := Device.cluster d cl
  let gone := c.l1.filter (fun e => e.2.dirty && line (e.1 / 128))
  if gone.isEmpty then d
  else
    let d := gone.foldl (fun d e => Device.memWriteT d e.2.tag e.1 [e.2.b]) d
    let left := c.l1.filter (fun e => !(e.2.dirty && line (e.1 / 128)))
    Device.setCluster d cl { c with l1 := gone.foldl (fun l e => if Tbl.has l e.1 then l else Device.l1Unit d e.2.tag (e.1 / 16) l) left }

/-- Drops the clean bytes of a cluster L1 in lines that satisfy a test (R234). -/
def Device.l1Drop (d : Device) (cl : Nat) (line : Nat → Bool) : Device :=
  let c := Device.cluster d cl
  if c.l1.all (fun e => e.2.dirty || !line (e.1 / 128)) then d
  else Device.setCluster d cl { c with l1 := c.l1.filter (fun e => e.2.dirty || !line (e.1 / 128)) }

/-- Writes back and drops the lines of a cluster L1 that satisfy a test. -/
def Device.l1Clear (d : Device) (cl : Nat) (line : Nat → Bool) : Device := Device.l1Drop (Device.l1WriteBack d cl line) cl line

/-- Every line. -/
def everyLine (_ : Nat) : Bool := true

/-- The lines that hold one of n bytes from an address. -/
def linesOfBytes (pa n line : Nat) : Bool := pa / 128 ≤ line && line ≤ (pa + n - 1) / 128

/-- The lines that hold a byte of a footprint, a list of addresses and counts. -/
def linesOfFoot (f : List (Nat × Nat)) (line : Nat) : Bool := f.any (fun e => linesOfBytes e.1 e.2 line)

/-- What a cluster L1 holds of bytes that an agent of the cluster is about to read at their point of coherence, through a leaf that does not let the L1 serve them, goes there first (R229, R232). -/
def Device.l1Pass (d : Device) (ag : Agent) (t : Tr) (n : Nat) : Device :=
  if Tr.inL1 t || ag.cl ≥ 32 then d else Device.l1Clear d ag.cl (linesOfBytes (replicaPa t ag.die) n)

/-- What a fence does once every earlier word of its wave has left the core (R234, R230): a release writes the cluster L1 back, so that what it covers stands at its point of coherence, where walks read too (R245); an acquire at die scope and beyond drops the clean bytes. -/
def Device.fenceAct (d : Device) (cl : Nat) (acq rel : Bool) (scope : Nat) : Device :=
  let d := if rel then Device.l1WriteBack d cl everyLine else d
  if acq && scope ≥ 3 then Device.l1Drop d cl everyLine else d

/-- The outcome of a virtual read: bytes, or a fault code. -/
def Device.vread (d : Device) (ag : Agent) (asid : Nat) (k : Need) (va : DWord) (n : Nat) : Except (BitVec 8) (List Byte) :=
  match Device.translate d ag.unit asid k va n with
  | .error c => .error c
  | .ok t =>
    if Device.memBad d (replicaPa t ag.die) n then .error 0x0F
    else .ok (Device.readBytes d ag t 0 n)

/-- A virtual read that may span pages, in pieces of at most 64 KiB pages: byte by byte. -/
def Device.vreadN (d : Device) (ag : Agent) (asid : Nat) (k : Need) (va : DWord) : Nat → Except (BitVec 8) (List Byte)
  | 0 => .ok []
  | n + 1 =>
    match Device.vread d ag asid k va 1 with
    | .error c => .error c
    | .ok b =>
      match Device.vreadN d ag asid k (va + 1) n with
      | .error c => .error c
      | .ok r => .ok (b ++ r)

/-- A virtual write within one page: the device after it, or a fault code. -/
def Device.vwrite (d : Device) (ag : Agent) (asid : Nat) (early : Bool) (va : DWord) (bs : List Byte) : Except (BitVec 8) Device :=
  match Device.translate d ag.unit asid .w va bs.length with
  | .error c => .error c
  | .ok t => .ok (Device.writeBytes d ag asid early t bs)

/-- A virtual write of which an uncorrectable error is reported (R140, R430). -/
def Device.vwriteSafe (d : Device) (ag : Agent) (asid : Nat) (va : DWord) (bs : List Byte) : Except (BitVec 8) Device :=
  match Device.translate d ag.unit asid .w va bs.length with
  | .error c => .error c
  | .ok t => if Device.memBad d t.pa bs.length then .error 0x0F else .ok (Device.writeBytes d ag asid false t bs)

end Sys2Proof.Machine
end

