-- ==== Sys2Proof/Machine/Ops.lean ====
section
/-! DEFINITION. The named operations over waves and registers: resolving and writing vector registers (R99 to R104), scalars, predicates, flags, positions and frames; holding a chain, taking an exception (R427 to R433) and killing a workgroup (R404, R430). -/

namespace Sys2Proof.Machine

/-- The result of a meaning. -/
abbrev Res := Host.Outcome State Fault Refusal

/-- A vector register none of whose elements is live. -/
def VReg.blank : VReg := ⟨0, 0, false, List.replicate 64 0⟩

/-- A wave with nothing allocated. -/
def Wave.blank : Wave :=
  { wg := 0, wid := 0, core := 0, rslot := 0, active := none, since := 0, fresh := false,
    pcs := List.replicate 64 0, wbs := List.replicate 64 0, ages := List.replicate 64 0,
    exited := 0, helper := 0, waiting := 0, epmask := 0, exited0 := 0, helper0 := 0,
    preds := List.replicate 8 ⟨0, 0⟩, flags := List.replicate 4 ⟨false, false⟩, scal := [], vfix := [], win := [], frames := [],
    wlim := 0, wsp := 0, quota := 0, wdog := 0, fpm := 0, fmt := 0, shape := 0x3F, tokw := 0, scount := 0,
    cycLatch := 0, stepLatch := 0, trc := 0, trlm := 0, tram := 0, trpc := 0, trwb := 0, trpa := 0, trqn := 0, trnum := 0,
    tbas := 0, tfrm := 0, tbasLo := none, tfrmLo := none, handler := false, hexit := 0, hwait := 0, hmask := 0, held := [], carried := [], pend := [], outs := [], ptraps := [],
    preempt := false, noSpill := false, firstPoison := none, launches := [], blocked := 0, vbind := none, tlay := none, tcode := none,
    rays := [], stalls := [], noRefill := [], born := 0, ended := false }

/-- A workgroup with nothing. -/
def Workgroup.blank : Workgroup :=
  { gang := 0, index := 0, core := 0, waves := [], bars := List.replicate 16 ⟨0, 0, false, false, 0, false, 0⟩,
    descs := List.replicate 16 ⟨List.replicate 256 0, false⟩, succ := .unset, allocs := [], group := none, autoBanks := [], killed := false }

/-- A gang with nothing. -/
def Gang.blank : Gang :=
  { launch := 0, gx := 0, gy := 0, gz := 0, wgs := [], size := 1, low := 0, st := .placed, autoGroup := none, order := 0, tries := 0,
    drain := none, slots := [] }

/-- A launch record of zeros. -/
def LRec.blank : LRec :=
  { entry := 0, argp := 0, gx := 0, gy := 0, gz := 0, gsize := 1, waves := 1, flags := 0, prio := 0, depth := 0, wlim := 0, quota := 0,
    spad := 0, spbase := 0, spstr := 0, wdog := 0, cond0 := (0, 0), cond1 := (0, 0), done := (0, 0), tbas := 0, tfrb := 0, user := [] }

/-- A launch with nothing. -/
def Launch.blank : Launch :=
  { lnch := 0, c0 := false, c1 := false, queue := 0, asid := 0, lrec := LRec.blank, depth := 0, err := false, next := 0, live := [], killed := false, tape := false }

/-- A wave of the device. -/
def Device.wave (d : Device) (w : Nat) : Wave := Tbl.getD d.waves w Wave.blank
/-- A workgroup of the device. -/
def Device.wg (d : Device) (g : Nat) : Workgroup := Tbl.getD d.wgs g Workgroup.blank
/-- A gang of the device. -/
def Device.gang (d : Device) (g : Nat) : Gang := Tbl.getD d.gangs g Gang.blank
/-- A launch of the device. -/
def Device.launch (d : Device) (l : Nat) : Launch := Tbl.getD d.launches l Launch.blank

/-- The launch of a wave. -/
def Device.launchOf (d : Device) (w : Wave) : Launch := Device.launch d (Device.gang d (Device.wg d w.wg).gang).launch
/-- The address space of a wave (R393). -/
def Device.asidOf (d : Device) (w : Wave) : Nat := (Device.launchOf d w).asid

/-- The agent of a wave's per-lane words, for its launch (R203, R452). -/
def Device.agentOf (d : Device) (w : Wave) : Agent := (coreAgent w.core).workFor (Device.launchOf d w).lnch

/-- The source code of the register writes of a launch's waves, programs and copies (R448, R452). -/
def Launch.src (l : Launch) : Nat := 4 + l.queue + 64 * l.lnch.toNat

/-- The cycle that a core is in: the time of R75. -/
def Device.now (d : Device) (core : Nat) : Nat := (Device.core d core).cyc.toNat

/-- The workgroup linear index g of R114. -/
def Device.wgLinear (d : Device) (w : Wave) : Nat :=
  let wg := Device.wg d w.wg
  let g := Device.gang d wg.gang
  let r := (Device.launch d g.launch).lrec
  (g.gx + r.gx * (g.gy + r.gy * g.gz)) * g.size + wg.index

/-- The global lane index of R114 kind 4. -/
def Device.laneIndex (d : Device) (w : Wave) (l : Nat) : Word :=
  let wg := Device.wg d w.wg
  BitVec.ofNat 32 ((Device.wgLinear d w * wg.waves.length + w.wid) * 64 + l)

/-- Changes the wave of the current chain. -/
def State.mapWave (s : State) (f : Wave → Wave) : State :=
  { s with dev := Device.setWave s.dev s.ctx.wave (f (Device.wave s.dev s.ctx.wave)) }

/-- The wave as the turn began: where words read their sources (R23). -/
def State.src (s : State) : Wave := Device.wave s.pre s.ctx.wave

/-- The wave now. -/
def State.cur (s : State) : Wave := Device.wave s.dev s.ctx.wave

/-- A set with every lane. -/
def allLanes : Mask := BitVec.allOnes 64

/-- The live lanes (R74); in handler mode every lane is live until the handler exits it (R429). -/
def Wave.live (w : Wave) : Mask := if w.handler then ~~~w.hexit else ~~~w.exited
/-- The helper lanes (R87); none in handler mode (R429). -/
def Wave.helpers (w : Wave) : Mask := if w.handler then 0 else w.helper
/-- The waiting lanes (R97); in handler mode those of an episode of the handler's own (R429). -/
def Wave.waits (w : Wave) : Mask := if w.handler then w.hwait else w.waiting

/-- The register that a vector name denotes at a window base (R99, R145). -/
def Wave.vid (w : Wave) (wb n : Nat) : RegId :=
  if n < 16 then .fixed n else .pos ((if w.handler then w.wlim else wb) + (n - 16))

/-- The vector register of an identifier, when one is allocated and resident. -/
def Wave.reg? (w : Wave) : RegId → Option VReg
  | .fixed n => Tbl.get? w.vfix n
  | .pos p =>
    match Tbl.get? w.win p with
    | some s => if s.st == .spilled || s.st == .refilling then none else some s.reg
    | none => none
  | _ => none

/-- An element: a dead one reads zero with poison clear (R102). -/
def VReg.elem (r : VReg) (l : Nat) : Elem :=
  if r.live.getLsbD l then ⟨r.vals.getD l 0, r.pois.getLsbD l⟩ else ⟨0, false⟩

/-- Element of a register that may be unallocated (R102). -/
def optElem (r : Option VReg) (l : Nat) : Elem :=
  match r with
  | some r => VReg.elem r l
  | none => ⟨0, false⟩

/-- The element of a vector name in a lane, as the turn began, through the subset's window base (R99, R118). -/
def State.elem (s : State) (n l : Nat) : Elem :=
  optElem (Wave.reg? (State.src s) (Wave.vid (State.src s) s.ctx.wb n)) l

/-- Is a vector source uniform and live in every lane of the subset (R103). -/
def State.unifSrc (s : State) (n : Nat) : Bool :=
  match Wave.reg? (State.src s) (Wave.vid (State.src s) s.ctx.wb n) with
  | some r => r.unif && (s.ctx.lanes &&& ~~~r.live) == 0
  | none => false

/-- A register after a write of lanes L (R100, R101, R103). -/
def VReg.write (old : Option VReg) (L : Mask) (f : Nat → Elem) (li : Bool) : VReg :=
  let o := old.getD VReg.blank
  let es := mkLanes (fun l => if L.getLsbD l then f l else ⟨o.vals.getD l 0, o.pois.getLsbD l⟩)
  { live := o.live ||| L
    pois := (o.pois &&& ~~~L) ||| (L &&& maskOf (fun l => (es.getD l ⟨0, false⟩).p))
    unif := li && (match old with | none => true | some r => r.unif && (r.live &&& ~~~L) == 0)
    vals := es.map (fun e => e.v) }

/-- Puts a vector register in place. -/
def Wave.setReg (w : Wave) (id : RegId) (r : VReg) : Wave :=
  match id with
  | .fixed n => { w with vfix := Tbl.put w.vfix n r }
  | .pos p => { w with win := Tbl.put w.win p ⟨.resident, r, 0⟩ }
  | _ => w

/-- Frees a vector register (R101). -/
def Wave.freeReg (w : Wave) (id : RegId) : Wave :=
  match id with
  | .fixed n => { w with vfix := Tbl.del w.vfix n }
  | .pos p => { w with win := Tbl.del w.win p }
  | _ => w

/-- The elements of some lanes of a position whose contents stand in memory die there (R131). -/
def Wave.cutReg (w : Wave) (id : RegId) (L : Mask) : Wave :=
  match id with
  | .pos p =>
    match Tbl.get? w.win p with
    | some x => { w with win := Tbl.put w.win p { x with cut := x.cut ||| L } }
    | none => w
  | _ => w

/-- Clears live bits; a register with none left is freed (R101). -/
def Wave.clearReg (w : Wave) (id : RegId) (L : Mask) : Wave :=
  match Wave.reg? w id with
  | none => Wave.cutReg w id L
  | some r =>
    if (r.live &&& ~~~L) == 0 then Wave.freeReg w id
    else Wave.setReg w id { r with live := r.live &&& ~~~L, pois := r.pois &&& ~~~L }

/-- Writes lanes of a register of the wave (R100, R103). -/
def Wave.writeReg (w : Wave) (id : RegId) (L : Mask) (f : Nat → Elem) (li : Bool) : Wave :=
  if L == 0 then w else Wave.setReg w id (VReg.write (Wave.reg? w id) L f li)

/-- The data of a register that was allocated at issue arrive (R100, R101): in the lanes whose elements still live. -/
def Wave.arrive (w : Wave) (id : RegId) (L : Mask) (f : Nat → Elem) : Wave :=
  match Wave.reg? w id with
  | none => w
  | some r => Wave.writeReg w id (L &&& r.live) f false

/-- Writes the subset's lanes of a vector name; `li` says that the word leaves it uniform where R103 allows. -/
def State.writeVIn (s : State) (n : Nat) (L : Mask) (f : Nat → Elem) (li : Bool) : State :=
  let id := Wave.vid (State.cur s) s.ctx.wb n
  { State.mapWave s (fun w => Wave.writeReg w id L f li) with ctx := { s.ctx with written := id :: s.ctx.written } }

/-- Writes every lane of the subset of a vector name. -/
def State.writeV (s : State) (n : Nat) (f : Nat → Elem) (li : Bool) : State := State.writeVIn s n s.ctx.lanes f li

/-- A last-read bit on a source (R101): clears the issuing lanes, except where a word of the chain has written the register. -/
def State.lastRead (s : State) (on : BitVec 1) (n : Nat) : State :=
  if on == 0 then s
  else
    let id := Wave.vid (State.cur s) s.ctx.wb n
    if s.ctx.written.contains id then s
    else State.mapWave s (fun w => Wave.clearReg w id s.ctx.lanes)

/-- Last-read bits on n names from a name on (R148). -/
def State.lastReadN (s : State) (on : BitVec 1) (v : Nat) : Nat → State
  | 0 => s
  | k + 1 => State.lastRead (State.lastReadN s on v k) on (v + k)

/-- A scalar of a wave. -/
def Wave.sc (w : Wave) (n : Nat) : Elem := Tbl.getD w.scal n ⟨0, false⟩

/-- A scalar as the turn began. -/
def State.sc (s : State) (n : Nat) : Elem := Wave.sc (State.src s) n

/-- A scalar pair: bits 31:0 in s[n], bits 63:32 in s[n+1] (R54). -/
def State.sc64 (s : State) (n : Nat) : DWord := pair64 (State.sc s n).v (State.sc s (n + 1)).v

/-- Is any of k scalars from n on poisoned. -/
def State.scPois (s : State) (n k : Nat) : Bool := (List.range k).any (fun i => (State.sc s (n + i)).p)

/-- Writes a scalar of a wave. -/
def Wave.setSc (w : Wave) (n : Nat) (e : Elem) : Wave := { w with scal := Tbl.put w.scal n e }

/-- Writes a scalar. -/
def State.setSc (s : State) (n : Nat) (e : Elem) : State := State.mapWave s (fun w => Wave.setSc w n e)

/-- Writes a scalar pair. -/
def State.setSc64 (s : State) (n : Nat) (v : DWord) (p : Bool) : State :=
  State.setSc (State.setSc s n ⟨lo32 v, p⟩) (n + 1) ⟨hi32 v, p⟩

/-- A predicate of a wave; p0 is true with poison clear in every lane (R109). -/
def Wave.pred (w : Wave) (k : Nat) : PReg := if k == 0 then ⟨allLanes, 0⟩ else w.preds.getD k ⟨0, 0⟩

/-- The value of a predicate in a lane, as the turn began. -/
def State.pv (s : State) (k l : Nat) : Bool := (Wave.pred (State.src s) k).v.getLsbD l
/-- The poison of a predicate in a lane, as the turn began. -/
def State.pp (s : State) (k l : Nat) : Bool := (Wave.pred (State.src s) k).p.getLsbD l

/-- Writes a predicate in lanes; other lanes keep theirs. -/
def Wave.setPred (w : Wave) (k : Nat) (L v p : Mask) : Wave :=
  let o := w.preds.getD k ⟨0, 0⟩
  { w with preds := putAt w.preds k ⟨(o.v &&& ~~~L) ||| (v &&& L), (o.p &&& ~~~L) ||| (p &&& L)⟩ ⟨0, 0⟩ }

/-- Writes the subset's lanes of a predicate (R109). -/
def State.setPred (s : State) (k : Nat) (v p : Nat → Bool) : State :=
  State.mapWave s (fun w => Wave.setPred w k s.ctx.lanes (maskOf v) (maskOf p))

/-- A flag, as the turn began. -/
def State.flag (s : State) (q : Nat) : FReg := (State.src s).flags.getD q ⟨false, false⟩

/-- Writes a flag of a wave. -/
def Wave.setFlag (w : Wave) (q : Nat) (v p : Bool) : Wave := { w with flags := putAt w.flags q ⟨v, p⟩ ⟨false, false⟩ }

/-- Writes a flag. -/
def State.setFlag (s : State) (q : Nat) (v p : Bool) : State := State.mapWave s (fun w => Wave.setFlag w q v p)

/-- Sets the PC of lanes. -/
def Wave.setPcs (w : Wave) (L : Mask) (f : Nat → DWord) : Wave :=
  { w with pcs := mkLanes (fun l => if L.getLsbD l then f l else w.pcs.getD l 0) }

/-- Sets the window base of lanes. -/
def Wave.setWbs (w : Wave) (L : Mask) (f : Nat → Nat) : Wave :=
  { w with wbs := mkLanes (fun l => if L.getLsbD l then f l else w.wbs.getD l 0) }

/-- The units of a vector register (R104). -/
def VReg.units (r : VReg) : Nat := if r.unif then 1 else 16

/-- HELD: the units that the wave's allocated physical registers cost (R104, R126). -/
def Wave.heldUnits (w : Wave) : Nat :=
  (w.vfix.map (fun e => VReg.units e.2)).sum
  + (w.win.map (fun e => if e.2.st == .resident || e.2.st == .spilling then VReg.units e.2.reg else 0)).sum
  + (w.frames.map (fun e => if e.2.st == .resident || e.2.st == .spilling then (if e.2.unif then 2 else 32) else 0)).sum

/-- The literal of the word's LITs (R30), as an exact integer. -/
def litValue : List (BitVec 25) → Int
  | [] => 0
  | [a] => a.toInt
  | a :: b :: _ => (b ++ a).toInt

/-- The literal of the current word. -/
def State.lit (s : State) : Int := litValue s.ctx.lits

/-- The low 32 bits of the literal (R30). -/
def State.lit32 (s : State) : Word := wrap32 (State.lit s)

/-- Holds the chain: nothing of it takes effect in this turn (R76, R104). -/
def State.hold (s : State) (w : Stall) : State := { s with dev := s.base, ctx := { s.ctx with status := .held w } }

/-- Removes an operation's members from the outstanding lists once they head their class and are done (R239). -/
def outsTrim : List OutOp → List OutOp
  | [] => []
  | o :: r => if o.done then outsTrim r else o :: r

/-- A class counter: the operations from the oldest unfinished one of the class on (R239). -/
def Wave.counter (w : Wave) (cls : Nat) : Nat := (outsTrim (w.outs.filter (fun o => o.cls == cls))).length

/-- Drops finished operations that no older unfinished one of their class precedes. -/
def outsClean (outs : List OutOp) : List OutOp :=
  outs.filter (fun o => !o.done || outs.any (fun p => p.cls == o.cls && !p.done && p.id < o.id))

/-- Adds an outstanding operation at issue (R239). -/
def Wave.addOut (w : Wave) (o : OutOp) : Wave := { w with outs := outsClean (w.outs ++ [o]) }

/-- Marks an outstanding operation complete (R240). -/
def Wave.finish (w : Wave) (id : Nat) : Wave :=
  { w with outs := outsClean (w.outs.map (fun o => if o.id == id then { o with done := true, dests := [] } else o)) }

/-- Marks an operation of a wave complete, where the wave still exists. -/
def Device.finish (d : Device) (wave id : Nat) : Device :=
  match Tbl.get? d.waves wave with
  | some w => Device.setWave d wave (Wave.finish w id)
  | none => d

/-- Fills the first-poison record when it is empty (R205). -/
def Wave.poisoned (w : Wave) (addr : DWord) (code : BitVec 8) : Wave :=
  match w.firstPoison with
  | some _ => w
  | none => { w with firstPoison := some (addr, code) }

/-- Sets the error bit of a launch (R403). -/
def Device.launchErr (d : Device) (l : Nat) : Device :=
  match Tbl.get? d.launches l with
  | some x => Device.setLaunch d l { x with err := true }
  | none => d

/-- The device fields of a queue's descriptor (R379): offset, width, value. -/
def Queue.fields (x : Queue) : List (Nat × Nat × Nat) :=
  [(0x0C, 4, x.wr.toNat), (0x10, 4, x.rd.toNat), (0x14, 4, x.stat), (0x20, 4, x.ttop), (0x24, 4, x.errcnt.toNat), (0x28, 4, x.lasterr.toNat),
   (0x38, 8, x.used.toNat)]

/-- Replaces a queue and writes the device fields whose value changes to its descriptor (R379). -/
def Device.queuePut (d : Device) (q : Nat) (x : Queue) : Device :=
  let base := d.sys.qtb.toNat + 64 * q
  let old := Queue.fields (Device.queue d q)
  let d := (Queue.fields x).foldl (fun d f => if old.contains f then d else Device.memWrite d (base + f.1) (leBytes f.2.1 f.2.2)) d
  Device.setQueue d q x

/-- A ray that finishes with a code (R358); it resumes at the index of its next micro-operation. -/
def Ray.finish (r : Ray) (code detail : Nat) : Ray :=
  { r with st := .finished, res := code, detail := detail, rmpc := if 4 ≤ code && code ≤ 6 then r.mpc else 0 }

/-- Is the record of a ray being written: the write is performed, whatever stops the wave (R314, R360). -/
def Ray.writing (r : Ray) : Bool := r.st == .suspending

/-- The running rays of some lanes stop as `tabort` stops them (R359, R360). -/
def Wave.abortRays (w : Wave) (L : Mask) : Wave :=
  { w with rays := w.rays.map (fun e => if L.getLsbD e.1 && e.2.st != .finished && !e.2.writing then (e.1, e.2.finish 7 0) else e) }

/-- What a wave's engines lose as it ends (R324, R360): its rays stop, the release of its version binding is pending. -/
def Device.unbind (d : Device) (u : Nat) : Device :=
  let w := Device.wave d u
  let d := Device.setWave d u { Wave.abortRays w allLanes with vbind := none }
  match w.vbind with
  | none => d
  | some b => { d with pins := d.pins ++ [⟨b.header, b.ver, Device.asidOf d w, w.core, u, d.uid, (Device.launchOf d w).lnch⟩] }

/-- One more writer, by number, outstanding on a line (R183). -/
def lineIns (id : Nat) (t : Tbl Absent) (line : Nat) : Tbl Absent :=
  Tbl.put t line (match Tbl.get? t line with
    | some x => { x with writers := NSet.ins x.writers id }
    | none => ⟨[id], []⟩)

/-- A writer of a line has ended; the last makes the line present (R183). -/
def lineRem (id : Nat) (t : Tbl Absent) (line : Nat) : Tbl Absent :=
  match Tbl.get? t line with
  | some x => if NSet.rem x.writers id == [] then Tbl.del t line else Tbl.put t line { x with writers := NSet.rem x.writers id }
  | none => t

/-- Marks a holder's oldest open reservation (R193). -/
def markDone (holder : Nat) (eng : Bool) : List Resv → List Resv
  | [] => []
  | r :: t => if r.holder == holder && r.engine == eng && !r.done then { r with done := true } :: t else r :: markDone holder eng t

/-- The entries of the finished reservations at the head, and what is left (R192). -/
def headDone : List Resv → Nat × List Resv
  | [] => (0, [])
  | r :: t => if r.done then (r.n + (headDone t).1, (headDone t).2) else (0, r :: t)

/-- Commits a holder's oldest producer reservation; PCOM passes what heads the side (R192, R193). -/
def Ring.commit (x : Ring) (holder : Nat) (eng : Bool) : Ring :=
  let (n, l) := headDone (markDone holder eng x.prods)
  { x with pcom := x.pcom + BitVec.ofNat 32 n, prods := l }

/-- Releases a holder's oldest consumer reservation; CREL passes what heads the side (R192, R193). -/
def Ring.release (x : Ring) (holder : Nat) (eng : Bool) : Ring :=
  let (n, l) := headDone (markDone holder eng x.cons)
  { x with crel := x.crel + BitVec.ofNat 32 n, cons := l }

/-- The ring reservations of an engine operation that is dropped end (R195). -/
def Device.dropRings (d : Device) (o : EngOp) : Device :=
  let cl := o.core / 8
  let upd (f : Ring → Ring) (d : Device) (r : Nat × Nat) : Device :=
    let c := Device.cluster d cl
    match Tbl.get? c.rings r.1 with
    | none => d
    | some x => Device.setCluster d cl { c with rings := Tbl.put c.rings r.1 (f x) }
  if !o.fired || o.void then d
  else o.ins.foldl (upd (fun x => Ring.release x o.id true)) (o.outs.foldl (upd (fun x => Ring.commit x o.id true)) d)

/-- The lines that an operation held absent become present when no other one writes them (R183), wherever the workgroup that holds them is. -/
def Device.linesDone (d : Device) (id : Nat) (ls : List Nat) : Device :=
  let rem (t : Tbl Absent) : Tbl Absent := ls.foldl (lineRem id) t
  { d with clusters := d.clusters.map (fun e => (e.1, { e.2 with absent := rem e.2.absent }))
           saved := d.saved.map (fun v => { v with absent := rem v.absent }) }

/-- Drops an engine operation (R404): its reservations end, and the lines that its copy held absent no longer wait for it. -/
def Device.dropWork (d : Device) (o : EngOp) : Device := Device.linesDone (Device.dropRings d o) o.id o.lines

/-- A pair's state and stream are discarded (R277): every element +0, every code 127, the flags clear. -/
def Pair.cleared (p : Pair) : Pair :=
  { p with slots := [], slotP := [], scales := [], banks := [], bankP := [], sat := false, perr := false, flt := false, stream := [] }

/-- A pair stops (R277, R303): its state and its stream are discarded, its burst closes. -/
def Pair.stopped (p : Pair) : Pair := { Pair.cleared p with accept := false }

/-- The pair that a workgroup's core leads, where its gang owns it (R17). -/
def Device.ledPair (d : Device) (wg : Workgroup) : Option Nat :=
  let g := Device.gang d wg.gang
  if wg.core % 2 == 0 && wg.core + 1 < g.low + g.size then some (wg.core / 8 * 4 + wg.core % 8 / 2) else none

/-- The programs of a list of waves leave the Pelotons (R423); one that is moving data stops at the end of its step. -/
def Device.dropPrograms (d : Device) (ws : List Nat) : Device :=
  [0, 1, 2, 3].foldl (fun d i =>
    let x := Device.die d i
    let run := match x.pel.running with
      | some p => if ws.contains p.wave && p.taken.isNone then none else some p
      | none => none
    let pel : Peloton := { x.pel with running := run, queue := x.pel.queue.filter (fun p => !ws.contains p.wave) }
    if x.pel == pel then d else Device.setDie d i { x with pel := pel }) d

/-- The engine operations queued or in flight. -/
def Device.engineOps (d : Device) : List EngOp := d.ops ++ d.cores.flatMap (fun e => e.2.queue)

/-- Has an operation no earlier one of its wave's class 4 before it (R316). -/
def Device.hashTurn (d : Device) (o : EngOp) : Bool :=
  !(Device.engineOps d).any (fun x => x.wave == o.wave && x.cls == 4 && x.id < o.id)

/-- Is an entry of the unfinished list a fence. -/
def Pend.isFence (p : Pend) : Bool :=
  match p with
  | .fence _ _ _ _ => true
  | _ => false

/-- The number of an entry of the unfinished list. -/
def Pend.id (p : Pend) : Nat :=
  match p with
  | .word i _ => i
  | .fence i _ _ _ => i
  | .flush i _ => i

/-- Has a wave still a word, fence or flush that stands before an operation through a fence: unfinished, or held for `rte` (R234, R242). -/
def Wave.fencedOff (w : Wave) (id : Nat) : Bool := (w.pend.any (fun p => p.isFence && p.id < id)) || w.carried.any (fun e => e.2.id < id)

/-- Has a wave a `vbind` or `vpub` outstanding that it issued before an operation number: its acquire is still to come (R235). -/
def Device.bindsBefore (d : Device) (u id : Nat) : Bool :=
  let o (x : EngOp) : Bool := x.wave == u && (x.kind == .vbind || x.kind == .vpub) && x.id < id
  d.ops.any o || (Device.core d (Device.wave d u).core).queue.any o

/-- Is an operation the word that its hash engine is at: it finishes its batch at a kill (R332). -/
def Device.hashing (d : Device) (o : EngOp) : Bool :=
  (o.kind == .hxq || o.kind == .hxg) && o.fired && !o.void && Device.hashTurn d o && !Wave.fencedOff (Device.wave d o.wave) o.id

/-- Kills a workgroup (R404): its waves end at once, their unfinished words, engine work, programs and rays are discarded, but for a record that is being written; the pair that it leads stops; its launch's error bit is set. It retires with WORKGROUP_RETIRE. -/
def Device.killWg (d : Device) (g : Nat) : Device :=
  match Tbl.get? d.wgs g with
  | none => d
  | some wg =>
    let mine (o : EngOp) : Bool := wg.waves.contains o.wave
    let gone := ((Device.engineOps d).filter (fun o => mine o && !Device.hashing d o)).map (fun o => o.id)
    let d := Device.launchErr d (Device.gang d wg.gang).launch
    let d := Device.setWg d g { wg with killed := true }
    let stop (w : Wave) : Wave :=
      { w with ended := true, exited := allLanes, handler := false, waiting := 0, active := none, pend := [], held := [],
               carried := [], outs := [], ptraps := [], rays := w.rays.filter (fun e => e.2.writing), vfix := [], win := [], frames := [], stalls := [] }
    let d := wg.waves.foldl (fun d u => Device.unbind (Device.setWave d u (stop (Device.wave d u))) u) d
    let c := Device.core d wg.core
    let cut (o : EngOp) : Bool := gone.contains o.id
    let d := (c.queue.filter cut ++ d.ops.filter cut).foldl Device.dropWork d
    let d := Device.setCore d wg.core { c with queue := c.queue.filter (fun o => !cut o) }
    let d := Device.dropPrograms d wg.waves
    let d := { d with ops := d.ops.filter (fun o => !cut o),
                      pairs := d.pairs.map (fun e => (e.1, { e.2 with stream := e.2.stream.filter (fun i => !gone.contains i) })) }
    match Device.ledPair d wg with
    | some p => Device.setPair d p (Pair.stopped (Device.pair d p))
    | none => d

/-- The return-stack word of the frame for a lane (R431). -/
def Wave.rst (w : Wave) (l : Nat) : DWord :=
  match Tbl.get? w.frames (w.wbs.getD l 0) with
  | none => 0
  | some f =>
    if f.st == .spilled || f.st == .refilling then 0x8000000000000000
    else if f.mask.getLsbD l then f.entries.getD l 0 else 0

/-- The flags byte of the frame (R431): values in bits 3:0, poison in bits 7:4. -/
def Wave.qf (w : Wave) : Nat :=
  let b (x : Bool) (i : Nat) : Nat := if x then 2 ^ i else 0
  let f (q : Nat) : FReg := w.flags.getD q ⟨false, false⟩
  b (f 0).v 0 + b (f 1).v 1 + b (f 2).v 2 + b (f 3).v 3 + b (f 0).p 4 + b (f 1).p 5 + b (f 2).p 6 + b (f 3).p 7

/-- The poison bits of s240 to s255 (R431). -/
def Wave.ship (w : Wave) : Nat :=
  (List.range 16).foldr (fun i acc => 2 * acc + (if (Wave.sc w (240 + i)).p then 1 else 0)) 0

/-- Reserved bytes of a record: zero. -/
def zeros (n : Nat) : List Byte := List.replicate n 0

/-- CTRL of a replay entry image (R433). -/
def Replay.ctrl (r : Replay) : Nat :=
  (if r.valid then 1 else 0) + 2 * r.nlit + 16 * r.cls + (if r.faulted then 256 + 65536 * r.fcode.toNat else 0)

/-- A replay entry image (R433): 1,536 bytes. -/
def Replay.image (r : Replay) : List Byte :=
  leBytes 4 r.w0.toNat ++ leBytes 4 r.w1.toNat ++ leBytes 4 r.w2.toNat ++ leBytes 4 (Replay.ctrl r)
  ++ leBytes 8 r.mask.toNat ++ leBytes 8 r.pc.toNat ++ leBytes 2 r.wb ++ zeros 6
  ++ leBytes 8 r.base.toNat ++ leBytes 8 r.offset.toNat
  ++ ((List.range 4).flatMap (fun i => leBytes 4 (r.sdata.getD i 0).toNat))
  ++ leBytes 8 r.faddr.toNat ++ zeros 176
  ++ ((List.range 5).flatMap (fun j => lanes64.flatMap (fun l => leBytes 4 ((r.ops.getD j []).getD l 0).toNat)))

/-- The trap frame (R431): 16 KiB. `code` is TRC, `mode` the MODE byte. -/
def Wave.frameImage (w : Wave) (code mode : Nat) : List Byte :=
  leBytes 1 code ++ leBytes 1 w.held.length ++ leBytes 2 w.trwb ++ leBytes 1 w.trnum.toNat ++ leBytes 1 (Wave.qf w) ++ leBytes 1 mode ++ leBytes 1 0
  ++ leBytes 8 w.trlm.toNat ++ leBytes 8 w.tram.toNat ++ leBytes 8 w.trpc.toNat ++ leBytes 8 w.trpa.toNat
  ++ leBytes 8 (match w.firstPoison with | some (a, _) => a.toNat | none => 0)
  ++ leBytes 1 (match w.firstPoison with | some (_, c) => c.toNat | none => 0) ++ zeros 7
  ++ leBytes 8 w.exited.toNat ++ leBytes 8 w.helper.toNat ++ leBytes 8 w.waiting.toNat ++ leBytes 8 w.epmask.toNat ++ zeros 40
  ++ ((List.range 16).flatMap (fun i => leBytes 4 (Wave.sc w (240 + i)).v.toNat)) ++ leBytes 2 (Wave.ship w) ++ zeros 62
  ++ (lanes64.flatMap (fun l => leBytes 8 (w.pcs.getD l 0).toNat))
  ++ (lanes64.flatMap (fun l => leBytes 2 (w.wbs.getD l 0)))
  ++ (lanes64.flatMap (fun l => leBytes 8 (Wave.rst w l).toNat)) ++ zeros 128
  ++ ((List.range 6).flatMap (fun e => match w.held[e]? with
      | some r => Replay.image r
      | none => zeros 1536))
  ++ zeros 5632

/-- The words of a wave that have not left its core (R432), oldest first. -/
def Wave.unfinished (w : Wave) : List (Nat × Replay) :=
  w.pend.filterMap (fun p => match p with
    | .word i r => some (i, r)
    | .fence _ _ _ _ => none
    | .flush _ _ => none)

/-- Is an entry of the unfinished list a `wflush`. -/
def Pend.isFlush (p : Pend) : Bool :=
  match p with
  | .flush _ _ => true
  | _ => false

/-- The fences that words go before, each with the number of those words (R234, R437). -/
def fencesAfter (n : Nat) : List Pend → List (Nat × Pend)
  | [] => []
  | .word _ _ :: t => fencesAfter (n + 1) t
  | .flush _ _ :: t => fencesAfter n t
  | p :: t => if n == 0 then fencesAfter n t else (n, p) :: fencesAfter n t

/-- Step 1 of R429: unfinished words become replay entries and leave their counters (R239); a fence behind one of them waits with it. Every other operation runs on. -/
def Wave.toReplay (w : Wave) : Wave :=
  let u := Wave.unfinished w
  let early := w.pend.takeWhile (fun p => p.isFence || p.isFlush)
  { w with held := u.map (fun e => e.2), carried := fencesAfter 0 w.pend,
           pend := early ++ (w.pend.drop early.length).filter Pend.isFlush,
           outs := outsClean (w.outs.filter (fun o => !(u.any (fun e => e.1 == o.id)))) }

/-- A double fault (R430): the workgroup is killed, and the cause, TRPC and TRPA are recorded. -/
def Device.doubleFault (d : Device) (u : Nat) (code : BitVec 8) (trpc trpa : DWord) : Device :=
  let w := Device.wave d u
  let l := Device.launchOf d w
  Device.killWg (Device.logError d 4 (w.core / 64) 3 code.toNat trpa l.lnch trpc) w.wg

/-- Taking an exception (R427, R429 to R431): saves the cause in TRC to TRQN, writes the frame at TFRM, enters handler mode with every lane at TBAS. A trap in handler mode, with TBAS = 0, or whose frame cannot be written, is a double fault. -/
def Device.trapEntry (d : Device) (u : Nat) (code : BitVec 8) (trlm tram : Mask) (trpc : DWord) (trwb : Nat) (trpa : DWord)
    (num : BitVec 8) : Device :=
  let w := Device.wave d u
  if w.handler || w.tbas == 0 then Device.doubleFault d u code trpc trpa
  else
    let w := Wave.toReplay w
    let w := { w with trc := code, trlm := trlm, tram := tram, trpc := trpc, trwb := trwb, trpa := trpa,
                      trqn := w.held.length, trnum := num, tbasLo := none, tfrmLo := none }
    match Device.vwriteSafe d (Device.agentOf d w) (Device.asidOf d w) w.tfrm (Wave.frameImage w code.toNat 0) with
    | .error _ => Device.doubleFault d u code trpc trpa
    | .ok d => Device.setWave d u { w with handler := true, hexit := 0, hwait := 0, hmask := 0, pcs := List.replicate 64 w.tbas }

/-- Raises a trap precisely at issue (R27): no word of the chain has any effect. -/
def State.trap (s : State) (code : BitVec 8) (trlm : Mask) (trpa : DWord) : State :=
  { s with dev := Device.trapEntry s.base s.ctx.wave code trlm s.ctx.lanes s.ctx.chainPc s.ctx.wb trpa 0,
           ctx := { s.ctx with status := .trapped } }

/-- Changes the device of an event. -/
def State.mapDev (s : State) (f : Device → Device) : State := { s with dev := f s.dev }

/-- The next identifier. -/
def State.newId (s : State) : Nat := s.dev.uid

/-- Counts the identifier as given out. -/
def State.useId (s : State) : State := { s with dev := { s.dev with uid := s.dev.uid + 1 } }

/-- Would a word of a class have to wait: its counter stands at 63 (R239). -/
def State.classFull (s : State) (cls : Nat) : Bool := Wave.counter (State.cur s) cls ≥ 63

end Sys2Proof.Machine
end

