-- ==== Sys2Proof/Machine/Regs.lean ====
section
/-! DEFINITION. Reading the device registers of place 0x2: the system block (R448), splinter unit (R204), power block (R307), doorbells (R381), Peloton (R420) and save pool (R440); the effective cadence (R306). -/

namespace Sys2Proof.Machine

/-- A 64-bit register from fields given as (lowest bit, width, value). -/
def regOf (fs : List (Nat × Nat × Nat)) : DWord :=
  BitVec.ofNat 64 (fs.foldl (fun a f => a + f.2.2 % 2 ^ f.2.1 * 2 ^ f.1) 0)

/-- CAD of a cluster (R306): the largest of CADT, CADMIN and RAMP. -/
def Cluster.cad (c : Cluster) : Nat := max c.cadt (max (max c.cadmin 1) c.ramp)

/-- Tokens held by the pairs of a cluster. -/
def Device.tokensOf (d : Device) (cl : Nat) : Nat :=
  ((List.range 4).filter (fun p => (Device.pair d (4 * cl + p)).token)).length

/-- PSTAT (R307). -/
def Power.pstat (p : Power) : DWord :=
  regOf [(0, 5, p.pool), (8, 1, p.rej.toNat), (9, 1, p.thr.toNat), (10, 1, p.ilim.toNat), (11, 1, p.tripw.toNat)]

/-- CLUSTAT(c) of a die (R307). -/
def Device.clustat (d : Device) (die c : Nat) : DWord :=
  let cl := 8 * die + c
  let x := Device.cluster d cl
  regOf [(0, 32, x.waitc.toNat), (32, 4, x.cadt), (36, 4, Cluster.cad x), (40, 5, Device.tokensOf d cl),
    (48, 16, wrap ((Device.die d die).power.temps.getD c 0) 16)]

/-- A register of the power block (R307). -/
def Device.powerRead (d : Device) (die off : Nat) : DWord :=
  let p := (Device.die d die).power
  if off == 0x3000 then p.pcap
  else if off == 0x3008 then p.poolmax
  else if off == 0x3010 then Power.pstat p
  else if 0x3020 ≤ off && off < 0x3060 then p.cluctl.getD ((off - 0x3020) / 8) 0
  else if 0x3080 ≤ off && off < 0x30C0 then Device.clustat d die ((off - 0x3080) / 8)
  else if 0x3100 ≤ off && off < 0x3100 + 8 * 44 then p.islstat.getD ((off - 0x3100) / 8) 0
  else if off == 0x3300 then p.energy
  else 0

/-- SVFREE of a die (R440). -/
def Device.svFree (d : Device) (die : Nat) : Nat := (Device.die d die).svcnt - (Device.die d die).svused.length

/-- PLSTAT of a die (R420): programs queued, the hop of the running step. -/
def Device.plstat (d : Device) (die : Nat) : DWord :=
  let p := (Device.die d die).pel
  regOf [(0, 8, match p.running with | some r => r.hop | none => 0), (8, 5, p.queue.length)]

/-- A read of QCMD(q) (R449). -/
def Queue.qcmd (q : Queue) : DWord := regOf [(0, 1, q.en.toNat), (1, 1, q.susp.toNat), (4, 4, q.res)]

/-- ID (R448). -/
def Device.idReg (d : Device) : DWord := regOf [(16, 8, d.sys.modnum), (24, 8, Config.stepping.toNat), (32, 32, 0x1024)]

/-- A register of the system block (R448). A write-only register reads as an open value, KEYBUF as zero where it has been loaded (R451). -/
def Device.sysRead (d : Device) (die off : Nat) : DWord :=
  let s := d.sys
  if off == 0x000 then Device.idReg d
  else if off == 0x008 then s.astb
  else if off == 0x010 then s.qtb
  else if off == 0x018 then s.hcfg
  else if off == 0x020 || off == 0x028 then s.qown.getD ((off - 0x020) / 8) 0
  else if off == 0x030 then s.winb
  else if off == 0x040 then Config.openReg d.freeCtr die off
  else if 0x400 ≤ off && off < 0x440 then (if s.keybuf.all (fun v => v == 0) then 0 else Config.openReg d.freeCtr die off)
  else if off == 0x048 then s.errbase
  else if off == 0x050 then BitVec.ofNat 64 (s.errwr % 2 ^ 32)
  else if off == 0x058 then BitVec.ofNat 64 s.modnum
  else if 0x060 ≤ off && off < 0x080 then BitVec.ofNat 64 (s.peeracc.toNat / 2 ^ (8 * (off - 0x060)))
  else if off == 0x080 then s.linkst
  else if 0x100 ≤ off && off < 0x300 then Queue.qcmd (Device.queue d ((off - 0x100) / 8))
  else if off == 0x440 then s.keycmd
  else if off == 0x500 then BitVec.ofNat 64 s.bootst
  else 0

/-- A register of a die's other blocks: splinter, doorbells, Peloton, save pool. -/
def Device.dieRead (d : Device) (die off : Nat) : DWord :=
  let x := Device.die d die
  if off == 0x1000 then x.splva
  else if off == 0x1008 then x.splcmd
  else if off == 0x1010 then BitVec.ofNat 64 x.splst
  else if (0x4000 ≤ off && off < 0x4200) || off == 0x5008 then Config.openReg d.freeCtr die off
  else if off == 0x5000 then x.pel.step
  else if off == 0x5010 then Device.plstat d die
  else if off == 0x6000 then x.svbase
  else if off == 0x6008 then BitVec.ofNat 64 x.svcnt
  else if off == 0x6010 then BitVec.ofNat 64 (Device.svFree d die)
  else 0

/-- The 8-byte register at a multiple of 8 (R448); an unlisted offset reads as zero. -/
def Device.regRead8 (d : Device) (die off : Nat) : DWord :=
  if off < 0x1000 then Device.sysRead d die off
  else if 0x3000 ≤ off && off < 0x3400 then Device.powerRead d die off
  else Device.dieRead d die off

/-- A 4- or 8-byte read of a device register (R448): 4 bytes are the addressed half. A read that covers PSTAT's half with REJ clears it (R307). -/
def Device.regRead (d : Device) (die off n : Nat) : Device × Nat :=
  let v := (Device.regRead8 d die (off / 8 * 8)).toNat
  let x := Device.die d die
  let d' := { d with freeCtr := d.freeCtr + 1 }
  let d' := if off == 0x3010 then Device.setDie d' die { x with power := { x.power with rej := false } } else d'
  (d', if n == 8 then v else v / 2 ^ (8 * (off % 8)) % 2 ^ 32)

/-- The place 0x2 address of a physical address: die and offset (R197). -/
def regDie (pa : Nat) : Nat := pa / 2 ^ 40 % 4
/-- The offset of a place 0x2 address. -/
def regOff (pa : Nat) : Nat := pa % 2 ^ 40

end Sys2Proof.Machine
end

