-- ==== Sys2Proof/Machine/Operands.lean ====
section
/-! DEFINITION. The operand forms of vector and scalar words (R33, R148, R152, R156): vector pairs, B-sources, literals, and the shapes of words that read sources lane by lane and write one destination (R149, R159, R172). -/

namespace Sys2Proof.Machine

/-- A B-source code (R33): a scalar for every lane, or the literal's bits 31:0. -/
def State.bsrc (s : State) (b : BitVec 6) : Elem :=
  if b == 63 then ⟨State.lit32 s, false⟩ else State.sc s b.toNat

/-- A 64-bit B-source (R148): a scalar pair, or the literal sign-extended. -/
def State.bsrc64 (s : State) (b : BitVec 6) : DWord × Bool :=
  if b == 63 then (wrap64 (State.lit s), false) else (State.sc64 s b.toNat, State.scPois s b.toNat 2)

/-- A 64-bit vector operand: the pair vn, vn+1 (R148). -/
def State.elem64 (s : State) (n l : Nat) : DWord × Bool :=
  let a := State.elem s n l
  let b := State.elem s (n + 1) l
  (pair64 a.v b.v, a.p || b.p)

/-- Writes a pair of names lane by lane. -/
def State.writeV64 (s : State) (n : Nat) (f : Nat → DWord × Bool) (li : Bool) : State :=
  State.writeV (State.writeV s n (fun l => ⟨lo32 (f l).1, (f l).2⟩) li) (n + 1) (fun l => ⟨hi32 (f l).1, (f l).2⟩) li

/-- A word of one vector source: each lane's result is f of its element, poisoned with it. -/
def State.alu1 (s : State) (o : VU) (f : Word → Word) : State :=
  State.writeV (State.lastRead s o.la o.a.toNat) o.d.toNat
    (fun l => let a := State.elem s o.a.toNat l; ⟨f a.v, a.p⟩) (State.unifSrc s o.a.toNat)

/-- A word of two vector sources (format VR). -/
def State.aluVR (s : State) (o : VR) (f : Word → Word → Word) : State :=
  State.writeV (State.lastRead (State.lastRead s o.la o.a.toNat) o.lb o.b.toNat) o.d.toNat
    (fun l => let a := State.elem s o.a.toNat l; let b := State.elem s o.b.toNat l; ⟨f a.v b.v, a.p || b.p⟩)
    (State.unifSrc s o.a.toNat && State.unifSrc s o.b.toNat)

/-- A word of a vector source and a B-source (format VS). -/
def State.aluVS (s : State) (o : VS) (f : Word → Word → Word) : State :=
  let b := State.bsrc s o.b
  State.writeV (State.lastRead s o.la o.a.toNat) o.d.toNat
    (fun l => let a := State.elem s o.a.toNat l; ⟨f a.v b.v, a.p || b.p⟩) (State.unifSrc s o.a.toNat)

/-- Format VR with an accumulating destination: f of a, b and the old d. -/
def State.accVR (s : State) (o : VR) (f : Word → Word → Word → Word) : State :=
  State.writeV (State.lastRead (State.lastRead s o.la o.a.toNat) o.lb o.b.toNat) o.d.toNat
    (fun l => let a := State.elem s o.a.toNat l; let b := State.elem s o.b.toNat l; let d := State.elem s o.d.toNat l
      ⟨f a.v b.v d.v, a.p || b.p || d.p⟩)
    (State.unifSrc s o.a.toNat && State.unifSrc s o.b.toNat && State.unifSrc s o.d.toNat)

/-- Format VS with an accumulating destination. -/
def State.accVS (s : State) (o : VS) (f : Word → Word → Word → Word) : State :=
  let b := State.bsrc s o.b
  State.writeV (State.lastRead s o.la o.a.toNat) o.d.toNat
    (fun l => let a := State.elem s o.a.toNat l; let d := State.elem s o.d.toNat l; ⟨f a.v b.v d.v, a.p || b.p || d.p⟩)
    (State.unifSrc s o.a.toNat && State.unifSrc s o.d.toNat)

/-- Format VR with a 64-bit result in a pair. -/
def State.wideVR (s : State) (o : VR) (f : Word → Word → DWord) : State :=
  State.writeV64 (State.lastRead (State.lastRead s o.la o.a.toNat) o.lb o.b.toNat) o.d.toNat
    (fun l => let a := State.elem s o.a.toNat l; let b := State.elem s o.b.toNat l; (f a.v b.v, a.p || b.p))
    (State.unifSrc s o.a.toNat && State.unifSrc s o.b.toNat)

/-- Format VS with a 64-bit result in a pair. -/
def State.wideVS (s : State) (o : VS) (f : Word → Word → DWord) : State :=
  let b := State.bsrc s o.b
  State.writeV64 (State.lastRead s o.la o.a.toNat) o.d.toNat
    (fun l => let a := State.elem s o.a.toNat l; (f a.v b.v, a.p || b.p)) (State.unifSrc s o.a.toNat)

/-- Is a vector pair uniform and live in the subset. -/
def State.unifSrc2 (s : State) (n : Nat) : Bool := State.unifSrc s n && State.unifSrc s (n + 1)

/-- Format VR on pairs. -/
def State.alu64VR (s : State) (o : VR) (f : DWord → DWord → DWord) : State :=
  State.writeV64 (State.lastReadN (State.lastReadN s o.la o.a.toNat 2) o.lb o.b.toNat 2) o.d.toNat
    (fun l => let a := State.elem64 s o.a.toNat l; let b := State.elem64 s o.b.toNat l; (f a.1 b.1, a.2 || b.2))
    (State.unifSrc2 s o.a.toNat && State.unifSrc2 s o.b.toNat)

/-- Format VS on pairs. -/
def State.alu64VS (s : State) (o : VS) (f : DWord → DWord → DWord) : State :=
  let b := State.bsrc64 s o.b
  State.writeV64 (State.lastReadN s o.la o.a.toNat 2) o.d.toNat
    (fun l => let a := State.elem64 s o.a.toNat l; (f a.1 b.1, a.2 || b.2)) (State.unifSrc2 s o.a.toNat)

/-- The B operand of an SR or SC word (R152): s0 to s62, or the literal. -/
def State.sbsrc (s : State) (b : BitVec 6) : Elem :=
  if b == 63 then ⟨State.lit32 s, false⟩ else State.sc s b.toNat

/-- The 64-bit B operand of an SR or SC word. -/
def State.sbsrc64 (s : State) (b : BitVec 6) : DWord × Bool :=
  if b == 63 then (wrap64 (State.lit s), false) else (State.sc64 s b.toNat, State.scPois s b.toNat 2)

/-- A scalar word (R152): s[sd] = f(a, b), poisoned when a read operand is. -/
def State.salu (s : State) (o : SR) (f : Word → Word → Word) : State :=
  let a := State.sc s o.a.toNat
  let b := State.sbsrc s o.b
  State.setSc s o.d.toNat ⟨f a.v b.v, a.p || b.p⟩

end Sys2Proof.Machine
end

