-- ==== Sys2Proof/Machine/Flags.lean ====
section
/-! DEFINITION. The comparisons that write predicates and q flags (R37, R38, R91, R151, R163). -/

namespace Sys2Proof.Machine

/-- An integer condition (R37). -/
def condI (cond : Nat) (a b : Int) : Bool :=
  match cond with
  | 0 => a == b
  | 1 => a != b
  | 2 => a < b
  | 3 => a ≤ b
  | 4 => a > b
  | _ => a ≥ b

/-- A value read as an integer compare type of 32 bits (R38): 0 signed, 1 unsigned. -/
def asTy32 (ty : Nat) (x : Word) : Int := if ty == 0 then x.toInt else x.toNat

/-- A value read as an integer compare type of 64 bits (R38): 2 signed, 3 unsigned. -/
def asTy64 (ty : Nat) (x : DWord) : Int := if ty == 2 then x.toInt else x.toNat

/-- A floating-point condition (R37, R163). -/
def condF (cond : Nat) (a b : Fv) : Bool :=
  if Fv.isNan a || Fv.isNan b then cond == 1 || cond == 6
  else match cond with
    | 0 => Fv.eqv a b
    | 1 => !Fv.eqv a b
    | 2 => Fv.lt a b
    | 3 => !Fv.lt b a
    | 4 => Fv.lt b a
    | 5 => !Fv.lt a b
    | 6 => false
    | _ => true

/-- FZ32 (R65). -/
def fz32 (fpm : Word) : Bool := fpm.getLsbD 3
/-- FZ16 (R65). -/
def fz16 (fpm : Word) : Bool := fpm.getLsbD 4
/-- The default rounding mode (R65). -/
def fpmRm (fpm : Word) : Nat := fpm.toNat % 8

/-- A value read as a float compare type under the wave's flush bits (R38, R163). -/
def asFloat (fpm : Word) (ty : Nat) (x : Word) : Fv :=
  match ty with
  | 0 => Fmt.read f32 (fz32 fpm) x.toNat
  | 1 => Fmt.read f16 (fz16 fpm) (x.toNat % 65536)
  | _ => Fmt.read bf16 (fz16 fpm) (x.toNat % 65536)

/-- Writes a predicate from a comparison of each lane's operands. -/
def State.cmpPred (s : State) (pd : Nat) (f : Nat → Bool × Bool) : State :=
  State.setPred s pd (fun l => (f l).1) (fun l => (f l).2)

end Sys2Proof.Machine
end

