-- ==== Sys2Proof/Machine/Integer.lean ====
section
/-! DEFINITION. Integer and scalar arithmetic (R147 to R152): IALU, IALU.S, BITF, ICMP, SALU, SALU2, SCMP. -/

namespace Sys2Proof.Machine

/-- Bits 63:32 of a product, signed (R149). -/
def mulhS (a b : Word) : Word := hi32 (wrap64 (a.toInt * b.toInt))
/-- Bits 63:32 of a product, unsigned (R149). -/
def mulhU (a b : Word) : Word := hi32 (wrap64 ((a.toNat * b.toNat : Nat) : Int))
/-- The smaller, signed. -/
def minS (a b : Word) : Word := if a.toInt ≤ b.toInt then a else b
/-- The larger, signed. -/
def maxS (a b : Word) : Word := if a.toInt ≥ b.toInt then a else b
/-- The smaller, unsigned. -/
def minU (a b : Word) : Word := if a.toNat ≤ b.toNat then a else b
/-- The larger, unsigned. -/
def maxU (a b : Word) : Word := if a.toNat ≥ b.toNat then a else b
/-- Halves combined one by one, each wrapped to 16 bits (R149). -/
def onHalves (f : Nat → Nat → Int) (a b : Word) : Word :=
  packHalves (wrap (f (half a 0) (half b 0)) 16) (wrap (f (half a 1) (half b 1)) 16)
/-- The sum of four byte products, signed (R149). -/
def dp4S (a b d : Word) : Word :=
  wrap32 (d.toInt + ((List.range 4).map (fun i => sext (byteOf a i) 8 * sext (byteOf b i) 8)).sum)
/-- The sum of four byte products, unsigned (R149). -/
def dp4U (a b d : Word) : Word :=
  wrap32 (d.toInt + ((List.range 4).map (fun i => ((byteOf a i * byteOf b i : Nat) : Int))).sum)
/-- Shift left by a whole-word count: 0 from 32 on (R149). -/
def shl32 (a b : Word) : Word := if b.toNat < 32 then a <<< b.toNat else 0
/-- Logical shift right by a whole-word count: 0 from 32 on (R149). -/
def shr32 (a b : Word) : Word := if b.toNat < 32 then a >>> b.toNat else 0
/-- Arithmetic shift right by a whole-word count (R149). -/
def sar32 (a b : Word) : Word := a.sshiftRight (min b.toNat 31)
/-- Rotate left by the low five bits of the count (R149). -/
def rotl32 (a b : Word) : Word := a.rotateLeft (b.toNat % 32)

/-- The field of a control word (R150): offset and length. -/
def bitField (ctl : Word) : Nat × Nat :=
  let off := bitsOf ctl.toNat 4 0
  (off, min (bitsOf ctl.toNat 13 8) (32 - off))
/-- Bit-field extract, unsigned (R150). -/
def bfxU (a ctl : Word) : Word := BitVec.ofNat 32 (a.toNat / 2 ^ (bitField ctl).1 % 2 ^ (bitField ctl).2)
/-- Bit-field extract, signed (R150). -/
def bfxS (a ctl : Word) : Word :=
  if (bitField ctl).2 == 0 then 0 else wrap32 (sext (bfxU a ctl).toNat (bitField ctl).2)
/-- Bit-field insert (R150). -/
def bfiW (a ctl d : Word) : Word :=
  let off := (bitField ctl).1
  let mask := BitVec.ofNat 32 ((2 ^ (bitField ctl).2 - 1) * 2 ^ off)
  (d &&& ~~~mask) ||| ((a <<< off) &&& mask)
/-- Byte permute (R150). -/
def permW (a ctl d : Word) : Word :=
  packBytes (fun i =>
    let n := bitsOf ctl.toNat (4 * i + 3) (4 * i)
    if n < 4 then byteOf a n
    else if n < 8 then byteOf d (n - 4)
    else if n < 12 then (if byteOf a (n - 8) ≥ 128 then 255 else 0)
    else 0)
/-- The number of 1 bits. -/
def popcW (a : Word) : Word := BitVec.ofNat 32 ((List.range 32).countP (fun i => a.getLsbD i))
/-- The number of leading 0 bits. -/
def clzW (a : Word) : Word := BitVec.ofNat 32 (if a.toNat == 0 then 32 else 31 - Nat.log2 a.toNat)
/-- The number of trailing 0 bits. -/
def ctzW (a : Word) : Word := BitVec.ofNat 32 ((List.range 32).findIdx (fun i => a.getLsbD i))
/-- Bits in the opposite order. -/
def brevW (a : Word) : Word :=
  BitVec.ofNat 32 ((List.range 32).foldl (fun acc i => 2 * acc + (if a.getLsbD i then 1 else 0)) 0)
/-- Funnel shift left (R150). -/
def fshlW (a b d : Word) : Word := hi32 (pair64 d a <<< (b.toNat % 32))
/-- Funnel shift right (R150). -/
def fshrW (a b d : Word) : Word := lo32 (pair64 d a >>> (b.toNat % 32))

/-- IALU (R149): wrap(a + b, 32). -/
def execAddI32 (o : VR) (s : State) : Res := .next (State.aluVR s o (fun a b => a + b))
/-- IALU.S (R149): wrap(a + b, 32). -/
def execAddI32S (o : VS) (s : State) : Res := .next (State.aluVS s o (fun a b => a + b))
/-- IALU (R149): wrap(a - b, 32). -/
def execSubI32 (o : VR) (s : State) : Res := .next (State.aluVR s o (fun a b => a - b))
/-- IALU.S (R149): wrap(a - b, 32). -/
def execSubI32S (o : VS) (s : State) : Res := .next (State.aluVS s o (fun a b => a - b))
/-- IALU (R149): wrap(a * b, 32). -/
def execMulI32 (o : VR) (s : State) : Res := .next (State.aluVR s o (fun a b => a * b))
/-- IALU.S (R149): wrap(a * b, 32). -/
def execMulI32S (o : VS) (s : State) : Res := .next (State.aluVS s o (fun a b => a * b))
/-- IALU (R149): product bits 63:32, signed. -/
def execMulhI32 (o : VR) (s : State) : Res := .next (State.aluVR s o mulhS)
/-- IALU.S (R149): product bits 63:32, signed. -/
def execMulhI32S (o : VS) (s : State) : Res := .next (State.aluVS s o mulhS)
/-- IALU (R149): product bits 63:32, unsigned. -/
def execMulhN32 (o : VR) (s : State) : Res := .next (State.aluVR s o mulhU)
/-- IALU.S (R149): product bits 63:32, unsigned. -/
def execMulhN32S (o : VS) (s : State) : Res := .next (State.aluVS s o mulhU)
/-- IALU (R149): signed product in a pair. -/
def execMulwI32 (o : VR) (s : State) : Res := .next (State.wideVR s o (fun a b => wrap64 (a.toInt * b.toInt)))
/-- IALU.S (R149): signed product in a pair. -/
def execMulwI32S (o : VS) (s : State) : Res := .next (State.wideVS s o (fun a b => wrap64 (a.toInt * b.toInt)))
/-- IALU (R149): unsigned product in a pair. -/
def execMulwN32 (o : VR) (s : State) : Res := .next (State.wideVR s o (fun a b => wrap64 ((a.toNat * b.toNat : Nat) : Int)))
/-- IALU.S (R149): unsigned product in a pair. -/
def execMulwN32S (o : VS) (s : State) : Res := .next (State.wideVS s o (fun a b => wrap64 ((a.toNat * b.toNat : Nat) : Int)))
/-- IALU (R149): wrap(a * b + d, 32). -/
def execMadI32 (o : VR) (s : State) : Res := .next (State.accVR s o (fun a b d => a * b + d))
/-- IALU.S (R149): wrap(a * b + d, 32). -/
def execMadI32S (o : VS) (s : State) : Res := .next (State.accVS s o (fun a b d => a * b + d))
/-- IALU (R149): smaller, signed. -/
def execMinI32 (o : VR) (s : State) : Res := .next (State.aluVR s o minS)
/-- IALU.S (R149): smaller, signed. -/
def execMinI32S (o : VS) (s : State) : Res := .next (State.aluVS s o minS)
/-- IALU (R149): larger, signed. -/
def execMaxI32 (o : VR) (s : State) : Res := .next (State.aluVR s o maxS)
/-- IALU.S (R149): larger, signed. -/
def execMaxI32S (o : VS) (s : State) : Res := .next (State.aluVS s o maxS)
/-- IALU (R149): smaller, unsigned. -/
def execMinN32 (o : VR) (s : State) : Res := .next (State.aluVR s o minU)
/-- IALU.S (R149): smaller, unsigned. -/
def execMinN32S (o : VS) (s : State) : Res := .next (State.aluVS s o minU)
/-- IALU (R149): larger, unsigned. -/
def execMaxN32 (o : VR) (s : State) : Res := .next (State.aluVR s o maxU)
/-- IALU.S (R149): larger, unsigned. -/
def execMaxN32S (o : VS) (s : State) : Res := .next (State.aluVS s o maxU)
/-- IALU (R149): absolute value, wrapped. -/
def execAbsI32 (o : VU) (s : State) : Res := .next (State.alu1 s o (fun a => wrap32 a.toInt.natAbs))
/-- IALU.S (R149): absolute value, wrapped. -/
def execAbsI32S (o : VU) (s : State) : Res := .next (State.alu1 s o (fun a => wrap32 a.toInt.natAbs))
/-- IALU (R149): sat_i(a + b, 32). -/
def execAddsI32 (o : VR) (s : State) : Res := .next (State.aluVR s o (fun a b => wrap32 (satI (a.toInt + b.toInt) 32)))
/-- IALU.S (R149): sat_i(a + b, 32). -/
def execAddsI32S (o : VS) (s : State) : Res := .next (State.aluVS s o (fun a b => wrap32 (satI (a.toInt + b.toInt) 32)))
/-- IALU (R149): sat_i(a - b, 32). -/
def execSubsI32 (o : VR) (s : State) : Res := .next (State.aluVR s o (fun a b => wrap32 (satI (a.toInt - b.toInt) 32)))
/-- IALU.S (R149): sat_i(a - b, 32). -/
def execSubsI32S (o : VS) (s : State) : Res := .next (State.aluVS s o (fun a b => wrap32 (satI (a.toInt - b.toInt) 32)))
/-- IALU (R149): sat_n(a + b, 32). -/
def execAddsN32 (o : VR) (s : State) : Res := .next (State.aluVR s o (fun a b => wrap32 (satN ((a.toNat : Int) + b.toNat) 32)))
/-- IALU.S (R149): sat_n(a + b, 32). -/
def execAddsN32S (o : VS) (s : State) : Res := .next (State.aluVS s o (fun a b => wrap32 (satN ((a.toNat : Int) + b.toNat) 32)))
/-- IALU (R149): sat_n(a - b, 32). -/
def execSubsN32 (o : VR) (s : State) : Res := .next (State.aluVR s o (fun a b => wrap32 (satN ((a.toNat : Int) - b.toNat) 32)))
/-- IALU.S (R149): sat_n(a - b, 32). -/
def execSubsN32S (o : VS) (s : State) : Res := .next (State.aluVS s o (fun a b => wrap32 (satN ((a.toNat : Int) - b.toNat) 32)))
/-- IALU (R149): wrap(a + b, 64) on pairs. -/
def execAddI64 (o : VR) (s : State) : Res := .next (State.alu64VR s o (fun a b => a + b))
/-- IALU.S (R149): wrap(a + b, 64) on pairs. -/
def execAddI64S (o : VS) (s : State) : Res := .next (State.alu64VS s o (fun a b => a + b))
/-- IALU (R149): wrap(a - b, 64) on pairs. -/
def execSubI64 (o : VR) (s : State) : Res := .next (State.alu64VR s o (fun a b => a - b))
/-- IALU.S (R149): wrap(a - b, 64) on pairs. -/
def execSubI64S (o : VS) (s : State) : Res := .next (State.alu64VS s o (fun a b => a - b))
/-- IALU (R149): half by half. -/
def execAddI16x2 (o : VR) (s : State) : Res := .next (State.aluVR s o (onHalves (fun a b => (a : Int) + b)))
/-- IALU.S (R149): half by half. -/
def execAddI16x2S (o : VS) (s : State) : Res := .next (State.aluVS s o (onHalves (fun a b => (a : Int) + b)))
/-- IALU (R149): half by half. -/
def execSubI16x2 (o : VR) (s : State) : Res := .next (State.aluVR s o (onHalves (fun a b => (a : Int) - b)))
/-- IALU.S (R149): half by half. -/
def execSubI16x2S (o : VS) (s : State) : Res := .next (State.aluVS s o (onHalves (fun a b => (a : Int) - b)))
/-- IALU (R149): d plus four signed byte products. -/
def execDp4I8 (o : VR) (s : State) : Res := .next (State.accVR s o dp4S)
/-- IALU.S (R149): d plus four signed byte products. -/
def execDp4I8S (o : VS) (s : State) : Res := .next (State.accVS s o dp4S)
/-- IALU (R149): d plus four unsigned byte products. -/
def execDp4N8 (o : VR) (s : State) : Res := .next (State.accVR s o dp4U)
/-- IALU.S (R149): d plus four unsigned byte products. -/
def execDp4N8S (o : VS) (s : State) : Res := .next (State.accVS s o dp4U)
/-- IALU (R149): a AND b. -/
def execVAnd (o : VR) (s : State) : Res := .next (State.aluVR s o (fun a b => a &&& b))
/-- IALU.S (R149): a AND b. -/
def execVAndS (o : VS) (s : State) : Res := .next (State.aluVS s o (fun a b => a &&& b))
/-- IALU (R149): a OR b. -/
def execVOr (o : VR) (s : State) : Res := .next (State.aluVR s o (fun a b => a ||| b))
/-- IALU.S (R149): a OR b. -/
def execVOrS (o : VS) (s : State) : Res := .next (State.aluVS s o (fun a b => a ||| b))
/-- IALU (R149): a XOR b. -/
def execVXor (o : VR) (s : State) : Res := .next (State.aluVR s o (fun a b => a ^^^ b))
/-- IALU.S (R149): a XOR b. -/
def execVXorS (o : VS) (s : State) : Res := .next (State.aluVS s o (fun a b => a ^^^ b))
/-- IALU (R149): a AND NOT b. -/
def execVAndn (o : VR) (s : State) : Res := .next (State.aluVR s o (fun a b => a &&& ~~~b))
/-- IALU.S (R149): a AND NOT b. -/
def execVAndnS (o : VS) (s : State) : Res := .next (State.aluVS s o (fun a b => a &&& ~~~b))
/-- IALU (R149): shift left. -/
def execShl (o : VR) (s : State) : Res := .next (State.aluVR s o shl32)
/-- IALU.S (R149): shift left. -/
def execShlS (o : VS) (s : State) : Res := .next (State.aluVS s o shl32)
/-- IALU (R149): shift right. -/
def execShr (o : VR) (s : State) : Res := .next (State.aluVR s o shr32)
/-- IALU.S (R149): shift right. -/
def execShrS (o : VS) (s : State) : Res := .next (State.aluVS s o shr32)
/-- IALU (R149): arithmetic shift right. -/
def execSar (o : VR) (s : State) : Res := .next (State.aluVR s o sar32)
/-- IALU.S (R149): arithmetic shift right. -/
def execSarS (o : VS) (s : State) : Res := .next (State.aluVS s o sar32)
/-- IALU (R149): rotate left. -/
def execRotl (o : VR) (s : State) : Res := .next (State.aluVR s o rotl32)
/-- IALU.S (R149): rotate left. -/
def execRotlS (o : VS) (s : State) : Res := .next (State.aluVS s o rotl32)
/-- BITF (R150): bfxI32. -/
def execBfxI32 (o : VR) (s : State) : Res := .next (State.aluVR s o bfxS)
/-- BITF (R150): bfxN32. -/
def execBfxN32 (o : VR) (s : State) : Res := .next (State.aluVR s o bfxU)
/-- BITF (R150): bfi. -/
def execBfi (o : VR) (s : State) : Res := .next (State.accVR s o bfiW)
/-- BITF (R150): perm. -/
def execPerm (o : VR) (s : State) : Res := .next (State.accVR s o permW)
/-- BITF (R150): popc. -/
def execPopc (o : VU) (s : State) : Res := .next (State.alu1 s o popcW)
/-- BITF (R150): clz. -/
def execClz (o : VU) (s : State) : Res := .next (State.alu1 s o clzW)
/-- BITF (R150): ctz. -/
def execCtz (o : VU) (s : State) : Res := .next (State.alu1 s o ctzW)
/-- BITF (R150): brev. -/
def execBrev (o : VU) (s : State) : Res := .next (State.alu1 s o brevW)
/-- BITF (R150): fshl. -/
def execFshl (o : VR) (s : State) : Res := .next (State.accVR s o fshlW)
/-- BITF (R150): fshr. -/
def execFshr (o : VR) (s : State) : Res := .next (State.accVR s o fshrW)
/-- BITF (R150): sext8. -/
def execSext8 (o : VU) (s : State) : Res := .next (State.alu1 s o (fun a => wrap32 (sext a.toNat 8)))
/-- BITF (R150): sext16. -/
def execSext16 (o : VU) (s : State) : Res := .next (State.alu1 s o (fun a => wrap32 (sext a.toNat 16)))

/-- ICMP (R151): pd[l] = compare(cond, a, b) as ty, in the subset's lanes. -/
def execIcmp (o : VP) (s : State) : Res :=
  let ty := o.ty.toNat
  let k := if ty < 2 then 1 else 2
  let s' := State.lastReadN (State.lastReadN s o.la o.a.toNat k) o.lb o.b.toNat k
  .next (State.cmpPred s' o.pd.toNat (fun l =>
    if ty < 2 then
      let a := State.elem s o.a.toNat l
      let b := State.elem s o.b.toNat l
      (condI o.cond.toNat (asTy32 ty a.v) (asTy32 ty b.v), a.p || b.p)
    else
      let a := State.elem64 s o.a.toNat l
      let b := State.elem64 s o.b.toNat l
      (condI o.cond.toNat (asTy64 ty a.1) (asTy64 ty b.1), a.2 || b.2)))

/-- ICMP.S (R151): the B operand is a B-source. -/
def execIcmpS (o : VPS) (s : State) : Res :=
  let ty := o.ty.toNat
  let k := if ty < 2 then 1 else 2
  let s' := State.lastReadN s o.la o.a.toNat k
  .next (State.cmpPred s' o.pd.toNat (fun l =>
    if ty < 2 then
      let a := State.elem s o.a.toNat l
      let b := State.bsrc s o.b
      (condI o.cond.toNat (asTy32 ty a.v) (asTy32 ty b.v), a.p || b.p)
    else
      let a := State.elem64 s o.a.toNat l
      let b := State.bsrc64 s o.b
      (condI o.cond.toNat (asTy64 ty a.1) (asTy64 ty b.1), a.2 || b.2)))

/-- SALU, SALU2 (R152): sadd. -/
def execSadd (o : SR) (s : State) : Res := .next (State.salu s o (fun a b => a + b))
/-- SALU, SALU2 (R152): ssub. -/
def execSsub (o : SR) (s : State) : Res := .next (State.salu s o (fun a b => a - b))
/-- SALU, SALU2 (R152): smul. -/
def execSmul (o : SR) (s : State) : Res := .next (State.salu s o (fun a b => a * b))
/-- SALU, SALU2 (R152): sand. -/
def execSand (o : SR) (s : State) : Res := .next (State.salu s o (fun a b => a &&& b))
/-- SALU, SALU2 (R152): sor. -/
def execSor (o : SR) (s : State) : Res := .next (State.salu s o (fun a b => a ||| b))
/-- SALU, SALU2 (R152): sxor. -/
def execSxor (o : SR) (s : State) : Res := .next (State.salu s o (fun a b => a ^^^ b))
/-- SALU, SALU2 (R152): sshl. -/
def execSshl (o : SR) (s : State) : Res := .next (State.salu s o shl32)
/-- SALU, SALU2 (R152): sshr. -/
def execSshr (o : SR) (s : State) : Res := .next (State.salu s o shr32)
/-- SALU, SALU2 (R152): ssar. -/
def execSsar (o : SR) (s : State) : Res := .next (State.salu s o sar32)
/-- SALU, SALU2 (R152): smin. -/
def execSmin (o : SR) (s : State) : Res := .next (State.salu s o minS)
/-- SALU, SALU2 (R152): smax. -/
def execSmax (o : SR) (s : State) : Res := .next (State.salu s o maxS)
/-- SALU, SALU2 (R152): sminn. -/
def execSminn (o : SR) (s : State) : Res := .next (State.salu s o minU)
/-- SALU, SALU2 (R152): smaxn. -/
def execSmaxn (o : SR) (s : State) : Res := .next (State.salu s o maxU)
/-- SALU, SALU2 (R152): smulh. -/
def execSmulh (o : SR) (s : State) : Res := .next (State.salu s o mulhS)

/-- SADD64 (R152): wrap(A + B, 64) into a pair. -/
def execSadd64 (o : SR) (s : State) : Res :=
  let b := State.sbsrc64 s o.b
  .next (State.setSc64 s o.d.toNat (State.sc64 s o.a.toNat + b.1) (State.scPois s o.a.toNat 2 || b.2))

/-- SSEL (R152): a if q0 is 1, else b; poisoned with q0 or the chosen operand. -/
def execSsel (o : SR) (s : State) : Res :=
  let q := State.flag s 0
  let x := if q.v then State.sc s o.a.toNat else State.sbsrc s o.b
  .next (State.setSc s o.d.toNat ⟨x.v, q.p || x.p⟩)

/-- SCMP (R91): q[qd] = compare(cond, a, b) as ty, poisoned when an operand is. -/
def execScmp (o : SC) (s : State) : Res :=
  let ty := o.ty.toNat
  if ty < 2 then
    let a := State.sc s o.a.toNat
    let b := State.sbsrc s o.b
    .next (State.setFlag s o.q.toNat (condI o.cond.toNat (asTy32 ty a.v) (asTy32 ty b.v)) (a.p || b.p))
  else
    let b := State.sbsrc64 s o.b
    .next (State.setFlag s o.q.toNat (condI o.cond.toNat (asTy64 ty (State.sc64 s o.a.toNat)) (asTy64 ty b.1))
      (State.scPois s o.a.toNat 2 || b.2))

end Sys2Proof.Machine
end

