-- ==== Sys2Proof/Machine/Registers.lean ====
section
/-! DEFINITION. Moves, predicate logic, selection, cross-lane exchange, scans, votes and wave reductions (R114 to R122). -/

namespace Sys2Proof.Machine

/-- MOV (R115): a copy of a register. -/
def execMov (o : CMov) (s : State) : Res :=
  .next (State.writeV (State.lastRead s o.la o.a.toNat) o.d.toNat (fun l => State.elem s o.a.toNat l) (State.unifSrc s o.a.toNat))

/-- MOVS (R115): a scalar into every lane. -/
def execMovs (o : CVS) (s : State) : Res :=
  .next (State.writeV s o.d.toNat (fun _ => State.sc s o.s.toNat) true)

/-- RDL (R115): s[N] = va[L], lane L in or out of the subset. -/
def execRdl (o : CVSK) (s : State) : Res :=
  .next (State.setSc s o.s.toNat (State.elem s o.v.toNat o.k.toNat))

/-- WRL (R115): vd[L] = s[N] when lane L is in the subset, else nothing. -/
def execWrl (o : CVSK) (s : State) : Res :=
  .next (State.writeVIn s o.v.toNat (s.ctx.lanes &&& (1#64 <<< o.k.toNat)) (fun _ => State.sc s o.s.toNat) false)

/-- The value of `lid` in a lane (R114). -/
def State.lidValue (s : State) (kind l : Nat) : Word :=
  let w := State.src s
  match kind with
  | 0 => BitVec.ofNat 32 l
  | 1 => BitVec.ofNat 32 (l / 4)
  | 2 => BitVec.ofNat 32 (l % 4)
  | 3 => if (Wave.helpers w).getLsbD l then 1 else 0
  | 4 => Device.laneIndex s.pre w l
  | 5 => BitVec.ofNat 32 (Device.wgLinear s.pre w)
  | _ => if l < 32 then lo32 (Wave.live w) else hi32 (Wave.live w)

/-- LID (R114): a per-lane value, poison clear. -/
def execLid (o : CVK) (s : State) : Res :=
  .next (State.writeV s o.d.toNat (fun l => ⟨State.lidValue s o.k.toNat l, false⟩) false)

/-- MOVP (R115): 1 where the predicate is true, else 0. -/
def execMovp (o : CVP) (s : State) : Res :=
  .next (State.writeV s o.v.toNat (fun l => ⟨if State.pv s o.p.toNat l then 1 else 0, State.pp s o.p.toNat l⟩) false)

/-- PMOV (R115): true where the element is not zero. -/
def execPmov (o : CPmov) (s : State) : Res :=
  .next (State.setPred (State.lastRead s o.la o.a.toNat) o.p.toNat
    (fun l => (State.elem s o.a.toNat l).v != 0) (fun l => (State.elem s o.a.toNat l).p))

/-- MOVI (R115): bits 31:0 of the literal, poison clear. -/
def execMovi (o : CV) (s : State) : Res :=
  .next (State.writeV s o.v.toNat (fun _ => ⟨State.lit32 s, false⟩) true)

/-- A predicate function of two predicates (R116). -/
def State.plog (s : State) (o : P3) (f : Bool → Bool → Bool) : State :=
  State.setPred s o.d.toNat (fun l => f (State.pv s o.a.toNat l) (State.pv s o.b.toNat l))
    (fun l => State.pp s o.a.toNat l || State.pp s o.b.toNat l)

/-- PAND (R116). -/
def execPand (o : P3) (s : State) : Res := .next (State.plog s o (fun a b => a && b))
/-- POR (R116). -/
def execPor (o : P3) (s : State) : Res := .next (State.plog s o (fun a b => a || b))
/-- PXOR (R116). -/
def execPxor (o : P3) (s : State) : Res := .next (State.plog s o (fun a b => a != b))
/-- PANDN (R116). -/
def execPandn (o : P3) (s : State) : Res := .next (State.plog s o (fun a b => a && !b))
/-- PNOT (R116). -/
def execPnot (o : P2) (s : State) : Res :=
  .next (State.setPred s o.d.toNat (fun l => !State.pv s o.a.toNat l) (fun l => State.pp s o.a.toNat l))
/-- PSET (R116). -/
def execPset (o : P1) (s : State) : Res := .next (State.setPred s o.d.toNat (fun _ => true) (fun _ => false))
/-- PCLR of a predicate (R116, R48). -/
def execPclr (o : P1) (s : State) : Res := .next (State.setPred s o.d.toNat (fun _ => false) (fun _ => false))

/-- SEL (R117): va where the predicate XOR negate is true, else vb; poisoned with the predicate or the chosen element. -/
def execSel (o : VSel) (s : State) : Res :=
  .next (State.writeV (State.lastRead (State.lastRead s o.la o.a.toNat) o.lb o.b.toNat) o.d.toNat
    (fun l =>
      let c := State.pv s o.p.toNat l != (o.n == 1)
      let x := if c then State.elem s o.a.toNat l else State.elem s o.b.toNat l
      ⟨x.v, State.pp s o.p.toNat l || x.p⟩)
    (o.p == 0 && State.unifSrc s o.a.toNat && State.unifSrc s o.b.toNat))

/-- A cross-lane word (R119): lane l receives va of the lane that its source rule names from l and vb[l]. -/
def State.xlane (s : State) (o : VR) (j : Nat → Nat → Nat) : State :=
  State.writeV (State.lastRead (State.lastRead s o.la o.a.toNat) o.lb o.b.toNat) o.d.toNat
    (fun l =>
      let b := State.elem s o.b.toNat l
      let a := State.elem s o.a.toNat (j l (b.v.toNat % 64))
      ⟨a.v, a.p || b.p⟩) false

/-- A quad exchange (R119): lane l receives va of a fixed partner. -/
def State.qswap (s : State) (o : VU) (j : Nat → Nat) : State :=
  State.writeV (State.lastRead s o.la o.a.toNat) o.d.toNat (fun l => State.elem s o.a.toNat (j l)) false

/-- SHFL (R119): from lane d. -/
def execShfl (o : VR) (s : State) : Res := .next (State.xlane s o (fun _ d => d))
/-- SHFLX (R119): from lane l XOR d. -/
def execShflx (o : VR) (s : State) : Res := .next (State.xlane s o (fun l d => l ^^^ d))
/-- SHFLUP (R119): from lane l - d, or l. -/
def execShflup (o : VR) (s : State) : Res := .next (State.xlane s o (fun l d => if l < d then l else l - d))
/-- SHFLDN (R119): from lane l + d, or l. -/
def execShfldn (o : VR) (s : State) : Res := .next (State.xlane s o (fun l d => if l + d > 63 then l else l + d))
/-- QSWAP.H (R119). -/
def execQswapH (o : VU) (s : State) : Res := .next (State.qswap s o (fun l => l ^^^ 1))
/-- QSWAP.V (R119). -/
def execQswapV (o : VU) (s : State) : Res := .next (State.qswap s o (fun l => l ^^^ 2))
/-- QSWAP.D (R119). -/
def execQswapD (o : VU) (s : State) : Res := .next (State.qswap s o (fun l => l ^^^ 3))
/-- QBCAST (R119): from the lane of the quad that vb names. -/
def execQbcast (o : VR) (s : State) : Res := .next (State.xlane s o (fun l d => l / 4 * 4 + d % 4))

/-- Does a lane contribute to a scan, vote or reduction: in the subset and no helper (R120, R121). -/
def State.contrib (s : State) (l : Nat) : Bool := s.ctx.lanes.getLsbD l && !(Wave.helpers (State.src s)).getLsbD l

/-- The 64 values that enter a combination: a contributing lane's element, else the identity. -/
def State.entering (s : State) (a : Nat) (ident : Nat) : List Nat :=
  mkLanes (fun l => if State.contrib s l then (State.elem s a l).v.toNat else ident)

/-- Is some contributing lane up to a bound poisoned. -/
def State.enteringPois (s : State) (a : Nat) (upTo : Nat) : Bool :=
  (List.range upTo).any (fun l => State.contrib s l && (State.elem s a l).p)

/-- A scan (R120): lane l receives the combination of the entering values of lanes below `upTo l`. -/
def State.scan (s : State) (o : VU) (ident : Nat) (upTo : Nat → Nat) (combine : List Nat → Nat) : State :=
  let x := State.entering s o.a.toNat ident
  State.writeV (State.lastRead s o.la o.a.toNat) o.d.toNat
    (fun l => ⟨BitVec.ofNat 32 (combine (x.take (upTo l))), State.enteringPois s o.a.toNat (upTo l)⟩) false

/-- A fold of 32-bit values. -/
def foldW (f : Word → Word → Word) (ident : Nat) (x : List Nat) : Nat :=
  (x.foldl (fun acc y => f acc (BitVec.ofNat 32 y)) (BitVec.ofNat 32 ident)).toNat

/-- The tree of R72 over values padded with the identity. -/
def treePad (op : Nat → Nat → Nat) (ident : Nat) (x : List Nat) : Nat :=
  treeReduce op (x ++ List.replicate (64 - x.length) ident)

/-- SCAN.ADD.I32 (R120). -/
def execScanAddI32 (o : VU) (s : State) : Res := .next (State.scan s o 0 (fun l => l + 1) (foldW (fun a b => a + b) 0))
/-- SCAN.ADD.F32 (R120): the tree of R72, inclusive, flushed under FZ32. -/
def execScanAddF32 (o : VU) (s : State) : Res :=
  .next (State.scan s o 0x80000000 (fun l => l + 1) (treePad (fadd72 (fz32 (State.src s).fpm)) 0x80000000))
/-- SCAN.MAX.I32 (R120). -/
def execScanMaxI32 (o : VU) (s : State) : Res := .next (State.scan s o 0x80000000 (fun l => l + 1) (foldW maxS 0x80000000))
/-- SCAN.MIN.I32 (R120). -/
def execScanMinI32 (o : VU) (s : State) : Res := .next (State.scan s o 0x7FFFFFFF (fun l => l + 1) (foldW minS 0x7FFFFFFF))
/-- XSCAN.ADD.I32 (R120): over the lanes below l. -/
def execXscanAddI32 (o : VU) (s : State) : Res := .next (State.scan s o 0 (fun l => l) (foldW (fun a b => a + b) 0))

/-- The poison of a vote: the predicate carries poison in some contributing lane (R121). -/
def State.votePois (s : State) (p : Nat) : Bool := lanes64.any (fun l => State.contrib s l && State.pp s p l)

/-- VOTE.ANY (R121). -/
def execVoteAny (o : CSP) (s : State) : Res :=
  .next (State.setSc s o.s.toNat
    ⟨if lanes64.any (fun l => State.contrib s l && State.pv s o.p.toNat l) then 1 else 0, State.votePois s o.p.toNat⟩)
/-- VOTE.ALL (R121): 1 when no lane contributes. -/
def execVoteAll (o : CSP) (s : State) : Res :=
  .next (State.setSc s o.s.toNat
    ⟨if lanes64.all (fun l => !State.contrib s l || State.pv s o.p.toNat l) then 1 else 0, State.votePois s o.p.toNat⟩)
/-- BALLOT (R121): the mask of contributing lanes with the predicate true. -/
def execBallot (o : CSP) (s : State) : Res :=
  .next (State.setSc64 s o.s.toNat (maskOf (fun l => State.contrib s l && State.pv s o.p.toNat l)) (State.votePois s o.p.toNat))

/-- A wave reduction (R122). -/
def State.redw (s : State) (o : CRed) (ident : Nat) (combine : List Nat → Nat) : State :=
  State.setSc (State.lastRead s o.la o.a.toNat) o.s.toNat
    ⟨BitVec.ofNat 32 (combine (State.entering s o.a.toNat ident)), State.enteringPois s o.a.toNat 64⟩

/-- REDW (R122): AddI32. -/
def execRedwAddI32 (o : CRed) (s : State) : Res := .next (State.redw s o 0 (foldW (fun a b => a + b) 0))
/-- REDW (R122): MinI32. -/
def execRedwMinI32 (o : CRed) (s : State) : Res := .next (State.redw s o 0x7FFFFFFF (foldW minS 0x7FFFFFFF))
/-- REDW (R122): MaxI32. -/
def execRedwMaxI32 (o : CRed) (s : State) : Res := .next (State.redw s o 0x80000000 (foldW maxS 0x80000000))
/-- REDW (R122): MinN32. -/
def execRedwMinN32 (o : CRed) (s : State) : Res := .next (State.redw s o 0xFFFFFFFF (foldW minU 0xFFFFFFFF))
/-- REDW (R122): MaxN32. -/
def execRedwMaxN32 (o : CRed) (s : State) : Res := .next (State.redw s o 0 (foldW maxU 0))
/-- REDW (R122): And. -/
def execRedwAnd (o : CRed) (s : State) : Res := .next (State.redw s o 0xFFFFFFFF (foldW (fun a b => a &&& b) 0xFFFFFFFF))
/-- REDW (R122): Or. -/
def execRedwOr (o : CRed) (s : State) : Res := .next (State.redw s o 0 (foldW (fun a b => a ||| b) 0))
/-- REDW (R122): Xor. -/
def execRedwXor (o : CRed) (s : State) : Res := .next (State.redw s o 0 (foldW (fun a b => a ^^^ b) 0))
/-- REDW (R122): AddF32. -/
def execRedwAddF32 (o : CRed) (s : State) : Res := .next (State.redw s o 0x80000000 (treeReduce (fadd72 (fz32 (State.src s).fpm))))
/-- REDW (R122): MinF32. -/
def execRedwMinF32 (o : CRed) (s : State) : Res := .next (State.redw s o 0x7F800000 (treeReduce (fminBits f32 (fz32 (State.src s).fpm))))
/-- REDW (R122): MaxF32. -/
def execRedwMaxF32 (o : CRed) (s : State) : Res := .next (State.redw s o 0xFF800000 (treeReduce (fmaxBits f32 (fz32 (State.src s).fpm))))

end Sys2Proof.Machine
end

