-- ==== Sys2Proof/Machine/FloatOps.lean ====
section
/-! DEFINITION. Floating-point arithmetic, conversion, block quantisation and special functions (R156 to R172). -/

namespace Sys2Proof.Machine

/-- The stochastic draw of the wave for element e of lane l (R69). -/
def State.draw (s : State) (l e : Nat) : Nat :=
  let w := State.src s
  let key := BitVec.ofNat 32 (bitsOf w.fpm.toNat 31 16 * 0x00010001)
  (mix32 key ((State.cur s).scount + BitVec.ofNat 32 e) (Device.laneIndex s.pre w l)).toNat

/-- Advances the stochastic count by k when the word rounds under mode 4 (R69). -/
def State.bumpCount (s : State) (rm k : Nat) : State :=
  if rm == 4 then State.mapWave s (fun w => { w with scount := w.scount + BitVec.ofNat 32 k }) else s

/-- An exact value rounded to f32 under the wave's mode (R157). -/
def rnd32 (fpm : Word) (dr : Nat → Nat) (v : Fv) : Word :=
  BitVec.ofNat 32 (Fmt.round f32 (fpmRm fpm) false (fz32 fpm) (dr 0) v)

/-- An f32 operand, flushed under FZ32 (R157). -/
def rd32 (fpm : Word) (a : Word) : Fv := Fmt.read f32 (fz32 fpm) a.toNat

/-- An exact sum with the zero sign of the mode (R62). -/
def fsumW (fpm : Word) (l : List Fv) : Fv := Fv.sum (fpmRm fpm == 2) l

/-- fadd.f32 (R159). -/
def fadd32 (fpm : Word) (dr : Nat → Nat) (a b : Word) : Word := rnd32 fpm dr (fsumW fpm [rd32 fpm a, rd32 fpm b])
/-- fsub.f32 (R159). -/
def fsub32 (fpm : Word) (dr : Nat → Nat) (a b : Word) : Word := rnd32 fpm dr (fsumW fpm [rd32 fpm a, Fv.opp (rd32 fpm b)])
/-- fmul.f32 (R159). -/
def fmul32 (fpm : Word) (dr : Nat → Nat) (a b : Word) : Word := rnd32 fpm dr (Fv.mul (rd32 fpm a) (rd32 fpm b))
/-- fma.f32 (R159). -/
def fma32 (fpm : Word) (dr : Nat → Nat) (a b d : Word) : Word :=
  rnd32 fpm dr (fsumW fpm [Fv.mul (rd32 fpm a) (rd32 fpm b), rd32 fpm d])
/-- fnma.f32 (R159). -/
def fnma32 (fpm : Word) (dr : Nat → Nat) (a b d : Word) : Word :=
  rnd32 fpm dr (fsumW fpm [rd32 fpm d, Fv.opp (Fv.mul (rd32 fpm a) (rd32 fpm b))])
/-- fmin.f32 (R160). -/
def fmin32 (fpm : Word) (a b : Word) : Word := BitVec.ofNat 32 (fminBits f32 (fz32 fpm) a.toNat b.toNat)
/-- fmax.f32 (R160). -/
def fmax32 (fpm : Word) (a b : Word) : Word := BitVec.ofNat 32 (fmaxBits f32 (fz32 fpm) a.toNat b.toNat)
/-- fsign.f32 (R161). -/
def fsign32 (fpm : Word) (a : Word) : Word :=
  match rd32 fpm a with
  | .nan => BitVec.ofNat 32 f32.nanBits
  | .inf n => if n then 0xBF800000 else 0x3F800000
  | .fin n m _ => if m == 0 then (if n then 0x80000000 else 0) else if n then 0xBF800000 else 0x3F800000
/-- fldexp.f32 (R161); an exponent beyond 1,000 in magnitude gives the result of 1,000. -/
def fldexp32 (fpm : Word) (dr : Nat → Nat) (a b : Word) : Word :=
  match rd32 fpm a with
  | .fin n m e => if m == 0 then rnd32 fpm dr (.fin n 0 0) else rnd32 fpm dr (.fin n m (e + max (-1000) (min 1000 b.toInt)))
  | v => rnd32 fpm dr v
/-- ffrac.f32 (R161). -/
def ffrac32 (fpm : Word) (dr : Nat → Nat) (a : Word) : Word :=
  match rd32 fpm a with
  | .fin n m e =>
    let r := rnd32 fpm dr (fsumW fpm [.fin n m e, Fv.ofInt (-(Fv.floor (.fin n m e)))])
    if r == 0x3F800000 then 0x3F7FFFFF else if r == 0x80000000 then 0 else r
  | _ => BitVec.ofNat 32 f32.nanBits
/-- flerp.f32 (R161): one rounding of a (1 - t) + b t. -/
def flerp32 (fpm : Word) (dr : Nat → Nat) (a b t : Word) : Word :=
  let x := rd32 fpm a
  let y := rd32 fpm b
  let z := rd32 fpm t
  if Fv.isNan x || Fv.isNan y || Fv.isNan z then BitVec.ofNat 32 f32.nanBits
  else if !Fv.isInf x && !Fv.isInf y && !Fv.isInf z then
    rnd32 fpm dr (fsumW fpm [Fv.mul x (fsumW fpm [Fv.ofInt 1, Fv.opp z]), Fv.mul y z])
  else if !Fv.isInf z && x == y then rnd32 fpm dr x
  else BitVec.ofNat 32 f32.nanBits

/-- A packed function, half by half (R162). -/
def onHalf2 (f : Nat → Nat → Nat → Nat → Nat) (a b d : Word) : Word :=
  packHalves (f 0 (half a 0) (half b 0) (half d 0)) (f 1 (half a 1) (half b 1) (half d 1))

/-- An exact value rounded to a half type (R162). -/
def rndH (t : Fmt) (fpm : Word) (dr : Nat → Nat) (h : Nat) (v : Fv) : Nat := Fmt.round t (fpmRm fpm) false (fz16 fpm) (dr h) v
/-- Packed add (R162). -/
def faddH (t : Fmt) (fpm : Word) (dr : Nat → Nat) (a b : Word) : Word :=
  onHalf2 (fun h x y _ => rndH t fpm dr h (fsumW fpm [Fmt.read t (fz16 fpm) x, Fmt.read t (fz16 fpm) y])) a b 0
/-- Packed multiply (R162). -/
def fmulH (t : Fmt) (fpm : Word) (dr : Nat → Nat) (a b : Word) : Word :=
  onHalf2 (fun h x y _ => rndH t fpm dr h (Fv.mul (Fmt.read t (fz16 fpm) x) (Fmt.read t (fz16 fpm) y))) a b 0
/-- Packed fused multiply-add (R162). -/
def fmaH (t : Fmt) (fpm : Word) (dr : Nat → Nat) (a b d : Word) : Word :=
  onHalf2 (fun h x y z => rndH t fpm dr h
    (fsumW fpm [Fv.mul (Fmt.read t (fz16 fpm) x) (Fmt.read t (fz16 fpm) y), Fmt.read t (fz16 fpm) z])) a b d
/-- Packed minimum (R162). -/
def fminH (t : Fmt) (fpm : Word) (a b : Word) : Word := onHalf2 (fun _ x y _ => fminBits t (fz16 fpm) x y) a b 0
/-- Packed maximum (R162). -/
def fmaxH (t : Fmt) (fpm : Word) (a b : Word) : Word := onHalf2 (fun _ x y _ => fmaxBits t (fz16 fpm) x y) a b 0
/-- The two-term dot product with an f32 accumulator, rounded once (R162). -/
def fdot2W (t : Fmt) (fpm : Word) (dr : Nat → Nat) (a b d : Word) : Word :=
  let p (h : Nat) : Fv := Fv.mul (Fmt.read t (fz16 fpm) (half a h)) (Fmt.read t (fz16 fpm) (half b h))
  rnd32 fpm dr (fsumW fpm [rd32 fpm d, p 0, p 1])

/-- A FALU word (R156, R157): `k` draws a lane; `acc` when vd is read; f takes the lane's draws, a, b, d. -/
def State.faluVR (s : State) (o : VR) (k : Nat) (acc : Bool) (f : Word → (Nat → Nat) → Word → Word → Word → Word) : State :=
  let fpm := (State.src s).fpm
  State.bumpCount (State.writeV (State.lastRead (State.lastRead s o.la o.a.toNat) o.lb o.b.toNat) o.d.toNat
    (fun l =>
      let a := State.elem s o.a.toNat l
      let b := State.elem s o.b.toNat l
      let d := if acc then State.elem s o.d.toNat l else ⟨0, false⟩
      ⟨f fpm (State.draw s l) a.v b.v d.v, a.p || b.p || d.p⟩)
    ((k == 0 || fpmRm fpm != 4) && State.unifSrc s o.a.toNat && State.unifSrc s o.b.toNat && (!acc || State.unifSrc s o.d.toNat)))
    (fpmRm fpm) k

/-- A FALU.S word: the B operand is a B-source. -/
def State.faluVS (s : State) (o : VS) (k : Nat) (acc : Bool) (f : Word → (Nat → Nat) → Word → Word → Word → Word) : State :=
  let fpm := (State.src s).fpm
  let b := State.bsrc s o.b
  State.bumpCount (State.writeV (State.lastRead s o.la o.a.toNat) o.d.toNat
    (fun l =>
      let a := State.elem s o.a.toNat l
      let d := if acc then State.elem s o.d.toNat l else ⟨0, false⟩
      ⟨f fpm (State.draw s l) a.v b.v d.v, a.p || b.p || d.p⟩)
    ((k == 0 || fpmRm fpm != 4) && State.unifSrc s o.a.toNat && (!acc || State.unifSrc s o.d.toNat)))
    (fpmRm fpm) k

/-- A unary FALU word. -/
def State.faluVU (s : State) (o : VU) (k : Nat) (f : Word → (Nat → Nat) → Word → Word) : State :=
  let fpm := (State.src s).fpm
  State.bumpCount (State.writeV (State.lastRead s o.la o.a.toNat) o.d.toNat
    (fun l => let a := State.elem s o.a.toNat l; ⟨f fpm (State.draw s l) a.v, a.p⟩)
    ((k == 0 || fpmRm fpm != 4) && State.unifSrc s o.a.toNat)) (fpmRm fpm) k

/-- FALU (R159 to R162): faddF32. -/
def execFaddF32 (o : VR) (s : State) : Res := .next (State.faluVR s o 1 false (fun m r a b _ => fadd32 m r a b))
/-- FALU.S (R159 to R162): faddF32. -/
def execFaddF32S (o : VS) (s : State) : Res := .next (State.faluVS s o 1 false (fun m r a b _ => fadd32 m r a b))
/-- FALU (R159 to R162): fsubF32. -/
def execFsubF32 (o : VR) (s : State) : Res := .next (State.faluVR s o 1 false (fun m r a b _ => fsub32 m r a b))
/-- FALU.S (R159 to R162): fsubF32. -/
def execFsubF32S (o : VS) (s : State) : Res := .next (State.faluVS s o 1 false (fun m r a b _ => fsub32 m r a b))
/-- FALU (R159 to R162): fmulF32. -/
def execFmulF32 (o : VR) (s : State) : Res := .next (State.faluVR s o 1 false (fun m r a b _ => fmul32 m r a b))
/-- FALU.S (R159 to R162): fmulF32. -/
def execFmulF32S (o : VS) (s : State) : Res := .next (State.faluVS s o 1 false (fun m r a b _ => fmul32 m r a b))
/-- FALU (R159 to R162): fmaF32. -/
def execFmaF32 (o : VR) (s : State) : Res := .next (State.faluVR s o 1 true fma32)
/-- FALU.S (R159 to R162): fmaF32. -/
def execFmaF32S (o : VS) (s : State) : Res := .next (State.faluVS s o 1 true fma32)
/-- FALU (R159 to R162): fnmaF32. -/
def execFnmaF32 (o : VR) (s : State) : Res := .next (State.faluVR s o 1 true fnma32)
/-- FALU.S (R159 to R162): fnmaF32. -/
def execFnmaF32S (o : VS) (s : State) : Res := .next (State.faluVS s o 1 true fnma32)
/-- FALU (R159 to R162): fminF32. -/
def execFminF32 (o : VR) (s : State) : Res := .next (State.faluVR s o 0 false (fun m _ a b _ => fmin32 m a b))
/-- FALU.S (R159 to R162): fminF32. -/
def execFminF32S (o : VS) (s : State) : Res := .next (State.faluVS s o 0 false (fun m _ a b _ => fmin32 m a b))
/-- FALU (R159 to R162): fmaxF32. -/
def execFmaxF32 (o : VR) (s : State) : Res := .next (State.faluVR s o 0 false (fun m _ a b _ => fmax32 m a b))
/-- FALU.S (R159 to R162): fmaxF32. -/
def execFmaxF32S (o : VS) (s : State) : Res := .next (State.faluVS s o 0 false (fun m _ a b _ => fmax32 m a b))
/-- FALU (R159 to R162): fldexpF32. -/
def execFldexpF32 (o : VR) (s : State) : Res := .next (State.faluVR s o 1 false (fun m r a b _ => fldexp32 m r a b))
/-- FALU.S (R159 to R162): fldexpF32. -/
def execFldexpF32S (o : VS) (s : State) : Res := .next (State.faluVS s o 1 false (fun m r a b _ => fldexp32 m r a b))
/-- FALU (R159 to R162): flerpF32. -/
def execFlerpF32 (o : VR) (s : State) : Res := .next (State.faluVR s o 1 true flerp32)
/-- FALU.S (R159 to R162): flerpF32. -/
def execFlerpF32S (o : VS) (s : State) : Res := .next (State.faluVS s o 1 true flerp32)
/-- FALU (R159 to R162): faddF16x2. -/
def execFaddF16x2 (o : VR) (s : State) : Res := .next (State.faluVR s o 2 false (fun m r a b _ => faddH f16 m r a b))
/-- FALU.S (R159 to R162): faddF16x2. -/
def execFaddF16x2S (o : VS) (s : State) : Res := .next (State.faluVS s o 2 false (fun m r a b _ => faddH f16 m r a b))
/-- FALU (R159 to R162): fmulF16x2. -/
def execFmulF16x2 (o : VR) (s : State) : Res := .next (State.faluVR s o 2 false (fun m r a b _ => fmulH f16 m r a b))
/-- FALU.S (R159 to R162): fmulF16x2. -/
def execFmulF16x2S (o : VS) (s : State) : Res := .next (State.faluVS s o 2 false (fun m r a b _ => fmulH f16 m r a b))
/-- FALU (R159 to R162): fmaF16x2. -/
def execFmaF16x2 (o : VR) (s : State) : Res := .next (State.faluVR s o 2 true (fmaH f16))
/-- FALU.S (R159 to R162): fmaF16x2. -/
def execFmaF16x2S (o : VS) (s : State) : Res := .next (State.faluVS s o 2 true (fmaH f16))
/-- FALU (R159 to R162): fminF16x2. -/
def execFminF16x2 (o : VR) (s : State) : Res := .next (State.faluVR s o 0 false (fun m _ a b _ => fminH f16 m a b))
/-- FALU.S (R159 to R162): fminF16x2. -/
def execFminF16x2S (o : VS) (s : State) : Res := .next (State.faluVS s o 0 false (fun m _ a b _ => fminH f16 m a b))
/-- FALU (R159 to R162): fmaxF16x2. -/
def execFmaxF16x2 (o : VR) (s : State) : Res := .next (State.faluVR s o 0 false (fun m _ a b _ => fmaxH f16 m a b))
/-- FALU.S (R159 to R162): fmaxF16x2. -/
def execFmaxF16x2S (o : VS) (s : State) : Res := .next (State.faluVS s o 0 false (fun m _ a b _ => fmaxH f16 m a b))
/-- FALU (R159 to R162): faddBf16x2. -/
def execFaddBf16x2 (o : VR) (s : State) : Res := .next (State.faluVR s o 2 false (fun m r a b _ => faddH bf16 m r a b))
/-- FALU.S (R159 to R162): faddBf16x2. -/
def execFaddBf16x2S (o : VS) (s : State) : Res := .next (State.faluVS s o 2 false (fun m r a b _ => faddH bf16 m r a b))
/-- FALU (R159 to R162): fmulBf16x2. -/
def execFmulBf16x2 (o : VR) (s : State) : Res := .next (State.faluVR s o 2 false (fun m r a b _ => fmulH bf16 m r a b))
/-- FALU.S (R159 to R162): fmulBf16x2. -/
def execFmulBf16x2S (o : VS) (s : State) : Res := .next (State.faluVS s o 2 false (fun m r a b _ => fmulH bf16 m r a b))
/-- FALU (R159 to R162): fmaBf16x2. -/
def execFmaBf16x2 (o : VR) (s : State) : Res := .next (State.faluVR s o 2 true (fmaH bf16))
/-- FALU.S (R159 to R162): fmaBf16x2. -/
def execFmaBf16x2S (o : VS) (s : State) : Res := .next (State.faluVS s o 2 true (fmaH bf16))
/-- FALU (R159 to R162): fminBf16x2. -/
def execFminBf16x2 (o : VR) (s : State) : Res := .next (State.faluVR s o 0 false (fun m _ a b _ => fminH bf16 m a b))
/-- FALU.S (R159 to R162): fminBf16x2. -/
def execFminBf16x2S (o : VS) (s : State) : Res := .next (State.faluVS s o 0 false (fun m _ a b _ => fminH bf16 m a b))
/-- FALU (R159 to R162): fmaxBf16x2. -/
def execFmaxBf16x2 (o : VR) (s : State) : Res := .next (State.faluVR s o 0 false (fun m _ a b _ => fmaxH bf16 m a b))
/-- FALU.S (R159 to R162): fmaxBf16x2. -/
def execFmaxBf16x2S (o : VS) (s : State) : Res := .next (State.faluVS s o 0 false (fun m _ a b _ => fmaxH bf16 m a b))
/-- FALU (R159 to R162): fdot2Bf16. -/
def execFdot2Bf16 (o : VR) (s : State) : Res := .next (State.faluVR s o 1 true (fdot2W bf16))
/-- FALU.S (R159 to R162): fdot2Bf16. -/
def execFdot2Bf16S (o : VS) (s : State) : Res := .next (State.faluVS s o 1 true (fdot2W bf16))
/-- FALU (R159 to R162): fdot2F16. -/
def execFdot2F16 (o : VR) (s : State) : Res := .next (State.faluVR s o 1 true (fdot2W f16))
/-- FALU.S (R159 to R162): fdot2F16. -/
def execFdot2F16S (o : VS) (s : State) : Res := .next (State.faluVS s o 1 true (fdot2W f16))
/-- FALU (R159, R161): fabsF32. -/
def execFabsF32 (o : VU) (s : State) : Res := .next (State.faluVU s o 0 (fun _ _ a => a &&& 0x7FFFFFFF#32))
/-- FALU.S (R159, R161): fabsF32. -/
def execFabsF32S (o : VU) (s : State) : Res := .next (State.faluVU s o 0 (fun _ _ a => a &&& 0x7FFFFFFF#32))
/-- FALU (R159, R161): fnegF32. -/
def execFnegF32 (o : VU) (s : State) : Res := .next (State.faluVU s o 0 (fun _ _ a => a ^^^ 0x80000000#32))
/-- FALU.S (R159, R161): fnegF32. -/
def execFnegF32S (o : VU) (s : State) : Res := .next (State.faluVU s o 0 (fun _ _ a => a ^^^ 0x80000000#32))
/-- FALU (R159, R161): fsignF32. -/
def execFsignF32 (o : VU) (s : State) : Res := .next (State.faluVU s o 0 (fun m _ a => fsign32 m a))
/-- FALU.S (R159, R161): fsignF32. -/
def execFsignF32S (o : VU) (s : State) : Res := .next (State.faluVU s o 0 (fun m _ a => fsign32 m a))
/-- FALU (R159, R161): ffracF32. -/
def execFfracF32 (o : VU) (s : State) : Res := .next (State.faluVU s o 1 ffrac32)
/-- FALU.S (R159, R161): ffracF32. -/
def execFfracF32S (o : VU) (s : State) : Res := .next (State.faluVU s o 1 ffrac32)
/-- FALU (R159, R161): fclassF32. -/
def execFclassF32 (o : VU) (s : State) : Res := .next (State.faluVU s o 0 (fun _ _ a => BitVec.ofNat 32 (fclassBits a.toNat)))
/-- FALU.S (R159, R161): fclassF32. -/
def execFclassF32S (o : VU) (s : State) : Res := .next (State.faluVU s o 0 (fun _ _ a => BitVec.ofNat 32 (fclassBits a.toNat)))

/-- FCMP (R163). -/
def execFcmp (o : VP) (s : State) : Res :=
  let fpm := (State.src s).fpm
  .next (State.cmpPred (State.lastRead (State.lastRead s o.la o.a.toNat) o.lb o.b.toNat) o.pd.toNat (fun l =>
    let a := State.elem s o.a.toNat l
    let b := State.elem s o.b.toNat l
    (condF o.cond.toNat (asFloat fpm o.ty.toNat a.v) (asFloat fpm o.ty.toNat b.v), a.p || b.p)))

/-- FCMP.S (R163): the B operand is a B-source. -/
def execFcmpS (o : VPS) (s : State) : Res :=
  let fpm := (State.src s).fpm
  let b := State.bsrc s o.b
  .next (State.cmpPred (State.lastRead s o.la o.a.toNat) o.pd.toNat (fun l =>
    let a := State.elem s o.a.toNat l
    (condF o.cond.toNat (asFloat fpm o.ty.toNat a.v) (asFloat fpm o.ty.toNat b.v), a.p || b.p)))

/-- The exact value of an element as a conversion source type (R39, R165, R166). -/
def cvtRead (fpm : Word) (st : Nat) (a : Word) : Fv :=
  let n := a.toNat
  match st with
  | 0 => Fmt.read f32 (fz32 fpm) n
  | 1 => Fmt.read f16 (fz16 fpm) (n % 65536)
  | 2 => Fmt.read bf16 (fz16 fpm) (n % 65536)
  | 3 => Fmt.value f8e4 (n % 256)
  | 4 => Fmt.value f8e5 (n % 256)
  | 5 => Fmt.value f4 (n % 16)
  | 6 => Fv.ofInt (sext n 32)
  | 7 => Fv.ofInt (n : Int)
  | 8 => Fv.ofInt (sext n 16)
  | 9 => Fv.ofInt ((n % 65536 : Nat) : Int)
  | 10 => Fv.ofInt (sext n 8)
  | 11 => Fv.ofInt ((n % 256 : Nat) : Int)
  | _ => e8Value n

/-- A value rounded and placed as a conversion destination type (R165, R166). -/
def cvtWrite (fpm : Word) (dt rm : Nat) (sat : Bool) (draw : Nat) (x : Fv) : Word :=
  match dt with
  | 0 => BitVec.ofNat 32 (Fmt.round f32 rm sat (fz32 fpm) draw x)
  | 1 => BitVec.ofNat 32 (Fmt.round f16 rm sat (fz16 fpm) draw x)
  | 2 => BitVec.ofNat 32 (Fmt.round bf16 rm sat (fz16 fpm) draw x)
  | 3 => BitVec.ofNat 32 (Fmt.round f8e4 rm sat false draw x)
  | 4 => BitVec.ofNat 32 (Fmt.round f8e5 rm sat false draw x)
  | 5 => BitVec.ofNat 32 (Fmt.round f4 rm sat false draw x)
  | 6 => wrap32 (roundI 32 rm draw x)
  | 7 => wrap32 (roundN 32 rm draw x)
  | 8 => wrap32 (roundI 16 rm draw x)
  | 9 => wrap32 (roundN 16 rm draw x)
  | 10 => wrap32 (roundI 8 rm draw x)
  | 11 => wrap32 (roundN 8 rm draw x)
  | _ => BitVec.ofNat 32 (roundE8 rm draw x)

/-- The rounding mode of a conversion: its own, or the default of FPM for code 6 (R40, R166). -/
def cvtRm (fpm : Word) (rm : BitVec 3) : Nat := if rm.toNat ≤ 5 then rm.toNat else fpmRm fpm

/-- A word of one source that may round stochastically under its own mode (R103, R166). -/
def State.cvtWord (s : State) (d a : Nat) (la : BitVec 1) (rm : Nat) (f : Nat → Word → Word) : State :=
  State.bumpCount (State.writeV (State.lastRead s la a) d
    (fun l => let x := State.elem s a l; ⟨f l x.v, x.p⟩) (rm != 4 && State.unifSrc s a)) rm 1

/-- FCVT (R164 to R166). -/
def execFcvt (o : VX) (s : State) : Res :=
  let fpm := (State.src s).fpm
  let rm := cvtRm fpm o.rm
  .next (State.cvtWord s o.d.toNat o.a.toNat o.la rm (fun l x =>
    cvtWrite fpm o.dt.toNat rm (o.sat == 1) (State.draw s l 0) (cvtRead fpm o.st.toNat x)))

/-- frnd of R167: an integer as f32, a zero result with the sign of x. -/
def frndW (fpm : Word) (rm draw : Nat) (a : Word) : Word :=
  match rd32 fpm a with
  | .fin n m e =>
    let k := Fv.toInt rm draw (.fin n m e)
    BitVec.ofNat 32 (Fmt.round f32 0 false false 0 (.fin n k.natAbs 0))
  | v => BitVec.ofNat 32 (Fmt.round f32 0 false false 0 v)

/-- FRND (R167). -/
def execFrnd (o : VRnd) (s : State) : Res :=
  let fpm := (State.src s).fpm
  let rm := cvtRm fpm o.rm
  .next (State.cvtWord s o.d.toNat o.a.toNat o.la rm (fun l x => frndW fpm rm (State.draw s l 0) x))

/-- An FSPC word of one source (R170): correctly rounded under rne, flushed under FZ32. -/
def State.fspc (s : State) (o : VU) (f : Fv → Fv) : State :=
  let fpm := (State.src s).fpm
  State.alu1 s o (fun a => BitVec.ofNat 32 (Fmt.round f32 0 false (fz32 fpm) 0 (f (rd32 fpm a))))

/-- FRCP (R170, R171). -/
def execFrcp (o : VU) (s : State) : Res := .next (State.fspc s o Fv.rcp)
/-- FRSQ (R170, R171). -/
def execFrsq (o : VU) (s : State) : Res := .next (State.fspc s o Fv.rsqrt)
/-- FSQRT (R170, R171). -/
def execFsqrt (o : VU) (s : State) : Res := .next (State.fspc s o Fv.sqrt)
/-- FEXP2 (R170, R171). -/
def execFexp2 (o : VU) (s : State) : Res := .next (State.fspc s o Fv.exp2)
/-- FLOG2 (R170, R171). -/
def execFlog2 (o : VU) (s : State) : Res := .next (State.fspc s o Fv.log2)
/-- FSINP (R170, R171). -/
def execFsinp (o : VU) (s : State) : Res := .next (State.fspc s o Fv.sinPi)
/-- FCOSP (R170, R171). -/
def execFcosp (o : VU) (s : State) : Res := .next (State.fspc s o Fv.cosPi)
/-- FTANH (R170, R171). -/
def execFtanh (o : VU) (s : State) : Res := .next (State.fspc s o Fv.tanh)
/-- FDIV (R170, R171). -/
def execFdiv (o : VR) (s : State) : Res :=
  let fpm := (State.src s).fpm
  .next (State.aluVR s o (fun a b => BitVec.ofNat 32 (Fmt.round f32 0 false (fz32 fpm) 0 (Fv.div (rd32 fpm a) (rd32 fpm b)))))

/-- MXQ (R168): both blocks of 32 lanes quantised; s[N] receives the codes and overflow flags. -/
def State.mxq (s : State) (o : CVSK) (t : Fmt) : State :=
  let fpm := (State.src s).fpm
  let rm := fpmRm fpm
  let L := s.ctx.lanes
  let blk (g : Nat) : Nat × List Nat × Bool :=
    mxQuant t rm ((List.range 32).map (fun i => State.draw s (32 * g + i) 0))
      ((List.range 32).map (fun i => if L.getLsbD (32 * g + i) then rd32 fpm (State.elem s o.k.toNat (32 * g + i)).v else .fin false 0 0))
  let b0 := blk 0
  let b1 := blk 1
  let pois (g : Nat) : Bool := (List.range 32).any (fun i => L.getLsbD (32 * g + i) && (State.elem s o.k.toNat (32 * g + i)).p)
  let p0 := pois 0
  let p1 := pois 1
  let s := State.writeV s o.v.toNat
    (fun l => if l < 32 then ⟨BitVec.ofNat 32 (b0.2.1.getD l 0), p0⟩ else ⟨BitVec.ofNat 32 (b1.2.1.getD (l - 32) 0), p1⟩) false
  State.bumpCount (State.setSc s o.s.toNat
    ⟨BitVec.ofNat 32 (b0.1 + 256 * b1.1 + (if b0.2.2 then 65536 else 0) + (if b1.2.2 then 131072 else 0)), p0 || p1⟩) rm 1

/-- MXDQ (R169). -/
def State.mxdq (s : State) (o : CVSK) (t : Fmt) (bits : Nat) : State :=
  let fpm := (State.src s).fpm
  let c := State.sc s o.s.toNat
  State.writeV s o.v.toNat (fun l =>
    let a := State.elem s o.k.toNat l
    ⟨BitVec.ofNat 32 (Fmt.round f32 0 false (fz32 fpm) 0 (mxDequant t (byteOf c.v (l / 32)) (a.v.toNat % 2 ^ bits))), a.p || c.p⟩) false

/-- MXQ.F8E4 (R168). -/
def execMxqF8e4 (o : CVSK) (s : State) : Res := .next (State.mxq s o f8e4)
/-- MXQ.F8E5 (R168). -/
def execMxqF8e5 (o : CVSK) (s : State) : Res := .next (State.mxq s o f8e5)
/-- MXQ.F4 (R168). -/
def execMxqF4 (o : CVSK) (s : State) : Res := .next (State.mxq s o f4)
/-- MXDQ.F8E4 (R169). -/
def execMxdqF8e4 (o : CVSK) (s : State) : Res := .next (State.mxdq s o f8e4 8)
/-- MXDQ.F8E5 (R169). -/
def execMxdqF8e5 (o : CVSK) (s : State) : Res := .next (State.mxdq s o f8e5 8)
/-- MXDQ.F4 (R169). -/
def execMxdqF4 (o : CVSK) (s : State) : Res := .next (State.mxdq s o f4 4)

end Sys2Proof.Machine
end

