-- ==== Sys2Proof/Machine/Control.lean ====
section
/-! DEFINITION. Control flow, synchronisation, calls and returns (R26, R89 to R98, R107, R128 to R131, R142). -/

namespace Sys2Proof.Machine

/-- The key of an instruction-cache line: address space and floor(A / 96) (R11). -/
def icKey (asid line : Nat) : Nat := asid * 2 ^ 60 + line

/-- The word at a code address (R248, R426): from the core's instruction cache, or from the point of coherence. -/
def Device.fetchWord (d : Device) (core asid : Nat) (pc : DWord) : Except (BitVec 8) Word :=
  match Tbl.get? (Device.core d core).icache (icKey asid (pc.toNat / 96)) with
  | some line => .ok (BitVec.ofNat 32 (ofLeBytes ((line.drop (pc.toNat % 96)).take 4)))
  | none =>
    match Device.translate d core asid .x pc 4 with
    | .error c => .error c
    | .ok t =>
      if Device.memBad d (replicaPa t (core / 64)) 4 then .error 0x0F
      else .ok (BitVec.ofNat 32 (ofLeBytes ((List.range 4).map (fun i => Device.memByte d t.key (replicaPa t (core / 64) + i)))))

/-- The test of a control-transfer target (R26): none when it is the first word of a chain, else the trap code and TRPA. -/
def Device.targetFault (d : Device) (core asid : Nat) (t : DWord) : Option (BitVec 8 × DWord) :=
  if t.toNat % 4 != 0 then some (0x08, t)
  else if t.toNat % 12 == 0 then none
  else
    match Device.fetchWord d core asid (t - 4) with
    | .error c => some (c, t - 4)
    | .ok w => if w.getLsbD 31 then some (0x08, t) else none

/-- The target test for lanes with their targets (R26, R92): the failing lanes that are reported, the code, TRPA. Where lanes fail in different ways, the lowest failing lane's failure is reported (DESIGN CHOICE 57: the spec does not say which). -/
def State.targetsFault (s : State) (L : Mask) (t : Nat → DWord) : Option (Mask × BitVec 8 × DWord) :=
  let w := State.src s
  let f (l : Nat) : Option (BitVec 8 × DWord) := Device.targetFault s.pre w.core (Device.asidOf s.pre w) (t l)
  match (lanesOf L).find? (fun l => (f l).isSome) with
  | none => none
  | some l0 =>
    match f l0 with
    | none => none
    | some (c, a) =>
      some (maskOf (fun l => L.getLsbD l && (if c == 0x08 then (match f l with | some (c', _) => c' == 0x08 | none => false)
        else t l == t l0)), c, a)

/-- Transfers lanes to their targets, after the target test (R25, R26). -/
def State.jump (s : State) (L : Mask) (t : Nat → DWord) : State :=
  match State.targetsFault s L t with
  | some (m, c, a) => State.trap s c m a
  | none => State.mapWave s (fun w => Wave.setPcs w L t)

/-- A branch offset in words from the branch word (R34). -/
def State.rel (s : State) {n : Nat} (off : BitVec n) : DWord := s.ctx.wordPc + BitVec.ofInt 64 (4 * off.toInt)

/-- BRA (R89): lanes whose predicate XOR n is true branch. -/
def execBra (o : BF) (s : State) : Res :=
  let bad := s.ctx.lanes &&& maskOf (fun l => State.pp s o.p.toNat l)
  if bad != 0 then .next (State.trap s 0x05 bad 0)
  else .next (State.jump s (s.ctx.lanes &&& maskOf (fun l => State.pv s o.p.toNat l != (o.n == 1))) (fun _ => State.rel s o.off))

/-- SBR (R90): the whole subset branches when the flag XOR n is 1. -/
def execSbr (o : SB) (s : State) : Res :=
  let q := State.flag s o.q.toNat
  if q.p then .next (State.trap s 0x05 s.ctx.lanes 0)
  else if q.v != (o.n == 1) then .next (State.jump s s.ctx.lanes (fun _ => State.rel s o.off))
  else .next s

/-- The target of a vector form: vN holds bits 31:0, vN+1 bits 63:32 (R92). -/
def State.vTarget (s : State) (v l : Nat) : DWord := (State.elem64 s v l).1

/-- The subset's lanes whose pair element is poisoned. -/
def State.badPair (s : State) (v : Nat) : Mask := s.ctx.lanes &&& maskOf (fun l => (State.elem64 s v l).2)

/-- JMP sN (R92). -/
def execJmpS (o : CS) (s : State) : Res :=
  if State.scPois s o.s.toNat 2 then .next (State.trap s 0x05 s.ctx.lanes 0)
  else .next (State.jump s s.ctx.lanes (fun _ => State.sc64 s o.s.toNat))

/-- JMP vN (R92). -/
def execJmpV (o : CV) (s : State) : Res :=
  let bad := State.badPair s o.v.toNat
  if bad != 0 then .next (State.trap s 0x05 bad 0)
  else .next (State.jump s s.ctx.lanes (fun l => State.vTarget s o.v.toNat l))

/-- Keeps the keys whose value satisfies a test. -/
def Tbl.keepIf {α : Type} (t : Tbl α) (p : α → Bool) : Tbl α := t.filter (fun e => (Tbl.get? t e.1).any p)

/-- Releases lanes' live bits in every resident register, position and frame (R93). -/
def Wave.releaseLanes (w : Wave) (L : Mask) : Wave :=
  let cut (r : VReg) : VReg := { r with live := r.live &&& ~~~L, pois := r.pois &&& ~~~L }
  let cutF (f : Frame) : Frame := { f with mask := f.mask &&& ~~~L }
  { w with
    vfix := Tbl.keepIf (w.vfix.map (fun e => (e.1, cut e.2))) (fun r => r.live != 0)
    win := Tbl.keepIf (w.win.map (fun e => (e.1, if e.2.st == .resident || e.2.st == .spilling then { e.2 with reg := cut e.2.reg } else e.2)))
      (fun x => x.reg.live != 0 || x.st == .spilled || x.st == .refilling)
    frames := Tbl.keepIf (w.frames.map (fun e => (e.1, if e.2.st == .resident || e.2.st == .spilling then cutF e.2 else e.2)))
      (fun x => x.mask != 0 || x.st == .spilled || x.st == .refilling) }

/-- The test that ends a synchronisation episode (R97), that of the wave's own code and, in a handler, the handler's. -/
def Wave.syncTest (w : Wave) : Wave :=
  let w := if w.waiting != 0 && (w.epmask &&& ~~~(w.waiting ||| w.exited)) == 0 then { w with waiting := 0 } else w
  if w.handler && w.hwait != 0 && (w.hmask &&& ~~~(w.hwait ||| w.hexit)) == 0 then { w with hwait := 0 } else w

/-- Ends lanes (R93): they never issue again; a wave whose last live lane exits ends. -/
def Wave.exitLanes (w : Wave) (L : Mask) : Wave :=
  let w := Wave.releaseLanes w L
  let w := { w with exited := w.exited ||| L, waiting := w.waiting &&& ~~~L,
                    hexit := if w.handler then w.hexit ||| L else w.hexit, hwait := w.hwait &&& ~~~L }
  let w := Wave.syncTest w
  if Wave.live w == 0 then { w with ended := true, active := none, handler := false, exited := allLanes, stalls := [] } else w

/-- Records the successor choice and ends the subset's lanes (R93). -/
def State.exitAs (s : State) (c : Succ) : State :=
  let w := State.src s
  let g := Device.wg s.dev w.wg
  if g.succ != .unset && g.succ != c then State.trap s 0x13 s.ctx.lanes 0
  else
    let s := { s with dev := Device.setWg s.dev w.wg { g with succ := c } }
    let s := State.mapWave s (fun w => Wave.exitLanes w s.ctx.lanes)
    if (State.cur s).ended then { s with dev := Device.unbind s.dev s.ctx.wave } else s

/-- EXIT (R93). -/
def execExitW (_ : C0) (s : State) : Res := .next (State.exitAs s .stop)

/-- EXIT sN (R93): with a successor entry, a multiple of 96. -/
def execExitS (o : CS) (s : State) : Res :=
  let e := State.sc64 s o.s.toNat
  if State.scPois s o.s.toNat 2 then .next (State.trap s 0x05 s.ctx.lanes 0)
  else if e.toNat % 96 != 0 then .next (State.trap s 0x08 s.ctx.lanes e)
  else .next (State.exitAs s (.entry e))

/-- YIELD (R95): the wave offers its active slot; the turn swaps it when a ready pending wave exists. -/
def execYield (_ : C0) (s : State) : Res := .next { s with ctx := { s.ctx with yields := true } }

/-- ELECT (R96): the lowest non-helper lane of the subset. -/
def execElect (o : CSP) (s : State) : Res :=
  let cand := s.ctx.lanes &&& ~~~(Wave.helpers (State.src s))
  let L := match lanesOf cand with
    | [] => 64
    | l :: _ => l
  .next (State.setSc (State.setPred s o.p.toNat (fun l => l == L) (fun _ => false)) o.s.toNat ⟨BitVec.ofNat 32 L, false⟩)

/-- A synchronisation word with a mask (R97). -/
def State.syncOn (s : State) (m : Mask) : State :=
  let w := State.cur s
  let L := s.ctx.lanes
  let ep := if Wave.waits w == 0 then m else (if w.handler then w.hmask else w.epmask)
  if m != ep then State.trap s 0x0D L 0
  else if (L &&& ~~~m) != 0 then State.trap s 0x0D (L &&& ~~~m) 0
  else State.mapWave s (fun w => Wave.syncTest
    (if w.handler then { w with hmask := ep, hwait := w.hwait ||| L } else { w with epmask := ep, waiting := w.waiting ||| L }))

/-- SYNC (R97): the mask of all 64 lanes. -/
def execSync (_ : C0) (s : State) : Res := .next (State.syncOn s allLanes)

/-- SYNCM sN (R97). -/
def execSyncm (o : CS) (s : State) : Res :=
  if State.scPois s o.s.toNat 2 then .next (State.trap s 0x05 s.ctx.lanes 0)
  else .next (State.syncOn s (State.sc64 s o.s.toNat))

/-- NOP (R98). -/
def execNop (_ : C0) (s : State) : Res := .next s

/-- LIT (R29): it occupies no pipe and its consumer uses its payload. -/
def execLit (_ : LitW) (s : State) : Res := .next s

/-- QUOTA (R107): moves units to another wave of the workgroup, or writes 0 for a refusal. HELD and QUOTA are read as the turn began, before what the turn's own words charge (DESIGN CHOICE 58: the spec does not say which). -/
def execQuota (o : CS) (s : State) : Res :=
  let n := o.s.toNat
  let w := State.src s
  let g := Device.wg s.pre w.wg
  let t := (State.sc s n).v.toNat
  let u := (State.sc s (n + 1)).v.toInt
  if State.scPois s n 2 then .next (State.trap s 0x05 s.ctx.lanes 0)
  else if t ≥ g.waves.length then .next (State.trap s 0x03 s.ctx.lanes 0)
  else
    let tu := g.waves.getD t 0
    let tw := Device.wave s.pre tu
    let a : Int := w.quota - u
    let b : Int := tw.quota + u
    if t == w.wid || tw.ended || a < max 16 (Wave.heldUnits w) || a > 65535 || b < max 16 (Wave.heldUnits tw) || b > 65535 then
      .next (State.setSc s (n + 1) ⟨0, false⟩)
    else
      let s := State.mapWave s (fun w => { w with quota := a.toNat })
      .next { s with dev := Device.setWave s.dev tu { Device.wave s.dev tu with quota := b.toNat } }

/-- The slide of a call: 8 times its code (R128). -/
def slideOf (sl : BitVec 3) : Nat := 8 * sl.toNat

/-- A return-stack entry (R126): slide code in bits 59:57, bits 56:2 of the return PC. -/
def rstEntry (sl : BitVec 3) (r : DWord) : DWord := BitVec.ofNat 64 (sl.toNat * 2 ^ 57 + r.toNat % 2 ^ 57 / 4 * 4)

/-- Writes a subset's entries in a frame as one value (R127). -/
def Wave.pushFrame (w : Wave) (f : Nat) (L : Mask) (e : DWord) : Wave :=
  let o := (Tbl.get? w.frames f).getD ⟨.resident, true, 0, List.replicate 64 0⟩
  let x : Frame := ⟨.resident, o.unif && (o.mask &&& ~~~L) == 0, o.mask ||| L,
    mkLanes (fun l => if L.getLsbD l then e else o.entries.getD l 0)⟩
  { w with frames := Tbl.put w.frames f x }

/-- Is a frame waiting for a refill (R125). -/
def Wave.frameOut (w : Wave) (f : Nat) : Bool :=
  match Tbl.get? w.frames f with
  | some x => x.st == .spilled || x.st == .refilling
  | none => false

/-- Is a register a position that is spilled or being refilled (R125): its item. -/
def Wave.outItem (w : Wave) (id : RegId) : Option (Nat × Bool) :=
  match id with
  | .pos p =>
    match Tbl.get? w.win p with
    | some x => if x.st == .spilled || x.st == .refilling then some (p, false) else none
    | none => none
  | _ => none

/-- A call of the subset to targets (R130), after the target operands are known to be unpoisoned. -/
def State.callTo (s : State) (sl : BitVec 3) (t : Nat → DWord) : State :=
  let w := State.src s
  let L := s.ctx.lanes
  let f := s.ctx.wb + slideOf sl
  match State.targetsFault s L t with
  | some (m, c, a) => State.trap s c m a
  | none =>
    if w.handler || f + 48 > w.wlim then State.trap s 0x09 L 0
    else if Wave.frameOut w f then State.hold s (.frame f)
    else State.mapWave s (fun w =>
      Wave.setPcs (Wave.setWbs (Wave.pushFrame w f L (rstEntry sl s.ctx.nextPc)) L (fun _ => f)) L t)

/-- CALL (R128, R130). -/
def execCall (o : BC) (s : State) : Res := .next (State.callTo s o.sl (fun _ => State.rel s o.off))

/-- CALLI sN (R129, R130). -/
def execCalliS (o : CCallS) (s : State) : Res :=
  if State.scPois s o.s.toNat 2 then .next (State.trap s 0x05 s.ctx.lanes 0)
  else .next (State.callTo s o.sl (fun _ => State.sc64 s o.s.toNat))

/-- CALLI vN (R129, R130). -/
def execCalliV (o : CCallV) (s : State) : Res :=
  let bad := State.badPair s o.v.toNat
  if bad != 0 then .next (State.trap s 0x05 bad 0)
  else .next (State.callTo s o.sl (fun l => State.vTarget s o.v.toNat l))

/-- The slide that a return-stack entry holds (R131). -/
def entrySlide (e : DWord) : Nat := 8 * bitsOf e.toNat 59 57

/-- Is an entry bad for a return from base W (R131). -/
def entryBad (e : DWord) (base : Nat) : Bool :=
  let sl := bitsOf e.toNat 59 57
  sl == 0 || sl == 7 || bitsOf e.toNat 63 60 != 0 || bitsOf e.toNat 1 0 != 0 || entrySlide e > base

/-- Takes a lane's entry out of a frame; a frame with none left is freed (R131). -/
def Wave.popFrame (w : Wave) (f l : Nat) : Wave :=
  match Tbl.get? w.frames f with
  | none => w
  | some x =>
    let m := x.mask &&& ~~~(1#64 <<< l)
    if m == 0 then { w with frames := Tbl.del w.frames f } else { w with frames := Tbl.put w.frames f { x with mask := m } }

/-- Clears a lane's live bits in n positions from p (R131). -/
def Wave.clearRange (w : Wave) (l p : Nat) : Nat → Wave
  | 0 => w
  | n + 1 => Wave.clearReg (Wave.clearRange w l p n) (.pos (p + n)) (1#64 <<< l)

/-- The return of one lane (R131). -/
def Wave.retLane (w : Wave) (base : Nat) (e : DWord) (l : Nat) : Wave :=
  let sl := entrySlide e
  let w := Wave.popFrame (Wave.clearRange w l (base + 48 - sl) sl) base l
  Wave.setPcs (Wave.setWbs w (1#64 <<< l) (fun _ => base - sl)) (1#64 <<< l) (fun _ => sext57 e.toNat)

/-- RET (R131): each lane of the subset returns by its own entry in the frame of its base. -/
def execRet (_ : C0) (s : State) : Res :=
  let w := State.src s
  let L := s.ctx.lanes
  let base (l : Nat) : Nat := w.wbs.getD l 0
  let fr (l : Nat) : Frame := (Tbl.get? w.frames (base l)).getD ⟨.resident, true, 0, []⟩
  let e (l : Nat) : DWord := (fr l).entries.getD l 0
  if (lanesOf L).any (fun l => Wave.frameOut w (base l)) then .next (State.hold s .long)
  else
    let bad := L &&& maskOf (fun l => !(fr l).mask.getLsbD l || entryBad (e l) (base l))
    if bad != 0 then .next (State.trap s 0x03 bad 0)
    else
      match State.targetsFault s L (fun l => sext57 (e l).toNat) with
      | some (m, c, a) => .next (State.trap s c m a)
      | none => .next (State.mapWave s (fun w => (lanesOf L).foldl (fun w l => Wave.retLane w (base l) (e l) l) w))

/-- The address of a spill-area item (R138). -/
def Wave.spillAt (w : Wave) (off : Nat) : DWord := w.wsp + BitVec.ofNat 64 off

/-- Writes of the Cassette in the wave's address space (R138): device after them and the first fault with its address (R140, R142). -/
def Device.cassWrites (d : Device) (ag : Agent) (asid : Nat) : List (DWord × List Byte) → Option (DWord × BitVec 8) →
    Device × Option (DWord × BitVec 8)
  | [], f => (d, f)
  | (a, bs) :: r, f =>
    match Device.vwriteSafe d ag asid a bs with
    | .ok d => Device.cassWrites d ag asid r f
    | .error c => Device.cassWrites d ag asid r (f.or (some (a, c)))

/-- What a resident position stands as in the spill area (R135, R138, R142): its live elements, live mask, poison mask. -/
def Wave.slotImage (w : Wave) (p : Nat) (r : VReg) : List (DWord × List Byte) :=
  (lanesOf r.live).map (fun l => (Wave.spillAt w (256 * p + 4 * l), leBytes 4 (r.vals.getD l 0).toNat))
  ++ [(Wave.spillAt w (0x1000000 + 8 * p), leBytes 8 r.live.toNat), (Wave.spillAt w (0x1080000 + 8 * p), leBytes 8 r.pois.toNat)]

/-- What a resident frame stands as in the spill area (R138). -/
def Wave.frameSpill (w : Wave) (f : Nat) (mask : Mask) (entries : List DWord) : List (DWord × List Byte) :=
  (lanesOf mask).map (fun l => (Wave.spillAt w (0x2000000 + 512 * f + 8 * l), leBytes 8 (entries.getD l 0).toNat))
  ++ [(Wave.spillAt w (0x1100000 + 8 * f), leBytes 8 mask.toNat)]

/-- A pending window fault of a spill or flush (R140): spills of the wave stop until its next `rte`. -/
def Wave.windowFault (w : Wave) (trpa : DWord) : Wave :=
  { w with noSpill := true, ptraps := w.ptraps ++ [⟨.spill, 0x0A, 0, false, 0, 0, 0, 0, trpa⟩] }

/-- The highest visible position plus one: the largest WB + 48 over the live lanes, from their own bases (R142). -/
def Wave.viewTop (w : Wave) : Nat := (lanesOf (~~~w.exited)).foldl (fun h l => max h (w.wbs.getD l 0 + 48)) 0

/-- The snapshot that `wflush` takes (R142): each position (index, false) and frame (index, true) with the writes that it makes. One that is being refilled stands in memory as a spilled one does and writes nothing (DESIGN CHOICE 72: R142 does not name it). -/
def Wave.flushItems (w : Wave) : List ((Nat × Bool) × List (DWord × List Byte)) :=
  (List.range (Wave.viewTop w)).flatMap (fun p =>
    [((p, false), match Tbl.get? w.win p with
      | none => [(Wave.spillAt w (0x1000000 + 8 * p), leBytes 8 0)]
      | some x => if x.st == .spilled || x.st == .refilling then [] else Wave.slotImage w p x.reg),
     ((p, true), match Tbl.get? w.frames p with
      | none => [(Wave.spillAt w (0x1100000 + 8 * p), leBytes 8 0)]
      | some x => if x.st == .spilled || x.st == .refilling then [] else Wave.frameSpill w p x.mask x.entries)])

/-- Makes the writes of a flush (R142, R143): a fault leaves a window fault pending, and the remaining writes complete. -/
def Device.flushNow (d : Device) (u : Nat) (items : List ((Nat × Bool) × List (DWord × List Byte))) : Device :=
  let w := Device.wave d u
  let (d, f) := Device.cassWrites d (Device.agentOf d w) (Device.asidOf d w) (items.flatMap (fun e => e.2)) none
  match f with
  | none => d
  | some (a, _) => Device.setWave d u (Wave.windowFault (Device.wave d u) a)

/-- WFLUSH (R142): one operation of class 1; its writes are made at once, or when the operation completes, and in any case behind the fences that wait in the core and the acquires of the wave's `vbind` and `vpub` words (R234, R237). -/
def execWflush (_ : C0) (s : State) : Res :=
  if State.classFull s 1 then .next (State.hold s .long)
  else
    let id := State.newId s
    let items := Wave.flushItems (State.src s)
    let s := State.useId s
    if s.ctx.defer || (State.cur s).pend.any Pend.isFence || Device.bindsBefore s.dev s.ctx.wave id then
      .next (State.mapWave s (fun w => Wave.addOut { w with pend := w.pend ++ [.flush id items] } ⟨id, 1, false, [], []⟩))
    else
      let s := State.mapWave s (fun w => Wave.addOut w ⟨id, 1, true, [], []⟩)
      .next { s with dev := Device.flushNow s.dev s.ctx.wave items }

end Sys2Proof.Machine
end

