-- ==== Sys2Proof/Machine/Access.lean ====
section
/-! DEFINITION. The per-lane global words as the core holds them before they are performed: what a captured word does, where its lanes go, and what it must wait for (R196, R205, R210 to R216, R221, R224, R229, R234, R432, R433). -/

namespace Sys2Proof.Machine

/-- The access width of an atomic (R187, R214). -/
def atomWidth (op : Nat) : Nat := if op == 12 || op == 13 || op == 14 then 8 else 4

/-- The width of a size code in bytes (R36). -/
def sizeBytes (sz : BitVec 3) : Nat := 2 ^ sz.toNat

/-- The per-lane global words of R432. -/
inductive GKind where
  | ld
  | st
  | atom
  | red
  | dopen
  | dadd
  | dclose
  | sld
  | sst
  deriving DecidableEq, Repr

/-- What a per-lane global word does: kind, first data register, access width, atomic code, sign extension. -/
structure GOp where
  kind : GKind
  x    : Nat
  z    : Nat
  op   : Nat
  sx   : Bool
  deriving DecidableEq, Repr

/-- Is the word one of scalars (R154). -/
def GOp.scalar (g : GOp) : Bool := g.kind == .sld || g.kind == .sst

/-- A store-type word translates every lane before any request leaves (R212). -/
def GOp.storeType (g : GOp) : Bool := g.kind != .ld && g.kind != .sld

/-- Does the word read memory that its wave can then see (R234). -/
def GOp.readsMem (g : GOp) : Bool :=
  match g.kind with
  | .st => false
  | .sst => false
  | .dadd => false
  | _ => true

/-- The counter class (R43, R211, R215, R221). -/
def GOp.cls (g : GOp) : Nat :=
  match g.kind with
  | .st => 1
  | .red => 1
  | .dadd => 1
  | .sst => 1
  | _ => 0

/-- The permission of R202. -/
def GOp.need (g : GOp) : Need :=
  match g.kind with
  | .ld => .r
  | .sld => .r
  | .atom => .rw
  | .dclose => .rw
  | _ => .w

/-- How many data registers the word reads. -/
def GOp.reads (g : GOp) : Nat :=
  match g.kind with
  | .st => max 1 (g.z / 4)
  | .sst => g.z / 4
  | .atom => atomRegs (BitVec.ofNat 4 g.op)
  | .red => atomRegs (BitVec.ofNat 4 g.op)
  | .dadd => 1
  | _ => 0

/-- How many data registers the word writes. -/
def GOp.writes (g : GOp) : Nat :=
  match g.kind with
  | .ld => max 1 (g.z / 4)
  | .sld => g.z / 4
  | .atom => g.z / 4
  | .dopen => 1
  | .dclose => 2
  | _ => 0

/-- The places that the word may reach (R216, R221). -/
def GOp.placeOk (g : GOp) (place : Nat) : Bool :=
  match g.kind with
  | .ld => true
  | .st => true
  | .sld => true
  | .sst => true
  | .atom => place != 2 && (place < 8 || g.op == 0 || g.op == 8 || g.op == 9 || (12 ≤ g.op && g.op ≤ 14))
  | .red => place != 2 && (place < 8 || g.op == 0 || g.op == 8 || g.op == 9 || (12 ≤ g.op && g.op ≤ 14))
  | _ => place == 0

/-- Is the atomic code allowed in `red` (R41). -/
def redOk (op : BitVec 4) : Bool := op != 8 && op != 9 && op != 13 && op != 14

/-- The word of a replay entry (R437), when it meets none of the fates of R27 to R45. -/
def gopOfWord (w : Word) : Option GOp :=
  let n := w.toNat
  match n / 2 ^ 25 % 64 with
  | 28 =>
    let o := SR.ofWord n
    let f := n % 8
    let z := 4 * 2 ^ (f % 3)
    if f < 6 && isEven o.a && o.d.toNat % (z / 4) == 0 then some ⟨if f < 3 then .sld else .sst, o.d.toNat, z, 0, false⟩ else none
  | 32 =>
    let o := ML.ofWord n
    if sizeOk o.x o.sz (o.sx == 1) && isEven o.b then some ⟨.ld, o.x.toNat, sizeBytes o.sz, 0, o.sx == 1⟩ else none
  | 33 =>
    let o := ML.ofWord n
    if sizeOk o.x o.sz false && isEven o.b && o.sx == 0 then some ⟨.st, o.x.toNat, sizeBytes o.sz, 0, false⟩ else none
  | 34 =>
    let o := MA.ofWord n
    if groupOk o.x (atomRegs o.op) && isEven o.b then some ⟨.atom, o.x.toNat, atomWidth o.op.toNat, o.op.toNat, false⟩ else none
  | 35 =>
    let o := MA.ofWord n
    if groupOk o.x (atomRegs o.op) && isEven o.b && redOk o.op then some ⟨.red, o.x.toNat, atomWidth o.op.toNat, o.op.toNat, false⟩
    else none
  | 36 =>
    let o := ML.ofWord n
    if isEven o.b && o.sx == 0 then
      match o.sz.toNat with
      | 0 => some ⟨.dopen, o.x.toNat, 4, 0, false⟩
      | 1 => some ⟨.dadd, o.x.toNat, 4, 0, false⟩
      | 2 => if o.x.toNat ≤ 62 then some ⟨.dclose, o.x.toNat, 4, 0, false⟩ else none
      | _ => none
    else none
  | _ => none

/-- The number of literals that a per-lane global word takes (R31): a memory word none to two, as its entry says; a scalar one only with sb = 63. -/
def litsOk (w : Word) (n : Nat) : Bool :=
  if w.toNat / 2 ^ 25 % 64 == 28 then
    if (SR.ofWord w.toNat).b == 63 then 1 ≤ n && n ≤ 2 else n == 0
  else n ≤ 2

/-- The address of a lane of an entry: captured base, offset row, literal (R196, R433). -/
def Replay.addr (r : Replay) (g : GOp) (l : Nat) : DWord :=
  if g.scalar then r.base + r.offset
  else r.base + ((r.ops.getD 0 []).getD l 0).signExtend 64 + r.offset

/-- The lanes that an entry performs, in ascending order; a scalar word makes one access. -/
def Replay.lanes (r : Replay) (g : GOp) (helpers : Mask) : List Nat :=
  let m := if g.storeType then r.mask &&& ~~~helpers else r.mask
  if g.scalar then (lanesOf m).take 1 else lanesOf m

/-- A captured data register of a lane. -/
def Replay.data (r : Replay) (g : GOp) (l i : Nat) : Word :=
  if g.scalar then r.sdata.getD i 0 else (r.ops.getD (i + 1) []).getD l 0

/-- The data pair of an atomic of a lane: data or compare value, and new value (R214). -/
def Replay.atomData (r : Replay) (g : GOp) (l : Nat) : Nat × Nat :=
  if g.z == 8 then ((pair64 (r.data g l 0) (r.data g l 1)).toNat, (pair64 (r.data g l 2) (r.data g l 3)).toNat)
  else ((r.data g l 0).toNat, (r.data g l 1).toNat)

/-- The fate of a lane's translation (R202, R216, R221). -/
def Device.laneTr (d : Device) (w : Wave) (g : GOp) (va : DWord) : Except (BitVec 8) Tr :=
  match Device.translate d w.core (Device.asidOf d w) g.need va g.z with
  | .error c => .error c
  | .ok t => if GOp.placeOk g (placeOf t.pa) then .ok t else .error 0x07

/-- The cluster and local address of a place 0x1 address. -/
def sramCl (pa : Nat) : Nat := pa % 2 ^ 48 / 2 ^ 23
/-- The local address of a place 0x1 address. -/
def sramOff (pa : Nat) : Nat := pa % 2 ^ 23

/-- The bytes that a lane of a captured word touches, by physical address, where it translates; of a replicated page, by the offset that its copies share (R207). -/
def Device.touched (d : Device) (w : Wave) (g : GOp) (r : Replay) (l : Nat) : Option Nat :=
  match Device.laneTr d w g (r.addr g l) with
  | .ok t => some (if t.attr == 1 then t.pa % 2 ^ 38 else t.pa)
  | .error _ => none

/-- Do n bytes at a and m bytes at b overlap. -/
def spansMeet (a n b m : Nat) : Bool := a < b + m && b < a + n

/-- May two physical addresses stand for one byte: they are the same, or their offsets in the copies of a page are (R207). -/
def pasMeet (a n b m : Nat) : Bool :=
  spansMeet a n b m || (placeOf a == 0 && placeOf b == 0 && spansMeet (a % 2 ^ 38) n (b % 2 ^ 38) m)

/-- Do two words of a wave touch overlapping bytes in one lane, by virtual address or through two mappings of a frame (R229, R432). -/
def Device.overlaps (d : Device) (w : Wave) (g : GOp) (r : Replay) (g' : GOp) (r' : Replay) : Bool :=
  (lanesOf (r.mask &&& r'.mask)).any (fun l =>
    spansMeet (r.addr g l).toNat g.z (r'.addr g' l).toNat g'.z
    || (match Device.touched d w g r l, Device.touched d w g' r' l with
      | some a, some b => pasMeet a g.z b g'.z
      | _, _ => false))

/-- Does a close name a slot that an unfinished addition of the wave still goes to, from whatever lane and through whatever mapping (R224). -/
def Device.closeWaits (d : Device) (w : Wave) (g : GOp) (r : Replay) (g' : GOp) (r' : Replay) : Bool :=
  g.kind == .dclose && g'.kind == .dadd
  && (lanesOf r.mask).any (fun l => match Device.touched d w g r l with
    | some a => (lanesOf r'.mask).any (fun l' => match Device.touched d w g' r' l' with
        | some b => pasMeet a 4 b 4
        | none => false)
    | none => false)

/-- Does an acquire that waits among unfinished words hold later accesses back, and for a write a release too (R234). -/
def fencesHold (write : Bool) (l : List Pend) : Bool :=
  l.any (fun p => match p with
    | .fence _ acq rel _ => acq || (rel && write)
    | .word _ _ => false
    | .flush _ _ => false)

/-- Must a word of a number wait behind the unfinished words and fences before it (R224, R229, R234, R235, R432). -/
def Device.mustWait (d : Device) (u id : Nat) (g : GOp) (r : Replay) (l : List Pend) : Bool :=
  let w := Device.wave d u
  fencesHold g.storeType l || Device.bindsBefore d u id
  || l.any (fun p => match p with
    | .word _ r' =>
      match gopOfWord r'.w0 with
      | none => true
      | some g' => Device.overlaps d w g r g' r' || Device.closeWaits d w g r g' r'
    | .fence _ _ _ _ => false
    | .flush _ _ => false)

/-- The entries before the one of a number. -/
def pendBefore (id : Nat) (l : List Pend) : List Pend := l.takeWhile (fun p => p.id != id)

/-- Takes an entry out of the unfinished list. -/
def pendDrop (id : Nat) (l : List Pend) : List Pend := l.filter (fun p => p.id != id)

/-- Must a local access of a wave that is at issue wait: for an acquire, for a write also a release, or for an unfinished word of one of its lanes to the same scratchpad bytes (R227, R229, R234). -/
def State.localWaits (s : State) (A : Nat → Int) (L : Mask) (z : Nat) (write : Bool) : Bool :=
  let w := State.cur s
  let cl := w.core / 8
  fencesHold write w.pend || Device.bindsBefore s.dev s.ctx.wave s.dev.uid
  || (Wave.unfinished w).any (fun e =>
    match gopOfWord e.2.w0 with
    | none => false
    | some g => (lanesOf (L &&& e.2.mask)).any (fun l =>
        match Device.touched s.dev w g e.2 l with
        | some pa => placeOf pa == 1 && sramCl pa == cl && spansMeet (sramOff pa) g.z (A l).toNat z
        | none => false))

end Sys2Proof.Machine
end

