-- ==== Sys2Proof/Machine/Sram.lean ====
section
/-! DEFINITION. Cluster SRAM: bank modes, sharing groups, scratchpad allocation, presence and poison, local accesses, rings (R173 to R195). -/

namespace Sys2Proof.Machine

/-- The workgroup of the current wave, as the turn began. -/
def State.wgOf (s : State) : Workgroup := Device.wg s.pre (State.src s).wg

/-- The cluster of the current wave. -/
def State.clOf (s : State) : Nat := (State.src s).core / 8

/-- Do two workgroups share a group: one workgroup, or one cluster and one group number (R178). -/
def sharesGroup (gid : Nat) (g : Workgroup) (hid : Nat) (h : Workgroup) : Bool :=
  gid == hid || (g.core / 8 == h.core / 8 && g.group.isSome && g.group == h.group)

/-- Is a slice in reach of a workgroup: its own core's, or one of a core that runs a workgroup of its group (R178 order 2). -/
def Device.sliceReach (d : Device) (gid : Nat) (slice : Nat) : Bool :=
  let g := Device.wg d gid
  g.core % 8 == slice || d.wgs.any (fun e => e.2.core == g.core / 8 * 8 + slice && sharesGroup gid g e.1 e.2)

/-- Is a local byte within an allocation or a bound ring of the workgroup or its group (R178 order 3). -/
def Device.byteReach (d : Device) (gid a : Nat) : Bool :=
  let g := Device.wg d gid
  d.wgs.any (fun e => sharesGroup gid g e.1 e.2 && e.2.allocs.any (fun x => x.base ≤ a && a < x.base + 4096 * x.blocks))
  || (Device.cluster d (g.core / 8)).rings.any (fun r => sharesGroup gid g r.2.owner (Device.wg d r.2.owner)
      && r.2.base ≤ a && a < r.2.base + r.2.cap * (128 * 2 ^ r.2.esz))

/-- The fate of n local bytes at an address under R178: none in reach, or the trap code of the first failing order. -/
def Device.localFault (d : Device) (gid : Nat) (a : Int) (n : Nat) : Option (Nat × BitVec 8) :=
  if a < 0 || a ≥ 2 ^ 23 then some (1, 0x07)
  else if !Device.sliceReach d gid (a.toNat / 2 ^ 20) then some (2, 0x14)
  else if !(List.range n).all (fun i => Device.byteReach d gid (a.toNat + i)) then some (3, 0x07)
  else none

/-- Local bytes of a cluster. -/
def Device.sramRead (d : Device) (cl a n : Nat) : List Byte := Memory.readN d.mem (sramPa cl a) n

/-- Writes local bytes of a cluster. -/
def Device.sramWrite (d : Device) (cl a : Nat) (bs : List Byte) : Device := { d with mem := Memory.writeN d.mem (sramPa cl a) bs }

/-- A write of local bytes of a cluster, by the copy of a number or by no copy (0): where another copy that is outstanding has written, one of the two values stays in each byte (R270). -/
def Device.sramPut (d : Device) (id cl a : Nat) (bs : List Byte) : Device :=
  let (d, bs) := Device.mixed d id (sramPa cl a) (fun i => Memory.read d.mem (sramPa cl (a + i))) bs
  Device.sramWrite d cl a bs

/-- Is the element that holds a local byte poisoned (R183). -/
def Device.sramPois (d : Device) (cl a : Nat) : Bool := (Device.cluster d cl).spois.contains (a / 4)

/-- Sets or clears the poison of k elements from the one that holds a byte. -/
def Device.setSramPois (d : Device) (cl a k : Nat) (on : Bool) : Device :=
  let c := Device.cluster d cl
  let f (s : NSet) (i : Nat) : NSet := if on then NSet.ins s (a / 4 + i) else NSet.rem s (a / 4 + i)
  Device.setCluster d cl { c with spois := (List.range k).foldl f c.spois }

/-- Is the line of a local byte absent (R183). -/
def Device.lineAbsent (d : Device) (cl a : Nat) : Bool := Tbl.has (Device.cluster d cl).absent (a / 128)

/-- The writer whose value stands in a byte of an absent line since the line became absent (R184, R270). -/
def Device.earlyWriter (d : Device) (cl a : Nat) : Option Nat :=
  match Tbl.get? (Device.cluster d cl).absent (a / 128) with
  | some x => Tbl.get? x.early (a % 128)
  | none => none

/-- Marks bytes of a line, by offset from one on, as written by a writer while the line is absent (R184). -/
def Device.markEarly (d : Device) (cl id a : Nat) (is : List Nat) : Device :=
  let c := Device.cluster d cl
  match Tbl.get? c.absent (a / 128) with
  | some x =>
    let x := { x with early := is.foldl (fun e i => Tbl.put e (a % 128 + i) id) x.early }
    Device.setCluster d cl { c with absent := Tbl.put c.absent (a / 128) x }
  | none => d

/-- Does a byte that another writer has written, while its line is absent or as a copy that is still outstanding, stay as an operation arrives there (R184, R270): a free choice for each byte. -/
def Device.byteStays (d : Device) (cl id a i : Nat) : Bool :=
  (match Device.earlyWriter d cl (a + i) with
    | some w => w != id
    | none => Device.raced d id (sramPa cl (a + i)) 1) && (Config.freeByte (d.freeCtr + i)).getLsbD 0

/-- What n bytes of a zero-fill or a copy leave at an address (R184, R270). -/
def Device.arrivals (d : Device) (cl id a : Nat) (bs : List Byte) : List Byte :=
  bs.zipIdx.map (fun e => if Device.byteStays d cl id a e.2 then Memory.read d.mem (sramPa cl (a + e.2)) else e.1)

/-- A zero-fill or a copy writes bytes of one line (R183, R184). -/
def Device.arriveWrite (d : Device) (cl id a : Nat) (bs : List Byte) : Device :=
  Device.markEarly { Device.sramWrite d cl a (Device.arrivals d cl id a bs) with freeCtr := d.freeCtr + bs.length } cl id a
    ((List.range bs.length).filter (fun i => !Device.byteStays d cl id a i))

/-- Adds an operation that is complete at issue to its class (R239). -/
def State.doneOp (s : State) (cls : Nat) : State :=
  let id := State.newId s
  State.mapWave (State.useId s) (fun w => Wave.addOut w ⟨id, cls, true, [], []⟩)

/-- The value that an atomic operation writes (R188, R215), from the old value, the data and, for the cas codes, the new value. -/
def atomNew (op old x y : Nat) : Nat :=
  let i32 (f : Int → Int → Int) : Nat := wrap (f (sext old 32) (sext x 32)) 32
  match op with
  | 0 => (old + x) % 2 ^ 32
  | 1 => i32 min
  | 2 => i32 max
  | 3 => min old x
  | 4 => max old x
  | 5 => old &&& x
  | 6 => old ||| x
  | 7 => old ^^^ x
  | 8 => x
  | 9 => if old == x then y else old
  | 10 => Fmt.round f32 0 false false 0 (Fv.sum false [Fmt.value f32 old, Fmt.value f32 x])
  | 11 =>
    let h (i : Nat) : Nat := Fmt.round bf16 0 false false 0
      (Fv.sum false [Fmt.value bf16 (bitsOf old (16 * i + 15) (16 * i)), Fmt.value bf16 (bitsOf x (16 * i + 15) (16 * i))])
    h 0 + 65536 * h 1
  | 12 => (old + x) % 2 ^ 64
  | 13 => x
  | 14 => if old == x then y else old
  | _ => fmaxBits f32 false old x

/-- A load's destination value from its bytes (R36, R211): the word of name i. -/
def loadWord (z : Nat) (sx : Bool) (bs : List Byte) (i : Nat) : Word :=
  if z == 1 then (if sx then wrap32 (sext (ofLeBytes bs) 8) else BitVec.ofNat 32 (ofLeBytes bs))
  else if z == 2 then (if sx then wrap32 (sext (ofLeBytes bs) 16) else BitVec.ofNat 32 (ofLeBytes bs))
  else BitVec.ofNat 32 (ofLeBytes ((bs.drop (4 * i)).take 4))

/-- A store's bytes from its data words (R36). -/
def storeBytes (z : Nat) (w : Nat → Word) : List Byte :=
  if z ≤ 4 then leBytes z (w 0).toNat else (List.range (z / 4)).flatMap (fun i => leBytes 4 (w i).toNat)

/-- The local address of a lane (R188), an exact integer. -/
def State.localAddr (s : State) (b : BitVec 8) (a : BitVec 6) (l : Nat) : Int :=
  ((State.sc s b.toNat).v.toNat : Int) + (State.elem s a.toNat l).v.toInt + State.lit s

/-- The checks of R188 for lanes L at width z, in order: the failing lanes, the code, TRPA in the form of R188; where an address is poisoned R206 says 0, and which of the two stands there is open (UNVERIFIED 82). -/
def State.localChecks (s : State) (b : BitVec 8) (a : BitVec 6) (L : Mask) (z : Nat) (dataPois : Nat → Bool) :
    Option (Mask × BitVec 8 × DWord) :=
  let gid := (State.src s).wg
  let A := State.localAddr s b a
  let order (k : Nat) (l : Nat) : Bool :=
    match Device.localFault s.pre gid (A l) z with
    | some (o, _) => o == k
    | none => false
  let tests : List (BitVec 8 × (Nat → Bool)) :=
    [(0x05, fun l => (State.sc s b.toNat).p || (State.elem s a.toNat l).p),
     (0x07, order 1), (0x14, order 2), (0x07, order 3),
     (0x08, fun l => A l % z != 0), (0x05, dataPois)]
  (tests.find? (fun t => (L &&& maskOf t.2) != 0)).map (fun t =>
    let m := L &&& maskOf t.2
    let l := (lanesOf m).headD 0
    let pois := (State.sc s b.toNat).p || (State.elem s a.toNat l).p
    (m, t.1, if pois && !Config.poisonedLocalForm then 0 else BitVec.ofNat 64 (2 ^ 63 + wrap (A l) 23)))

/-- Does some lane touch an absent line (R184). -/
def State.parks (s : State) (A : Nat → Int) (L : Mask) (z : Nat) : Bool :=
  (lanesOf L).any (fun l => Device.lineAbsent s.pre (State.clOf s) (A l).toNat
    || Device.lineAbsent s.pre (State.clOf s) ((A l).toNat + z - 1))

/-- LDL (R188): a local load, poison as stored. -/
def execLdl (o : ML) (s : State) : Res :=
  let L := s.ctx.lanes
  let z := sizeBytes o.sz
  let A := State.localAddr s o.b o.a
  match State.localChecks s o.b o.a L z (fun _ => false) with
  | some (m, c, a) => .next (State.trap s c m a)
  | none =>
    if State.classFull s 0 || State.parks s A L z then .next (State.hold s .long)
    else if State.localWaits s A L z false then .next (State.hold s .short)
    else
      let cl := State.clOf s
      let put (s' : State) (i : Nat) : State :=
        State.writeV s' (o.x.toNat + i) (fun l =>
          ⟨loadWord z (o.sx == 1) (Device.sramRead s.dev cl (A l).toNat z) i, Device.sramPois s.dev cl ((A l).toNat + 4 * i)⟩) false
      .next (State.doneOp ((List.range (sizeRegs o.sz)).foldl put (State.lastRead s o.la o.a.toNat)) 0)

/-- A local store by the copy of a number or by no copy (R184, R185, R188). -/
def Device.stlBy (d : Device) (id cl a z : Nat) (bs : List Byte) : Device :=
  let d := Device.markEarly (Device.sramPut d id cl a bs) cl id a (List.range z)
  if z ≥ 4 then Device.setSramPois d cl a (z / 4) false else d

/-- One lane's local store (R184, R185, R188). -/
def Device.stlLane (d : Device) (cl a z : Nat) (bs : List Byte) : Device := Device.stlBy d 0 cl a z bs

/-- STL (R188): a local store; a byte written by two lanes keeps the highest lane's value. -/
def execStl (o : MS) (s : State) : Res :=
  let L := s.ctx.lanes &&& ~~~(Wave.helpers (State.src s))
  let z := sizeBytes o.sz
  let A := State.localAddr s o.b o.a
  let data (l i : Nat) : Elem := State.elem s (o.x.toNat + i) l
  match State.localChecks s o.b o.a L z (fun l => (List.range (sizeRegs o.sz)).any (fun i => (data l i).p)) with
  | some (m, c, a) => .next (State.trap s c m a)
  | none =>
    if State.classFull s 1 then .next (State.hold s .long)
    else if State.localWaits s A L z true then .next (State.hold s .short)
    else
      let cl := State.clOf s
      let s' := State.lastRead s o.la o.a.toNat
      .next (State.doneOp { s' with dev := (lanesOf L).foldl (fun d l =>
        Device.stlLane d cl (A l).toNat z (storeBytes z (fun i => (data l i).v))) s'.dev } 1)

/-- The data operands of an atomic in a lane (R41, R187): the data or compare value, and the new value. -/
def State.atomData (s : State) (x : BitVec 6) (op l : Nat) : Nat × Nat :=
  let e (i : Nat) : Word := (State.elem s (x.toNat + i) l).v
  if atomWidth op == 8 then ((pair64 (e 0) (e 1)).toNat, (pair64 (e 2) (e 3)).toNat) else ((e 0).toNat, (e 1).toNat)

/-- Is a data element of an atomic poisoned. -/
def State.atomPois (s : State) (x : BitVec 6) (op : BitVec 4) (l : Nat) : Bool :=
  (List.range (atomRegs op)).any (fun i => (State.elem s (x.toNat + i) l).p)

/-- ATOML (R185, R188): in ascending lane order each lane reads old and writes op(old, data); poison of the element stays. Of an 8-byte operation with one poisoned element both words return poisoned (DESIGN CHOICE 59: R185 speaks of one element). -/
def execAtoml (o : MA) (s : State) : Res :=
  let L := s.ctx.lanes &&& ~~~(Wave.helpers (State.src s))
  let op := o.op.toNat
  let z := atomWidth op
  let A := State.localAddr s o.b o.a
  match State.localChecks s o.b o.a L z (fun l => State.atomPois s o.x o.op l) with
  | some (m, c, a) => .next (State.trap s c m a)
  | none =>
    if State.classFull s 0 || State.parks s A L z then .next (State.hold s .long)
    else if State.localWaits s A L z true then .next (State.hold s .short)
    else
      let cl := State.clOf s
      let lane (acc : Device × Tbl (Nat × Bool)) (l : Nat) : Device × Tbl (Nat × Bool) :=
        let a := (A l).toNat
        let old := ofLeBytes (Device.sramRead acc.1 cl a z)
        let (x, y) := State.atomData s o.x op l
        let p := Device.sramPois acc.1 cl a || (z == 8 && Device.sramPois acc.1 cl (a + 4))
        (Device.sramPut acc.1 0 cl a (leBytes z (atomNew op old x y)), Tbl.put acc.2 l (old, p))
      let s' := State.lastRead s o.la o.a.toNat
      let (d, olds) := (lanesOf L).foldl lane (s'.dev, [])
      let old (i l : Nat) : Elem :=
        let e := Tbl.getD olds l (0, false)
        ⟨BitVec.ofNat 32 (e.1 / 2 ^ (32 * i)), e.2⟩
      let s' := State.writeVIn { s' with dev := d } o.x.toNat L (old 0) false
      let s' := if z == 8 then State.writeVIn s' (o.x.toNat + 1) L (old 1) false else s'
      .next (State.doneOp s' 0)

/-- The mode a bank has, or is switching to (R176). -/
def Cluster.modeOf (c : Cluster) (bank : Nat) : BankMode :=
  match c.switching.reverse.find? (fun x => x.bank == bank) with
  | some x => x.mode
  | none => c.banks.getD bank .cache

/-- Does an allocation cover a bank (R176). -/
def Device.bankAllocated (d : Device) (cl bank : Nat) : Bool :=
  (Device.allocs d cl).any (fun e => e.2.1 < (bank + 1) * 131072 && bank * 131072 < e.2.1 + e.2.2)

/-- Is a ring bound to a bank (R176, R191). -/
def Cluster.bankBound (c : Cluster) (bank : Nat) : Bool :=
  c.rings.any (fun r => r.2.base < (bank + 1) * 131072 && bank * 131072 < r.2.base + r.2.cap * (128 * 2 ^ r.2.esz))

/-- The mode of a code (R174). -/
def bankModeOf (m : BitVec 2) : BankMode :=
  match m.toNat with
  | 0 => .cache
  | 1 => .spad
  | _ => .ring

/-- BMODE (R176): switches banks of the own slice; a bank in cache mode switches when its dirty lines have reached L2, any other at once unless a switch that the core's earlier words began is still under way, and the key is held until then. A bank that it switches no longer goes back at a retirement (R177). -/
def execBmode (o : CBmode) (s : State) : Res :=
  let w := State.src s
  let v := State.sc s o.s.toNat
  let mode := bankModeOf o.m
  let cl := State.clOf s
  let c := Device.cluster s.dev cl
  let first := w.core % 8 * 8
  let js := (List.range 8).filter (fun j => bitOf v.v.toNat j && Cluster.modeOf c (first + j) != mode)
  if v.p then .next (State.trap s 0x05 s.ctx.lanes 0)
  else if v.v.toNat ≥ 256 then .next (State.trap s 0x03 s.ctx.lanes 0)
  else if js.any (fun j => (Cluster.modeOf c (first + j) == .spad && Device.bankAllocated s.dev cl (first + j))
      || (Cluster.modeOf c (first + j) == .ring && Cluster.bankBound c (first + j))) then
    .next (State.trap s 0x03 s.ctx.lanes 0)
  else
    let busy := c.switching.any (fun x => x.bank / 8 == w.core % 8)
    let slow := js.filter (fun j => busy || c.banks.getD (first + j) .cache == .cache)
    let fast := js.filter (fun j => !(busy || c.banks.getD (first + j) .cache == .cache))
    let c := { c with banks := fast.foldl (fun b j => putAt b (first + j) mode .cache) c.banks,
                      switching := c.switching ++ slow.map (fun j => ⟨first + j, mode, s.ctx.wave, s.ctx.lanes⟩) }
    let own (g : Workgroup) : Workgroup := { g with autoBanks := g.autoBanks.filter (fun b => !(b / 8 == w.core % 8 && js.contains (b % 8))) }
    let d := Device.setCluster s.dev cl c
    let s := { s with dev := { d with wgs := d.wgs.map (fun e => if e.2.core / 8 == cl then (e.1, own e.2) else e) } }
    if slow.isEmpty then .next s
    else .next (State.mapWave s (fun w => { w with blocked := w.blocked ||| s.ctx.lanes }))

/-- The lanes of a wave that a switch of a bank holds go on. -/
def Wave.goOn (w : Wave) (lanes : Mask) : Wave := { w with blocked := w.blocked &&& ~~~lanes }

/-- A key that a switch held goes on, in a wave that runs or in a saved one. -/
def Device.unblock (d : Device) (x : Switch) : Device :=
  match Tbl.get? d.waves x.wave with
  | some w => Device.setWave d x.wave (Wave.goOn w x.lanes)
  | none =>
    { d with saved := d.saved.map (fun v =>
        { v with waves := v.waves.map (fun e => if e.1 == x.wave then (e.1, Wave.goOn e.2 x.lanes) else e) }) }

/-- MODE_SWITCH_COMPLETE (R176): the core's switching banks have written back; their modes change, in the order of the words, and the held keys go on. -/
def execEvModeSwitchComplete (core : Nat) (s : State) : Res :=
  let cl := core / 8
  let d := Device.l1Clear s.dev cl everyLine
  let c := Device.cluster d cl
  let mine := c.switching.filter (fun x => x.bank / 8 == core % 8)
  if mine.isEmpty then .next s
  else
    let c := { c with banks := mine.foldl (fun b x => putAt b x.bank x.mode .cache) c.banks,
                      switching := c.switching.filter (fun x => x.bank / 8 != core % 8) }
    .next { s with dev := mine.foldl Device.unblock (Device.setCluster d cl c) }

/-- JOIN (R179). -/
def execJoin (o : CS) (s : State) : Res :=
  let v := State.sc s o.s.toNat
  let gid := (State.src s).wg
  let g := Device.wg s.dev gid
  if v.p then .next (State.trap s 0x05 s.ctx.lanes 0)
  else if v.v.toNat ≥ 8 then .next (State.trap s 0x03 s.ctx.lanes 0)
  else match g.group with
    | none => .next { s with dev := Device.setWg s.dev gid { g with group := some v.v.toNat } }
    | some h => if h == v.v.toNat then .next s else .next (State.trap s 0x03 s.ctx.lanes 0)

/-- The engine operations that are not complete: queued, in flight, or kept for a saved gang. -/
def Device.outstanding (d : Device) : List EngOp := Device.engineOps d ++ d.saved.flatMap (fun v => v.queue ++ v.ops)

/-- Does an operation name one of some rings of its cluster. -/
def EngOp.namesRing (o : EngOp) (rings : List Nat) : Bool := (o.ins ++ o.outs).any (fun r => rings.contains r.1)

/-- The rings of a cluster that a workgroup owns. -/
def Device.ringsOf (d : Device) (cl gid : Nat) : List Nat :=
  ((Device.cluster d cl).rings.filter (fun r => r.2.owner == gid)).map (fun r => r.1)

/-- Does an operation read or write bytes of some local ranges of its cluster. -/
def EngOp.meets (o : EngOp) (rs : List (Nat × Nat)) : Bool := o.sites.any (fun a => rs.any (fun b => spansMeet a.1 a.2 b.1 b.2))

/-- The local ranges of a workgroup's allocations. -/
def Workgroup.ranges (g : Workgroup) : List (Nat × Nat) := g.allocs.map (fun a => (a.base, 4096 * a.blocks))

/-- Has another workgroup an access outstanding in this one's allocations or rings: an engine operation that is not complete, whatever group its workgroup is in now (R179). -/
def Device.outsideUse (d : Device) (gid : Nat) : Bool :=
  let g := Device.wg d gid
  let cl := g.core / 8
  (Device.outstanding d).any (fun o => o.wg != gid && o.core / 8 == cl && (o.meets g.ranges || o.namesRing (Device.ringsOf d cl gid)))

/-- LEAVE (R179): after the drain, the workgroup leaves its group. -/
def execLeave (_ : C0) (s : State) : Res :=
  let gid := (State.src s).wg
  let g := Device.wg s.dev gid
  match g.group with
  | none => .next s
  | some h =>
    if (Device.gang s.dev g.gang).autoGroup == some h then .next (State.trap s 0x03 s.ctx.lanes 0)
    else if Device.outsideUse s.dev gid then .next (State.hold s .short)
    else .next { s with dev := Device.setWg s.dev gid { g with group := none } }

/-- Is a 4 KiB block of a core's slice free: in a scratchpad bank, in no allocation (R181). -/
def Device.blockFree (d : Device) (core b : Nat) : Bool :=
  let cl := core / 8
  let a := core % 8 * 2 ^ 20 + 4096 * b
  Cluster.modeOf (Device.cluster d cl) (a / 131072) == .spad
  && (Device.cluster d cl).switching.all (fun x => x.bank != a / 131072)
  && !(Device.allocs d cl).any (fun e => e.2.1 ≤ a && a < e.2.1 + e.2.2)

/-- The lowest run of n free blocks of a core's slice (R181), as a block number. -/
def Device.findRun (d : Device) (core n : Nat) : Option Nat :=
  (List.range 256).find? (fun b => b + n ≤ 256 && (List.range n).all (fun i => Device.blockFree d core (b + i)))

/-- Starts the zero-fill of a run of lines (R181, R183): each is absent until it is written. The banks of a ring, whose lines are never absent, hold zeros from the binding on (R176), and no reservation is granted before the fill has passed over them (R191); element poison stays as it is there (DESIGN CHOICE 60: R191 speaks of bytes). -/
def Device.startFill (d : Device) (cl a bytes : Nat) (ring : Bool) : Device :=
  let c := Device.cluster d cl
  let n := bytes / 128
  let d' := if ring then { d with mem := Memory.clear d.mem (sramPa cl a) bytes } else
    Device.setCluster d cl { c with absent := (List.range n).foldl (fun t i => lineIns d.uid t (a / 128 + i)) c.absent,
                                    spois := c.spois.filter (fun e => e < a / 4 || (a + bytes) / 4 ≤ e) }
  { d' with fills := d'.fills ++ [⟨d.uid, cl, a / 128, n, ring⟩], uid := d.uid + 1 }

/-- Makes an allocation of n blocks for a workgroup (R181): its base, or none. -/
def Device.allocate (d : Device) (gid n : Nat) : Device × Option Nat :=
  let g := Device.wg d gid
  match Device.findRun d g.core n with
  | none => (d, none)
  | some b =>
    let a := g.core % 8 * 2 ^ 20 + 4096 * b
    (Device.startFill (Device.setWg d gid { g with allocs := g.allocs ++ [⟨a, n⟩] }) (g.core / 8) a (4096 * n) false, some a)

/-- SALLOC (R181). -/
def execSalloc (o : CS) (s : State) : Res :=
  let v := State.sc s o.s.toNat
  let n := v.v.toNat
  if v.p then .next (State.trap s 0x05 s.ctx.lanes 0)
  else if n == 0 || n > 1048576 then .next (State.trap s 0x03 s.ctx.lanes 0)
  else
    let (d, a) := Device.allocate s.dev (State.src s).wg ((n + 4095) / 4096)
    .next (State.setSc { s with dev := d } o.s.toNat ⟨match a with | some a => BitVec.ofNat 32 a | none => 0xFFFFFFFF, false⟩)

/-- ZERO_FILL (R181, R191): a fill writes its next line, which becomes present; that of a ring passes over its next line. -/
def execEvZeroFill (idx : Nat) (s : State) : Res :=
  match s.dev.fills[idx]? with
  | none => .next s
  | some f =>
    let d := if f.ring then s.dev else
      let d := Device.arriveWrite s.dev f.cl f.id (128 * f.line) (zeros 128)
      let c := Device.cluster d f.cl
      Device.setCluster d f.cl { c with absent := lineRem f.id c.absent f.line }
    let fills := if f.left ≤ 1 then d.fills.eraseIdx idx else d.fills.set idx { f with line := f.line + 1, left := f.left - 1 }
    .next { s with dev := { d with fills := fills } }

/-- Has any wave an access outstanding in a local range of a cluster (R182): an engine operation, or a word through place 0x1 that has not left its core. -/
def Device.rangeUsed (d : Device) (cl a n : Nat) : Bool :=
  (Device.outstanding d).any (fun o => o.core / 8 == cl && o.meets [(a, n)])
  || d.waves.any (fun e => (Wave.unfinished e.2).any (fun p => match gopOfWord p.2.w0 with
      | some g => (p.2.lanes g (Wave.helpers e.2)).any (fun l => match Device.touched d e.2 g p.2 l with
          | some pa => placeOf pa == 1 && sramCl pa == cl && spansMeet (sramOff pa) g.z a n
          | none => false)
      | none => false))

/-- Does a zero-fill of a cluster that is still running write into a local range (R182). -/
def Device.rangeFilling (d : Device) (cl a n : Nat) : Bool := d.fills.any (fun f => f.cl == cl && spansMeet (128 * f.line) (128 * f.left) a n)

/-- SFREE (R182): the allocation whose first byte is s[N]; held while a line of it is absent, or an access or a fill into it is not complete. -/
def execSfree (o : CS) (s : State) : Res :=
  let v := State.sc s o.s.toNat
  let gid := (State.src s).wg
  let g := Device.wg s.dev gid
  if v.p then .next (State.trap s 0x05 s.ctx.lanes 0)
  else match g.allocs.find? (fun a => a.base == v.v.toNat) with
    | none => .next (State.trap s 0x03 s.ctx.lanes 0)
    | some a =>
      if (Device.cluster s.dev (g.core / 8)).absent.any (fun e => a.base / 128 ≤ e.1 && e.1 < (a.base + 4096 * a.blocks) / 128)
          || Device.rangeUsed s.dev (g.core / 8) a.base (4096 * a.blocks)
          || Device.rangeFilling s.dev (g.core / 8) a.base (4096 * a.blocks) then
        .next (State.hold s .short)
      else .next { s with dev := Device.setWg s.dev gid { g with allocs := g.allocs.filter (fun x => x.base != a.base) } }

/-- PRES.GET (R186): bit i is 1 when line s[N] + 128 i is in reach and present. -/
def execPresGet (o : CS) (s : State) : Res :=
  let n := o.s.toNat
  let a := (State.sc s n).v.toNat
  if (State.sc s n).p then .next (State.trap s 0x05 s.ctx.lanes 0)
  else if a % 128 != 0 then .next (State.trap s 0x03 s.ctx.lanes 0)
  else
    let bit (i : Nat) : Bool := (Device.localFault s.pre (State.src s).wg (a + 128 * i : Nat) 128).isNone
      && !Device.lineAbsent s.pre (State.clOf s) (a + 128 * i)
    .next (State.setSc s (n + 1) ⟨BitVec.ofNat 32 ((List.range 32).foldr (fun i acc => 2 * acc + (if bit i then 1 else 0)) 0), false⟩)

/-- The form of a local address in TRPA (R188). -/
def localForm (a : Nat) : DWord := BitVec.ofNat 64 (2 ^ 63 + a % 2 ^ 23)

/-- The lines that an address range names: the first that fails R178, its code and its address in the form of R188 (R425). -/
def State.linesFault (s : State) (a n : Nat) : Option (BitVec 8 × DWord) :=
  (List.range n).findSome? (fun i =>
    (Device.localFault s.pre (State.src s).wg (a + 128 * i : Nat) 128).map (fun f => (f.2, localForm (a + 128 * i))))

/-- PRES.SET (R186): the lines become present with poison cleared; their bytes stay. A zero-fill that has not reached them writes its zeros later, as R186 says of a copy (DESIGN CHOICE 69). A line that fails R178 is reported in the form of R188 (DEDUCED 12). -/
def execPresSet (o : CS) (s : State) : Res :=
  let n := o.s.toNat
  let a := (State.sc s n).v.toNat
  let k := (State.sc s (n + 1)).v.toNat
  if State.scPois s n 2 then .next (State.trap s 0x05 s.ctx.lanes 0)
  else if a % 128 != 0 || k == 0 || k > 8192 then .next (State.trap s 0x03 s.ctx.lanes 0)
  else match State.linesFault s a k with
    | some (c, t) => .next (State.trap s c s.ctx.lanes t)
    | none =>
      let c := Device.cluster s.dev (State.clOf s)
      let c := { c with absent := c.absent.filter (fun e => e.1 < a / 128 || a / 128 + k ≤ e.1),
                        spois := c.spois.filter (fun e => e < a / 4 || (a + 128 * k) / 4 ≤ e) }
      .next { s with dev := Device.setCluster s.dev (State.clOf s) c }

/-- A ring descriptor's fields (R191): RING, SL, J0, NB, ESZ. -/
structure RingDesc where
  ring : Nat
  sl   : Nat
  j0   : Nat
  nb   : Nat
  esz  : Nat
  deriving DecidableEq, Repr

/-- The fields of a ring descriptor. -/
def ringDesc (x : Word) : RingDesc :=
  let n := x.toNat
  ⟨bitsOf n 4 0, bitsOf n 10 8, bitsOf n 13 11, bitsOf n 15 14, bitsOf n 18 16⟩

/-- Is a bank in ring mode with no switch of it under way (R176, R191). -/
def Cluster.inRing (c : Cluster) (bank : Nat) : Bool := c.banks.getD bank .cache == .ring && c.switching.all (fun x => x.bank != bank)

/-- RINIT (R191): binds a ring to banks in ring mode, zero-filled before any reservation is granted. A descriptor that meets both fates of the table takes 0x03 (DESIGN CHOICE 61: the rule gives no order). -/
def execRinit (o : CS) (s : State) : Res :=
  let v := State.sc s o.s.toNat
  let n := v.v.toNat
  let r := ringDesc v.v
  let cl := State.clOf s
  let c := Device.cluster s.dev cl
  let gid := (State.src s).wg
  let first := r.sl * 8 + r.j0
  if v.p then .next (State.trap s 0x05 s.ctx.lanes 0)
  else if bitsOf n 31 19 != 0 || bitsOf n 7 5 != 0 || r.esz ≥ 6 then .next (State.trap s 0x03 s.ctx.lanes 0)
  else if Tbl.has c.rings r.ring || r.j0 + 2 ^ r.nb > 8 || (List.range (2 ^ r.nb)).any (fun i =>
      !Cluster.inRing c (first + i) || Cluster.bankBound c (first + i)) then .next (State.trap s 0x03 s.ctx.lanes 0)
  else if !Device.sliceReach s.dev gid r.sl then .next (State.trap s 0x14 s.ctx.lanes 0)
  else
    let base := first * 131072
    let ring : Ring := ⟨gid, base, r.esz, 2 ^ r.nb * 131072 / (128 * 2 ^ r.esz), 0, 0, 0, 0, [], []⟩
    let d := Device.setCluster s.dev cl { c with rings := Tbl.put c.rings r.ring ring }
    .next { s with dev := Device.startFill d cl base (2 ^ r.nb * 131072) true }

/-- Does an engine operation that has not retired name a ring (R191). -/
def Device.ringNamed (d : Device) (cl ring : Nat) : Bool := (Device.outstanding d).any (fun o => o.core / 8 == cl && o.namesRing [ring])

/-- Does a zero-fill belong to a ring. -/
def Ring.fills (x : Ring) (cl : Nat) (f : Fill) : Bool :=
  f.ring && f.cl == cl && x.base ≤ 128 * f.line && 128 * f.line < x.base + x.cap * (128 * 2 ^ x.esz)

/-- A ring is unbound (R191): its banks keep their bytes, so a zero-fill of it that is still running stops. -/
def Device.unbindRing (d : Device) (cl n : Nat) (x : Ring) : Device :=
  let c := Device.cluster d cl
  { Device.setCluster d cl { c with rings := Tbl.del c.rings n } with fills := d.fills.filter (fun f => !Ring.fills x cl f) }

/-- RINIT.FREE (R191): unbinds a ring. -/
def execRinitFree (o : CS) (s : State) : Res :=
  let v := State.sc s o.s.toNat
  let n := v.v.toNat
  let cl := State.clOf s
  let c := Device.cluster s.dev cl
  if v.p then .next (State.trap s 0x05 s.ctx.lanes 0)
  else if n ≥ 32 then .next (State.trap s 0x03 s.ctx.lanes 0)
  else match Tbl.get? c.rings n with
    | none => .next (State.trap s 0x03 s.ctx.lanes 0)
    | some r =>
      if r.owner != (State.src s).wg then .next (State.trap s 0x14 s.ctx.lanes 0)
      else if !r.prods.isEmpty || !r.cons.isEmpty || Device.ringNamed s.dev cl n then .next (State.trap s 0x03 s.ctx.lanes 0)
      else .next { s with dev := Device.unbindRing s.dev cl n r }

/-- The ring that a word names, with the fates of R193: unbound 0x03, out of reach 0x14. -/
def State.ringOf (s : State) (r : BitVec 5) : Except (BitVec 8) Ring :=
  match Tbl.get? (Device.cluster s.dev (State.clOf s)).rings r.toNat with
  | none => .error 0x03
  | some x =>
    if sharesGroup (State.src s).wg (State.wgOf s) x.owner (Device.wg s.dev x.owner) then .ok x else .error 0x14

/-- Replaces a ring of the current cluster. -/
def State.setRing (s : State) (r : BitVec 5) (x : Ring) : State :=
  let cl := State.clOf s
  let c := Device.cluster s.dev cl
  { s with dev := Device.setCluster s.dev cl { c with rings := Tbl.put c.rings r.toNat x } }

/-- Entries free for producers (R192): C - (PRES - CREL). -/
def Ring.room (x : Ring) : Nat := x.cap - (x.pres - x.crel).toNat

/-- Committed entries not reserved (R192): PCOM - CRES. -/
def Ring.avail (x : Ring) : Nat := (x.pcom - x.cres).toNat

/-- The local address of an entry (R192). -/
def Ring.entryAt (x : Ring) (i : Nat) : Nat := x.base + i % x.cap * (128 * 2 ^ x.esz)

/-- Takes a producer reservation (R192). -/
def Ring.takeProd (x : Ring) (holder : Nat) (eng : Bool) (n : Nat) : Ring :=
  { x with pres := x.pres + BitVec.ofNat 32 n, prods := x.prods ++ [⟨holder, eng, n, false⟩] }

/-- Takes a consumer reservation (R192). -/
def Ring.takeCons (x : Ring) (holder : Nat) (eng : Bool) (n : Nat) : Ring :=
  { x with cres := x.cres + BitVec.ofNat 32 n, cons := x.cons ++ [⟨holder, eng, n, false⟩] }

/-- Is a ring's zero-fill still running (R191). -/
def Device.ringFilling (d : Device) (cl : Nat) (x : Ring) : Bool := d.fills.any (Ring.fills x cl)

/-- How many reservations of a side are not yet committed or released (R192). -/
def openResv (l : List Resv) : Nat := (l.filter (fun r => !r.done)).length

/-- A producer may reserve n entries now (R192). -/
def Device.prodReady (d : Device) (cl : Nat) (x : Ring) (n : Nat) : Bool :=
  !Device.ringFilling d cl x && n ≤ Ring.room x && openResv x.prods < 16

/-- A consumer may reserve n entries now (R192). -/
def Device.consReady (d : Device) (cl : Nat) (x : Ring) (n : Nat) : Bool :=
  !Device.ringFilling d cl x && n ≤ Ring.avail x && openResv x.cons < 16

/-- The shared checks of `rpush` and `rpop` (R193): the ring, then the count (DESIGN CHOICE 61: the rule gives no order between a ring out of reach and a bad count). -/
def State.ringWord (s : State) (o : CRing) (k : Ring → Nat → State) : Res :=
  let v := State.sc s o.s.toNat
  if v.p then .next (State.trap s 0x05 s.ctx.lanes 0)
  else match State.ringOf s o.r with
    | .error c => .next (State.trap s c s.ctx.lanes 0)
    | .ok x =>
      if v.v.toNat == 0 || v.v.toNat > x.cap then .next (State.trap s 0x03 s.ctx.lanes 0)
      else .next (k x v.v.toNat)

/-- RPUSH.RES (R193): waits for room; s[N] is the entry's address, s[N+1] its index. -/
def execRpushRes (o : CRing) (s : State) : Res :=
  State.ringWord s o (fun x n =>
    if !Device.prodReady s.dev (State.clOf s) x n then State.hold s .long
    else
      let s' := State.setRing s o.r (Ring.takeProd x s.ctx.wave false n)
      State.setSc (State.setSc s' o.s.toNat ⟨BitVec.ofNat 32 (Ring.entryAt x x.pres.toNat), false⟩) (o.s.toNat + 1) ⟨x.pres, false⟩)

/-- RPOP.RES (R193): waits for committed entries. -/
def execRpopRes (o : CRing) (s : State) : Res :=
  State.ringWord s o (fun x n =>
    if !Device.consReady s.dev (State.clOf s) x n then State.hold s .long
    else
      let s' := State.setRing s o.r (Ring.takeCons x s.ctx.wave false n)
      State.setSc (State.setSc s' o.s.toNat ⟨BitVec.ofNat 32 (Ring.entryAt x x.cres.toNat), false⟩) (o.s.toNat + 1) ⟨x.cres, false⟩)

/-- The size of a holder's oldest open reservation. -/
def oldestOpen (holder : Nat) (l : List Resv) : Option Nat :=
  (l.find? (fun r => r.holder == holder && !r.engine && !r.done)).map (fun r => r.n)

/-- Has the current wave accesses that it issued before and that have still to be performed: unfinished words, or those that an acquire of its own holds back (R237). -/
def State.earlierOpen (s : State) : Bool := !(State.cur s).pend.isEmpty || Device.bindsBefore s.dev s.ctx.wave s.dev.uid

/-- A word that takes effect after every older operation of its class (R193) and releases the wave's earlier accesses (R235, R237): until then its key waits, as a short stall. -/
def State.afterOlder (s : State) (cls : Nat) (k : State → State) : State :=
  if Wave.counter (State.cur s) cls != 0 || State.earlierOpen s then State.hold s .short else k s

/-- RPUSH.CMT (R193): one operation of class 1, which takes effect after every older one of the wave. -/
def execRpushCmt (o : CRing) (s : State) : Res :=
  State.ringWord s o (fun x n =>
    if oldestOpen s.ctx.wave x.prods != some n then State.trap s 0x03 s.ctx.lanes 0
    else State.afterOlder s 1 (fun s => State.doneOp (State.setRing s o.r (Ring.commit x s.ctx.wave false)) 1))

/-- RPOP.REL (R193): one operation of class 0, which takes effect after every older one of the wave. -/
def execRpopRel (o : CRing) (s : State) : Res :=
  State.ringWord s o (fun x n =>
    if oldestOpen s.ctx.wave x.cons != some n then State.trap s 0x03 s.ctx.lanes 0
    else State.afterOlder s 0 (fun s => State.doneOp (State.setRing s o.r (Ring.release x s.ctx.wave false)) 0))

/-- RLEN (R194): s[N] = PCOM - CRES, s[N+1] = C - (PRES - CREL). -/
def execRlen (o : CRing) (s : State) : Res :=
  match State.ringOf s o.r with
  | .error c => .next (State.trap s c s.ctx.lanes 0)
  | .ok x =>
    .next (State.setSc (State.setSc s o.s.toNat ⟨BitVec.ofNat 32 (Ring.avail x), false⟩) (o.s.toNat + 1)
      ⟨BitVec.ofNat 32 (Ring.room x), false⟩)

end Sys2Proof.Machine
end

