-- ==== Sys2Proof/Machine/Memory.lean ====
section
/-! DEFINITION. Global memory words: loads, stores, atomics, exact accumulation, scalar memory words, fences, counters, poison tests and `mwait` (R154, R196, R205, R206, R210 to R225, R234, R240, R241, R432). -/

namespace Sys2Proof.Machine

/-- Does a lane of the entry wait for an absent scratchpad line (R197, R184). -/
def Device.parked (d : Device) (w : Wave) (g : GOp) (r : Replay) : Bool :=
  g.kind != .st && g.kind != .sst && (r.lanes g (Wave.helpers w)).any (fun l =>
    match Device.laneTr d w g (r.addr g l) with
    | .ok t => placeOf t.pa == 1 && Device.lineAbsent d (sramCl t.pa) (sramOff t.pa)
    | .error _ => false)

/-- What a lane delivers: its data elements, and a poison event of R205. -/
structure LaneRes where
  elems : List Elem
  event : Option (DWord × BitVec 8)
  deriving DecidableEq, Repr

/-- A lane poisoned under R205: value 0, poison set, in n names. -/
def LaneRes.bad (n : Nat) (va : DWord) (c : BitVec 8) : LaneRes := ⟨List.replicate n ⟨0, true⟩, some (va, c)⟩

/-- A load of one lane through its leaf (R211, R205). -/
def Device.loadLane (d : Device) (w : Wave) (g : GOp) (va : DWord) (t : Tr) : Device × LaneRes :=
  let ag := Device.agentOf d w
  let d := Device.l1Pass d ag t g.z
  if placeOf t.pa == 2 then
    let (d, v) := Device.regRead d (regDie t.pa) (regOff t.pa) g.z
    (d, ⟨(List.range g.writes).map (fun i => ⟨loadWord g.z g.sx (leBytes g.z v) i, false⟩), none⟩)
  else if Device.memBad d (replicaPa t ag.die) g.z then (d, LaneRes.bad g.writes va 0x0F)
  else
    let bs := Device.readBytes d ag t 0 g.z
    let p (i : Nat) : Bool := placeOf t.pa == 1 && Device.sramPois d (sramCl t.pa) (sramOff t.pa + 4 * i)
    (d, ⟨(List.range g.writes).map (fun i => ⟨loadWord g.z g.sx bs i, p i⟩), none⟩)

/-- The source code of a wave's register writes (R448). -/
def Device.srcOf (d : Device) (w : Wave) : Nat := Launch.src (Device.launchOf d w)

/-- A store of bytes by a wave through a leaf, at the place that it names (R211, R185, R448). -/
def Device.storeAt (d : Device) (w : Wave) (early : Bool) (t : Tr) (bs : List Byte) : Device :=
  if placeOf t.pa == 2 then
    { d with inbox := d.inbox ++ [⟨Device.srcOf d w, regDie t.pa, regOff t.pa, bs.length, BitVec.ofNat 64 (ofLeBytes bs)⟩] }
  else if placeOf t.pa == 1 then Device.stlLane d (sramCl t.pa) (sramOff t.pa) bs.length bs
  else Device.writeBytes d (Device.agentOf d w) (Device.asidOf d w) early t bs

/-- The bytes that an atomic's old value is read from (R207): die 0's copy of a replicated page. -/
def atomPa (t : Tr) : Nat := if t.attr == 1 then t.pa % 2 ^ 38 else t.pa

/-- Does an atomic write (R215): a cas only when the old value equals the compare value. -/
def atomWrites (op old x : Nat) : Bool := (op != 9 && op != 14) || old == x

/-- An atomic or reduction of one lane at its point of coherence (R215, R229, R185). -/
def Device.atomLane (d : Device) (w : Wave) (g : GOp) (r : Replay) (l : Nat) (t : Tr) : Device × LaneRes :=
  let va := r.addr g l
  let (x, y) := r.atomData g l
  let out (old : Nat) (p : Bool) : LaneRes :=
    ⟨(List.range g.writes).map (fun i => ⟨BitVec.ofNat 32 (old / 2 ^ (32 * i)), p⟩), none⟩
  if placeOf t.pa == 1 then
    let cl := sramCl t.pa
    let a := sramOff t.pa
    let old := ofLeBytes (Device.sramRead d cl a g.z)
    let p := Device.sramPois d cl a || (g.z == 8 && Device.sramPois d cl (a + 4))
    (Device.sramPut d 0 cl a (leBytes g.z (atomNew g.op old x y)), out old p)
  else if Device.memBad d (atomPa t) g.z then
    if g.kind == .atom then (d, LaneRes.bad g.writes va 0x0F)
    else (Device.logError d 5 (w.core / 64) 3 0x0F va (Device.launchOf d w).lnch 0, ⟨[], none⟩)
  else
    let d := Device.l1Clear d (w.core / 8) (linesOfBytes (atomPa t) g.z)
    let old := ofLeBytes ((List.range g.z).map (fun i => Device.memByte d t.key (atomPa t + i)))
    let d := if atomWrites g.op old x then
        Device.writeBytes d (Device.agentOf d w) (Device.asidOf d w) false t (leBytes g.z (atomNew g.op old x y))
      else d
    (d, out old false)

/-- The home die of a destination (R221). -/
def homeDie (pa : Nat) : Nat := pa / 2 ^ 38 % 4

/-- The open slot of a destination (R221). -/
def Device.slot? (d : Device) (asid pa : Nat) : Option XOpen := d.xslots.find? (fun x => x.asid == asid && x.pa == pa)

/-- Opens a slot (R222): the device after it and the status. -/
def Device.slotOpen (d : Device) (x : XOpen) : Device × Nat :=
  match Device.slot? d x.asid x.pa with
  | some _ => (d, 1)
  | none =>
    if (d.xslots.filter (fun y => homeDie y.pa == homeDie x.pa)).length ≥ 16384 then (d, 2)
    else ({ d with xslots := d.xslots ++ [x] }, 0)

/-- Adds to a slot (R223); with none open the addition is dropped and the launch's error bit set. -/
def Device.slotAdd (d : Device) (asid pa : Nat) (x : Word) (launch : Nat) : Device :=
  match Device.slot? d asid pa with
  | none => Device.launchErr d launch
  | some _ =>
    { d with xslots := d.xslots.map (fun y =>
        if y.asid == asid && y.pa == pa then { y with slot := XSlot.add y.slot (Fmt.value f32 x.toNat) } else y) }

/-- Takes a slot out (R224): its value, its flags. -/
def Device.slotTake (d : Device) (asid pa : Nat) : Device × Option (Nat × Nat) :=
  match Device.slot? d asid pa with
  | none => (d, none)
  | some y =>
    let s := y.slot
    ({ d with xslots := d.xslots.filter (fun z => !(z.asid == asid && z.pa == pa)) },
      some (XSlot.close s, s.nan.toNat + 2 * s.pinf.toNat + 4 * s.ninf.toNat + 8 * s.ovf.toNat))

/-- The launch of a wave, by identifier. -/
def Device.launchIdOf (d : Device) (w : Wave) : Nat := (Device.gang d (Device.wg d w.wg).gang).launch

/-- The agent of a home unit that stores the sum of a slot, for the launch that opened it (R224, R452). -/
def Device.slotAgent (d : Device) (x : XOpen) : Agent := (dieAgent (homeDie x.pa)).workFor (Device.launch d x.launch).lnch

/-- The status element of a lane. -/
def statusRes (v : Nat) : LaneRes := ⟨[⟨BitVec.ofNat 32 v, false⟩], none⟩

/-- One lane of a word through its leaf. -/
def Device.lane (d : Device) (w : Wave) (g : GOp) (r : Replay) (early : Bool) (l : Nat) (t : Tr) : Device × LaneRes :=
  let asid := Device.asidOf d w
  match g.kind with
  | .ld => Device.loadLane d w g (r.addr g l) t
  | .sld => Device.loadLane d w g (r.addr g l) t
  | .atom => Device.atomLane d w g r l t
  | .red => Device.atomLane d w g r l t
  | .dopen =>
    let (d, v) := Device.slotOpen d ⟨asid, t.pa, Device.launchIdOf d w, t.attr, t.key, XSlot.empty⟩
    (d, statusRes v)
  | .dadd => (Device.slotAdd d asid t.pa (r.data g l 0) (Device.launchIdOf d w), ⟨[], none⟩)
  | .dclose =>
    match Device.slotTake d asid t.pa with
    | (d, none) => (d, ⟨[⟨0, false⟩, ⟨0x10, false⟩], none⟩)
    | (d, some (v, f)) =>
      (Device.writeBytes d (Device.agentOf d w) asid false t (leBytes 4 v), ⟨[⟨BitVec.ofNat 32 v, false⟩, ⟨BitVec.ofNat 32 f, false⟩], none⟩)
  | .st => (Device.storeAt d w early t (storeBytes g.z (r.data g l)), ⟨[], none⟩)
  | .sst => (Device.storeAt d w early t (storeBytes g.z (r.data g l)), ⟨[], none⟩)

/-- A fault of a store-type word (R212): the code of the lowest faulting lane, the faulting lanes, its address. -/
def Device.storeFault (d : Device) (w : Wave) (g : GOp) (r : Replay) : Option (BitVec 8 × Mask × DWord) :=
  let ls := r.lanes g (Wave.helpers w)
  let f (l : Nat) : Option (BitVec 8) :=
    match Device.laneTr d w g (r.addr g l) with
    | .error c => some c
    | .ok _ => none
  match ls.find? (fun l => (f l).isSome) with
  | none => none
  | some l0 =>
    some ((f l0).getD 0x07, if g.scalar then r.mask else maskOf (fun l => ls.contains l && (f l).isSome), r.addr g l0)

/-- The destination registers of a word, through a window base. -/
def Wave.dests (w : Wave) (g : GOp) (wb : Nat) : List RegId :=
  (List.range g.writes).map (fun i => if g.scalar then .scal (g.x + i) else Wave.vid w wb (g.x + i))

/-- Delivers lane results to the destination registers of a wave, as the word issues or, `late`, to the elements that it has reserved and that still live (R100, R101); a lane that has exited keeps nothing (R93). -/
def Wave.deliver (w : Wave) (g : GOp) (wb : Nat) (late : Bool) (rs : Tbl LaneRes) : Wave :=
  let w := rs.foldl (fun w e => match e.2.event with
    | some (a, c) => Wave.poisoned w a c
    | none => w) w
  let el (l i : Nat) : Elem := ((Tbl.getD rs l ⟨[], none⟩).elems).getD i ⟨0, false⟩
  if g.scalar then
    match rs with
    | [] => w
    | (l, _) :: _ => (List.range g.writes).foldl (fun w i => Wave.setSc w (g.x + i) (el l i)) w
  else
    let L := maskOf (fun l => Tbl.has rs l) &&& Wave.live w
    (List.range g.writes).foldl (fun w i =>
      let id := Wave.vid w wb (g.x + i)
      if late then Wave.arrive w id L (fun l => el l i) else Wave.writeReg w id L (fun l => el l i) false) w

/-- One lane's access where its translation has failed: a load delivers poison (R205, R211); a store-type word has none that fails (R212). -/
def Device.laneOrPoison (d : Device) (w : Wave) (g : GOp) (r : Replay) (early : Bool) (l : Nat) (t : Except (BitVec 8) Tr) : Device × LaneRes :=
  match t with
  | .ok t => Device.lane d w g r early l t
  | .error c => (d, if g.storeType then ⟨[], none⟩ else LaneRes.bad g.writes (r.addr g l) c)

/-- Performs a word's accesses lane by lane, in ascending order, through the leaves that the lanes had before the first of them (R212), and delivers its results. -/
def Device.performWord (d : Device) (u : Nat) (g : GOp) (r : Replay) (early late : Bool) : Device :=
  let w := Device.wave d u
  let f (acc : Device × Tbl LaneRes) (e : Nat × Except (BitVec 8) Tr) : Device × Tbl LaneRes :=
    let (d, x) := Device.laneOrPoison acc.1 w g r early e.1 e.2
    (d, acc.2 ++ [(e.1, x)])
  let (d, rs) := ((r.lanes g (Wave.helpers w)).map (fun l => (l, Device.laneTr d w g (r.addr g l)))).foldl f (d, [])
  if w.ended then d else Device.setWave d u (Wave.deliver (Device.wave d u) g r.wb late rs)

/-- A word that faults in translation (R212): it stays unfinished, and the wave's trap is pending. When the wave has ended the word is dropped, the error bit set and the loss recorded (R437). -/
def Device.faultWord (d : Device) (u id : Nat) (r : Replay) (c : BitVec 8) (m : Mask) (a : DWord) : Device :=
  let w := Device.wave d u
  let at_ (p : Pend) : Bool := p.id == id
  if w.ended then
    let d := Device.launchErr (Device.logError d 5 (w.core / 64) 3 c.toNat a (Device.launchOf d w).lnch 0) (Device.launchIdOf d w)
    Device.setWave d u { Wave.finish w id with pend := w.pend.filter (fun p => !at_ p) }
  else
    let r := { r with faulted := true, fcode := c, faddr := a }
    let pend := if w.pend.any at_ then w.pend.map (fun p => if at_ p then .word id r else p) else w.pend ++ [.word id r]
    Device.setWave d u { w with pend := pend, ptraps := w.ptraps ++ [⟨.fixed, c, 0, w.handler, m, r.subset, r.pc, r.wb, a⟩] }

/-- Does an entry of the unfinished list read memory that its wave can then see. -/
def Pend.reads (p : Pend) : Bool :=
  match p with
  | .word _ r =>
    match gopOfWord r.w0 with
    | some g => g.readsMem
    | none => true
  | .fence _ _ _ _ => false
  | .flush _ _ => false

/-- May a fence take effect behind the entries that are left before it (R234): a release behind none, an acquire behind no read and no earlier acquire. -/
def fenceReady (rel : Bool) (before : List Pend) : Bool :=
  if rel then before.isEmpty else !before.any Pend.reads && !fencesHold false before

/-- The fences of an unfinished list that may take effect do so, oldest first: the device, and what is left of the list. -/
def Device.settle (d : Device) (cl : Nat) (kept : List Pend) : List Pend → Device × List Pend
  | [] => (d, kept)
  | .fence i a rl k :: t =>
    if fenceReady rl kept then Device.settle (Device.fenceAct d cl a rl k) cl kept t else Device.settle d cl (kept ++ [.fence i a rl k]) t
  | p :: t => Device.settle d cl (kept ++ [p]) t

/-- Replaces a wave's unfinished list; the fences of it that may take effect do so. -/
def Device.setPend (d : Device) (u : Nat) (l : List Pend) : Device :=
  let (d, pend) := Device.settle d ((Device.wave d u).core / 8) [] l
  Device.setWave d u { Device.wave d u with pend := pend }

/-- Removes a word that has left the core, and lets the fences behind it take effect. -/
def Device.leftCore (d : Device) (u id : Nat) : Device := Device.setPend d u (pendDrop id (Device.wave d u).pend)

/-- The bytes of memory that a store-type word has written (R231). -/
def Device.footOf (d : Device) (w : Wave) (g : GOp) (r : Replay) : List (Nat × Nat) :=
  (r.lanes g (Wave.helpers w)).filterMap (fun l =>
    match Device.laneTr d w g (r.addr g l) with
    | .ok t => some (t.pa, g.z)
    | .error _ => none)

/-- Performs an unfinished word (R432): nothing while it must wait, or while a position that it writes is spilled (R125); a store-type word that faults stays (R212). With `early`, a store enters its cluster L1 and stays outstanding (R231); any other word completes. -/
def Device.performPend (d : Device) (u id : Nat) (r : Replay) (early : Bool) : Device :=
  let w := Device.wave d u
  match gopOfWord r.w0 with
  | none => d
  | some g =>
    if r.faulted || Device.mustWait d u id g r (pendBefore id w.pend) || Device.parked d w g r
        || (!w.ended && (Wave.dests w g r.wb).any (fun x => (Wave.outItem w x).isSome)) then d
    else match (if g.storeType then Device.storeFault d w g r else none) with
      | some (c, m, a) => Device.faultWord d u id r c m a
      | none =>
        let e := early && (g.kind == .st || g.kind == .sst)
        let foot := Device.footOf d w g r
        let d := Device.leftCore (Device.performWord d u g r e true) u id
        let w := Device.wave d u
        if e then Device.setWave d u { w with outs := w.outs.map (fun o => if o.id == id then { o with foot := foot } else o) }
        else Device.setWave d u (Wave.finish w id)

/-- Makes the writes of a `wflush` that waits in the core, behind the fences before it (R142, R234), and completes it. -/
def Device.performFlush (d : Device) (u id : Nat) (items : List ((Nat × Bool) × List (DWord × List Byte))) : Device :=
  if fencesHold true (pendBefore id (Device.wave d u).pend) || Device.bindsBefore d u id then d
  else
    let d := Device.leftCore (Device.flushNow d u items) u id
    Device.setWave d u (Wave.finish (Device.wave d u) id)

/-- Completes the oldest operation of a class that can complete (R240): an unfinished word is performed, a flush makes its writes, a store's bytes reach their point of coherence. A cluster that holds an older clean byte in its L1 may go on reading it until it acquires, refreshes or evicts it, though R240 speaks of every agent (DESIGN CHOICE 70). -/
def Device.completeOp (d : Device) (u : Nat) (o : OutOp) : Device :=
  let w := Device.wave d u
  match w.pend.find? (fun p => p.id == o.id) with
  | some (.word _ r) => Device.performPend d u o.id r false
  | some (.flush _ items) => Device.performFlush d u o.id items
  | _ => Device.setWave (Device.l1WriteBack d (w.core / 8) (linesOfFoot o.foot)) u (Wave.finish w o.id)

/-- STORE_TRANSLATION_FAULT (R212): an unfinished store-type word translates its lanes; when one faults the word becomes an entry and the trap is pending. -/
def execEvStoreTranslationFault (wave idx : Nat) (s : State) : Res :=
  match (Wave.unfinished (Device.wave s.dev wave))[idx]? with
  | none => .next s
  | some (id, r) =>
    match gopOfWord r.w0 with
    | none => .next s
    | some g =>
      if !g.storeType || r.faulted || Device.mustWait s.dev wave id g r (pendBefore id (Device.wave s.dev wave).pend) then .next s
      else match Device.storeFault s.dev (Device.wave s.dev wave) g r with
        | none => .next s
        | some (c, m, a) => .next { s with dev := Device.faultWord s.dev wave id r c m a }

/-- Captures a word's operands (R433); a store-type word with lanes of its own performs none that is a helper (R87). -/
def State.capture (s : State) (g : GOp) (b : BitVec 8) (a : BitVec 6) (off : DWord) : Replay :=
  let row (n : Nat) : List Word := mkLanes (fun l => if s.ctx.lanes.getLsbD l then (State.elem s n l).v else 0)
  { w0 := s.ctx.word, w1 := s.ctx.raw.getD 0 0, w2 := s.ctx.raw.getD 1 0, valid := true, nlit := s.ctx.raw.length, cls := g.cls,
    faulted := false, fcode := 0, mask := if g.storeType && !g.scalar then s.ctx.lanes &&& ~~~(Wave.helpers (State.src s)) else s.ctx.lanes,
    subset := s.ctx.lanes, pc := s.ctx.chainPc, wb := s.ctx.wb, base := State.sc64 s b.toNat, offset := off,
    sdata := if g.scalar then (List.range g.reads).map (fun i => (State.sc s (g.x + i)).v) else [],
    faddr := 0, ops := if g.scalar then [] else row a.toNat :: (List.range g.reads).map (fun i => row (g.x + i)) }

/-- The checks at issue of a vector word (R196, R206), in order: the failing lanes, the code, TRPA. -/
def State.globalChecks (s : State) (g : GOp) (r : Replay) (L : Mask) (b : BitVec 8) (a : BitVec 6) : Option (Mask × BitVec 8 × DWord) :=
  let pb := State.scPois s b.toNat 2
  let tests : List (BitVec 8 × (Nat → Bool)) :=
    [(0x05, fun l => pb || (State.elem s a.toNat l).p),
     (0x07, fun l => !canonical (r.addr g l)),
     (0x08, fun l => (r.addr g l).toNat % g.z != 0)]
  match tests.find? (fun t => (L &&& maskOf t.2) != 0) with
  | some t =>
    let m := L &&& maskOf t.2
    some (m, t.1, if t.1 == 0x05 then 0 else r.addr g ((lanesOf m).headD 0))
  | none =>
    let m := L &&& maskOf (fun l => (List.range g.reads).any (fun i => (State.elem s (g.x + i) l).p))
    if m != 0 then some (m, 0x05, r.addr g ((lanesOf m).headD 0)) else none

/-- The `dadd` words that hold an entry of a core's holding buffer (R223). -/
def Device.holding (d : Device) (core : Nat) : Nat :=
  (d.waves.map (fun e => if e.2.core == core then
    ((Wave.unfinished e.2).filter (fun p => match gopOfWord p.2.w0 with
      | some g => g.kind == .dadd
      | none => false)).length else 0)).sum

/-- Gives the destinations of a word that stays unfinished their registers, with their elements as they are. -/
def State.reserve (s : State) (g : GOp) (L : Mask) : State :=
  if g.scalar then s
  else (List.range g.writes).foldl (fun s i => State.writeVIn s (g.x + i) L (fun l => State.elem s (g.x + i) l) false) s

/-- Issues a per-lane global word whose checks have passed: it is performed now, or stays unfinished in the core (R432). -/
def State.issueWord (s : State) (g : GOp) (r : Replay) (L : Mask) : State :=
  let u := s.ctx.wave
  let w := State.cur s
  if State.classFull s g.cls then State.hold s .long
  else if L == 0 then State.doneOp s g.cls
  else if (Wave.unfinished w).length ≥ 6 || (g.kind == .dadd && Device.holding s.dev w.core ≥ 16) then State.hold s .short
  else
    let id := State.newId s
    let s := State.useId s
    let written := if g.scalar then s.ctx.written else Wave.dests w g r.wb ++ s.ctx.written
    if (s.ctx.defer && !w.handler) || Device.mustWait s.dev u id g r w.pend || Device.parked s.dev w g r then
      let s := State.reserve s g L
      State.mapWave s (fun w => Wave.addOut { w with pend := w.pend ++ [.word id r] } ⟨id, g.cls, false, Wave.dests w g r.wb, []⟩)
    else
      let s := State.mapWave s (fun w => Wave.addOut w ⟨id, g.cls, false, [], []⟩)
      match (if g.storeType then Device.storeFault s.dev (State.cur s) g r else none) with
      | some (c, m, a) =>
        let s := State.reserve s g L
        { s with dev := Device.faultWord s.dev u id r c m a }
      | none =>
        let d := Device.performWord s.dev u g r false false
        { s with dev := Device.setWave d u (Wave.finish (Device.wave d u) id), ctx := { s.ctx with written := written } }

/-- A vector global word (R210, R211, R214, R215, R221). -/
def State.globalWord (s : State) (g : GOp) (b : BitVec 8) (a : BitVec 6) (la : BitVec 1) : State :=
  let L := if g.storeType then s.ctx.lanes &&& ~~~(Wave.helpers (State.src s)) else s.ctx.lanes
  let r := State.capture s g b a (wrap64 (State.lit s))
  match State.globalChecks s g r L b a with
  | some (m, c, t) => State.trap s c m t
  | none => State.issueWord (State.lastRead s la a.toNat) g r L

/-- LD (R210, R211). -/
def execLd (o : ML) (s : State) : Res :=
  .next (State.globalWord s ⟨.ld, o.x.toNat, sizeBytes o.sz, 0, o.sx == 1⟩ o.b o.a o.la)

/-- ST (R210 to R212). -/
def execSt (o : MS) (s : State) : Res :=
  .next (State.globalWord s ⟨.st, o.x.toNat, sizeBytes o.sz, 0, false⟩ o.b o.a o.la)

/-- ATOM (R214 to R216). -/
def execAtom (o : MA) (s : State) : Res :=
  .next (State.globalWord s ⟨.atom, o.x.toNat, atomWidth o.op.toNat, o.op.toNat, false⟩ o.b o.a o.la)

/-- RED (R214 to R216). -/
def execRed (o : MA) (s : State) : Res :=
  .next (State.globalWord s ⟨.red, o.x.toNat, atomWidth o.op.toNat, o.op.toNat, false⟩ o.b o.a o.la)

/-- DOPEN (R221, R222). -/
def execDopen (o : MD) (s : State) : Res := .next (State.globalWord s ⟨.dopen, o.x.toNat, 4, 0, false⟩ o.b o.a o.la)

/-- DADD (R221, R223). -/
def execDadd (o : MD) (s : State) : Res := .next (State.globalWord s ⟨.dadd, o.x.toNat, 4, 0, false⟩ o.b o.a o.la)

/-- DCLOSE (R221, R224). -/
def execDclose (o : MD) (s : State) : Res := .next (State.globalWord s ⟨.dclose, o.x.toNat, 4, 0, false⟩ o.b o.a o.la)

/-- The offset of a scalar memory word (R154). -/
def State.smemOff (s : State) (b : BitVec 6) : DWord :=
  if b == 63 then wrap64 (State.lit s) else BitVec.ofInt 64 (4 * b.toInt)

/-- A scalar memory word (R154): one access for the whole subset. -/
def State.smemWord (s : State) (g : GOp) (o : SR) : State :=
  let L := s.ctx.lanes
  let r := State.capture s g o.a 0 (State.smemOff s o.b)
  let A := r.base + r.offset
  if g.storeType && (L &&& ~~~(Wave.helpers (State.src s))) == 0 then State.issueWord s g r 0
  else if State.scPois s o.a.toNat 2 then State.trap s 0x05 L 0
  else if !canonical A then State.trap s 0x07 L A
  else if A.toNat % g.z != 0 then State.trap s 0x08 L A
  else if State.scPois s g.x g.reads then State.trap s 0x05 L A
  else State.issueWord s g r L

/-- SLD_W (R154). -/
def execSldW (o : SR) (s : State) : Res := .next (State.smemWord s ⟨.sld, o.d.toNat, 4, 0, false⟩ o)
/-- SLD_D (R154). -/
def execSldD (o : SR) (s : State) : Res := .next (State.smemWord s ⟨.sld, o.d.toNat, 8, 0, false⟩ o)
/-- SLD_Q (R154). -/
def execSldQ (o : SR) (s : State) : Res := .next (State.smemWord s ⟨.sld, o.d.toNat, 16, 0, false⟩ o)
/-- SST_W (R154). -/
def execSstW (o : SR) (s : State) : Res := .next (State.smemWord s ⟨.sst, o.d.toNat, 4, 0, false⟩ o)
/-- SST_D (R154). -/
def execSstD (o : SR) (s : State) : Res := .next (State.smemWord s ⟨.sst, o.d.toNat, 8, 0, false⟩ o)
/-- SST_Q (R154). -/
def execSstQ (o : SR) (s : State) : Res := .next (State.smemWord s ⟨.sst, o.d.toNat, 16, 0, false⟩ o)

/-- A fence of the wave (R234): now, or behind the unfinished words. -/
def State.fenceWord (s : State) (acq rel : Bool) (k : BitVec 6) : State :=
  let w := State.cur s
  if w.pend.isEmpty then { s with dev := Device.fenceAct s.dev (w.core / 8) acq rel k.toNat }
  else
    let p : Pend := .fence (State.newId s) acq rel k.toNat
    { State.useId s with dev := Device.setPend (State.useId s).dev s.ctx.wave (w.pend ++ [p]) }

/-- FENCE (R234): full form. -/
def execFence (o : CK) (s : State) : Res := .next (State.fenceWord s true true o.k)
/-- FENCE_ACQ (R234). -/
def execFenceAcq (o : CK) (s : State) : Res := .next (State.fenceWord s true false o.k)
/-- FENCE_REL (R234). -/
def execFenceRel (o : CK) (s : State) : Res := .next (State.fenceWord s false true o.k)

/-- WAITK (R241): held until the class counter is at most n. -/
def execWaitk (o : CWait) (s : State) : Res :=
  if Wave.counter (State.cur s) o.k.toNat ≤ o.n.toNat then .next s else .next (State.hold s .long)

/-- PF (R217): it changes time only. -/
def execPf (_ : CPf) (s : State) : Res := .next s

/-- PCHK pk, vN (R218). -/
def execPchkV (o : CVP) (s : State) : Res :=
  .next (State.setPred s o.p.toNat (fun l => (State.elem s o.v.toNat l).p) (fun _ => false))

/-- PCHK pk, sN (R218). -/
def execPchkS (o : CSP) (s : State) : Res :=
  .next (State.setPred s o.p.toNat (fun _ => (State.sc s o.s.toNat).p) (fun _ => false))

/-- PCLR vN (R219). -/
def execPclrV (o : CV) (s : State) : Res :=
  let n := o.v.toNat
  match Wave.reg? (State.src s) (Wave.vid (State.src s) s.ctx.wb n) with
  | none => .next s
  | some r =>
    let L := s.ctx.lanes &&& r.live
    if (L &&& r.pois) == 0 then .next s
    else .next (State.writeVIn s n L (fun l => ⟨(State.elem s n l).v, false⟩) false)

/-- PCLR sN (R219). -/
def execPclrS (o : CS) (s : State) : Res := .next (State.setSc s o.s.toNat ⟨(State.sc s o.s.toNat).v, false⟩)

/-- The condition of `mwait` (R220). -/
def mwaitHolds (cond : BitVec 2) (v t : Nat) : Bool :=
  match cond.toNat with
  | 0 => v ≥ t
  | 1 => v == t
  | _ => v != t

/-- MWAIT (R220): held until the 8 bytes satisfy the condition; the read is an acquire, and stands behind an acquire that has still to take effect (R234). TRPA of a poisoned threshold is the address, of a poisoned address 0 (R206). -/
def execMwait (o : CMwait) (s : State) : Res :=
  let n := o.s.toNat
  let w := State.src s
  let L := s.ctx.lanes
  let A := State.sc64 s n
  let T := State.sc64 s (n + 2)
  if State.scPois s n 2 then .next (State.trap s 0x05 L 0)
  else if State.scPois s (n + 2) 2 then .next (State.trap s 0x05 L A)
  else if !canonical A then .next (State.trap s 0x07 L A)
  else if A.toNat % 8 != 0 then .next (State.trap s 0x08 L A)
  else if fencesHold false (State.cur s).pend || Device.bindsBefore s.dev s.ctx.wave s.dev.uid then .next (State.hold s .short)
  else match Device.translate s.pre w.core (Device.asidOf s.pre w) .r A 8 with
    | .error c => .next (State.trap s c L A)
    | .ok t =>
      let ag := coreAgent w.core
      if placeOf t.pa == 1 && Device.lineAbsent s.pre (sramCl t.pa) (sramOff t.pa) then .next (State.hold s .long)
      else if Device.memBad s.pre (replicaPa t ag.die) 8 then .next (State.trap s 0x0F L A)
      else
        let d := Device.l1Drop (Device.l1Pass s.dev ag t 8) ag.cl (linesOfBytes (replicaPa t ag.die) 8)
        let (d, v) := if placeOf t.pa == 2 then Device.regRead d (regDie t.pa) (regOff t.pa) 8
          else (d, ofLeBytes (Device.readBytes d ag t 0 8))
        if mwaitHolds o.cond v T.toNat then .next { s with dev := Device.fenceAct d ag.cl true false o.scope.toNat }
        else .next (State.hold s .long)

/-- SLOT_OPEN (R222): the step of the home unit for one destination. -/
def execEvSlotOpen (asid pa launch : Nat) (s : State) : Res :=
  .next { s with dev := (Device.slotOpen s.dev ⟨asid, pa, launch, 0, 0, XSlot.empty⟩).1 }

/-- SLOT_ADDITION (R223): the step of the home unit for one addition. -/
def execEvSlotAddition (asid pa : Nat) (x : BitVec 32) (launch : Nat) (s : State) : Res :=
  .next { s with dev := Device.slotAdd s.dev asid pa x launch }

/-- SLOT_CLOSE (R224): the step of the home unit that stores the rounded sum and frees the slot. -/
def execEvSlotClose (asid pa : Nat) (s : State) : Res :=
  match Device.slot? s.dev asid pa with
  | none => .next s
  | some y =>
    match Device.slotTake s.dev asid pa with
    | (_, none) => .next s
    | (d, some (v, _)) =>
      .next { s with dev := Device.writeBytes d (Device.slotAgent s.dev y) asid false ⟨pa, y.attr, 1, y.key⟩ (leBytes 4 v) }

/-- L1_LINE_REFRESH (R233): the clean bytes of a line are read again from their point of coherence. -/
def execEvL1LineRefresh (cluster line : Nat) (s : State) : Res :=
  let c := Device.cluster s.dev cluster
  let f (e : Nat × L1Byte) : Nat × L1Byte :=
    if e.1 / 128 == line && !e.2.dirty then (e.1, { e.2 with b := Device.memByteT s.dev e.2.tag e.1 })
    else e
  .next { s with dev := Device.setCluster s.dev cluster { c with l1 := c.l1.map f } }

end Sys2Proof.Machine
end

