-- ==== Sys2Proof/Machine/Cassette.lean ====
section
/-! DEFINITION. The Cassette: spill candidates, spills, refills and their faults (R124, R133 to R141). -/

namespace Sys2Proof.Machine

/-- The least window base over the live lanes, from their own bases (R133); with no live lane, no bound. -/
def Wave.wmin (w : Wave) : Nat := (lanesOf (~~~w.exited)).foldl (fun m l => min m (w.wbs.getD l 0)) 65536

/-- Is a position in the view of a live lane (R124). -/
def Wave.posVisible (w : Wave) (p : Nat) : Bool :=
  (lanesOf (~~~w.exited)).any (fun l => w.wbs.getD l 0 ≤ p && p < w.wbs.getD l 0 + 48)

/-- Is a frame visible (R136): the base of a live lane, or the new frame of a held call. -/
def Wave.frameVisible (w : Wave) (f : Nat) : Bool :=
  (lanesOf (~~~w.exited)).any (fun l => w.wbs.getD l 0 == f) || w.stalls.contains (.frame f)

/-- Will an operation under way still write a register. -/
def Wave.writing (w : Wave) (id : RegId) : Bool := w.outs.any (fun o => o.dests.contains id)

/-- Will an issued but unfinished operation still write a register: one under way, or an entry held for `rte`, whose names resolve through its own WB (R133, R437). -/
def Wave.awaited (w : Wave) (id : RegId) : Bool :=
  Wave.writing w id || w.held.any (fun r => r.valid && (match gopOfWord r.w0 with
    | some g => (Wave.dests { w with handler := false } g r.wb).contains id
    | none => false))

/-- May a position be spilled (R133). -/
def Wave.posCand (w : Wave) (p : Nat) : Bool :=
  p < Wave.wmin w && p < w.wlim && !Wave.awaited w (.pos p)
  && (match Tbl.get? w.win p with
    | some x => x.st == .resident
    | none => false)

/-- May a frame be spilled (R133). -/
def Wave.frameCand (w : Wave) (f : Nat) : Bool :=
  f < Wave.wmin w && f < w.wlim && !w.stalls.contains (.frame f)
  && (match Tbl.get? w.frames f with
    | some x => x.st == .resident
    | none => false)

/-- The first candidate (R133): lowest index, position before frame. -/
def Wave.nextCand (w : Wave) : Option (Nat × Bool) :=
  let p := (w.win.filter (fun e => Wave.posCand w e.1)).head?.map (·.1)
  let f := (w.frames.filter (fun e => Wave.frameCand w e.1)).head?.map (·.1)
  match p, f with
  | none, none => none
  | some p, none => some (p, false)
  | none, some f => some (f, true)
  | some p, some f => if p ≤ f then some (p, false) else some (f, true)

/-- Units free in a core's pool (R134): 65,536 less the units held by its resident waves. -/
def Device.freeUnits (d : Device) (core : Nat) : Int :=
  65536 - ((d.waves.map (fun e => if e.2.core == core && !e.2.ended then Wave.heldUnits e.2 else 0)).sum : Nat)

/-- Does the Cassette spill ahead of time on a core: from fewer than 4,096 free units until they reach 8,192 (R134). -/
def Device.aheadNow (d : Device) (core : Nat) : Bool :=
  let n := Device.freeUnits d core
  n < 4096 || ((Device.core d core).ahead && n < 8192)

/-- Notes whether the Cassette of a core spills ahead of time, as its free units change (R134). -/
def Device.noteAhead (d : Device) (core : Nat) : Device :=
  let b := Device.aheadNow d core
  if (Device.core d core).ahead == b then d else Device.setCore d core { Device.core d core with ahead := b }

/-- What a refill will cost (R136, R137): whether the item is allocated uniform. -/
def refillUnits (frame unif : Bool) : Nat := if frame then (if unif then 2 else 32) else (if unif then 1 else 16)

/-- Is a spill of the wave under way: the item is resident until its last step (R123, R135). -/
def Wave.spillGoing (w : Wave) : Bool := w.win.any (fun e => e.2.st == .spilling) || w.frames.any (fun e => e.2.st == .spilling)

/-- The spills of a wave that are under way are abandoned: their items stay resident. -/
def Wave.keepSpilling (w : Wave) : Wave :=
  { w with win := w.win.map (fun e => if e.2.st == .spilling then (e.1, { e.2 with st := .resident }) else e),
           frames := w.frames.map (fun e => if e.2.st == .spilling then (e.1, { e.2 with st := .resident }) else e) }

/-- Can spilling still give the wave room (R104, R133, R140): a candidate is left, or one is being spilled. While a spill fault stops the wave's spills it has no candidate for R137 either (DESIGN CHOICE 73: R104 says so for a chain, R137 does not speak of it). -/
def Wave.canSpill (w : Wave) : Bool := !w.noSpill && ((Wave.nextCand w).isSome || Wave.spillGoing w)

/-- Sets the state of a position. -/
def Wave.posSt (w : Wave) (p : Nat) (st : SlotSt) : Wave :=
  match Tbl.get? w.win p with
  | some x => { w with win := Tbl.put w.win p { x with st := st } }
  | none => w

/-- Sets the state of a frame. -/
def Wave.frameSt (w : Wave) (f : Nat) (st : SlotSt) : Wave :=
  match Tbl.get? w.frames f with
  | some x => { w with frames := Tbl.put w.frames f { x with st := st } }
  | none => w

/-- Sets the state of a position or frame. -/
def Wave.itemSt (w : Wave) (idx : Nat) (frame : Bool) (st : SlotSt) : Wave :=
  if frame then Wave.frameSt w idx st else Wave.posSt w idx st

/-- The state of a position or frame. -/
def Wave.itemSt? (w : Wave) (idx : Nat) (frame : Bool) : Option SlotSt :=
  if frame then (Tbl.get? w.frames idx).map (fun x => x.st) else (Tbl.get? w.win idx).map (fun x => x.st)

/-- The writes of a spill (R135, R138). -/
def Wave.spillWrites (w : Wave) (idx : Nat) (frame : Bool) : List (DWord × List Byte) :=
  if frame then
    match Tbl.get? w.frames idx with
    | some x => Wave.frameSpill w idx x.mask x.entries
    | none => []
  else
    match Tbl.get? w.win idx with
    | some x => Wave.slotImage w idx x.reg
    | none => []

/-- The writes of an item leave the flushes that wait: a spill has written what the item holds now (R135, R143). -/
def Wave.dropFlushed (w : Wave) (idx : Nat) (frame : Bool) : Wave :=
  { w with pend := w.pend.map (fun p => match p with
      | .flush i items => .flush i (items.filter (fun e => e.1 != (idx, frame)))
      | p => p) }

/-- Steps 1 and 2 of a spill (R135): the writes are made; a fault or an uncorrectable error cancels the spill (R140). -/
def Device.spillStart (d : Device) (u idx : Nat) (frame : Bool) : Device :=
  let w := Device.wave d u
  let (d, f) := Device.cassWrites d (Device.agentOf d w) (Device.asidOf d w) (Wave.spillWrites w idx frame) none
  match f with
  | some (a, _) => Device.setWave d u (Wave.windowFault w a)
  | none => Device.setWave d u (Wave.dropFlushed (Wave.itemSt w idx frame .spilling) idx frame)

/-- Is an item visible. -/
def Wave.itemVisible (w : Wave) (idx : Nat) (frame : Bool) : Bool :=
  if frame then Wave.frameVisible w idx else Wave.posVisible w idx

/-- Marks an item spilled: its registers are freed, its contents stand in memory. The values they held are kept as those that R141 lets a refill give back beside what memory holds. -/
def Wave.nowSpilled (w : Wave) (idx : Nat) (frame : Bool) : Wave := Wave.itemSt w idx frame .spilled

/-- Step 3 of a spill (R135): the item is spilled, or stays resident when it is visible; whether a chain still wants room shows when the wave is next examined. -/
def Device.spillEnd (d : Device) (u idx : Nat) (frame : Bool) : Device :=
  let w := Device.wave d u
  let look (w : Wave) : Wave := { w with stalls := w.stalls.filter (fun x => x != .room) }
  if Wave.itemSt? w idx frame != some .spilling then d
  else if Wave.itemVisible w idx frame then Device.setWave d u (look (Wave.itemSt w idx frame .resident))
  else Device.setWave d u (look (Wave.nowSpilled w idx frame))

/-- SPILL_COMPLETE (R135). -/
def execEvSpillComplete (wave idx : Nat) (frame : Bool) (s : State) : Res :=
  if Tbl.has s.dev.waves wave then
    .next { s with dev := Device.noteAhead (Device.spillEnd s.dev wave idx frame) (Device.wave s.dev wave).core }
  else .next s

/-- Reads 8 bytes of the spill area, with the address of a fault (R136, R140). -/
def Device.cassRead8 (d : Device) (w : Wave) (off : Nat) : Except DWord DWord :=
  let a := Wave.spillAt w off
  match Device.vread d (coreAgent w.core) (Device.asidOf d w) .r a 8 with
  | .ok bs => .ok (BitVec.ofNat 64 (ofLeBytes bs))
  | .error _ => .error a

/-- Does a refill give back what a lane's part of a hidden register held, where memory holds something else (R141 leaves it open): part 0 is the live or entry bit, 1 the poison bit, 2 the element or entry. -/
def Device.oldPart (d : Device) (part l : Nat) : Bool := (Config.freeByte (d.freeCtr + l)).getLsbD part

/-- The mask that a refill gives back: memory's, and where that differs from the hidden register's either bit (R141). -/
def Device.refillMask (d : Device) (part : Nat) (was now : Mask) : Mask :=
  maskOf (fun l => if was.getLsbD l != now.getLsbD l && Device.oldPart d part l then was.getLsbD l else now.getLsbD l)

/-- What a position held when it was hidden (R141). -/
def Wave.hiddenReg (w : Wave) (p : Nat) : VReg :=
  match Tbl.get? w.win p with
  | some x => x.reg
  | none => VReg.blank

/-- What a frame held when it was hidden (R141). -/
def Wave.hiddenFrame (w : Wave) (f : Nat) : Frame := (Tbl.get? w.frames f).getD ⟨.spilled, true, 0, []⟩

/-- The element that a refill gives back to a lane: memory's, or the hidden register's when the lane was live there and the two differ (R141). -/
def Device.refillElem (d : Device) (was : VReg) (l : Nat) (now : Word) : Word :=
  let v := was.vals.getD l 0
  if was.live.getLsbD l && v != now && Device.oldPart d 2 l then v else now

/-- Reads back the elements of a position (R136, R141): an uncorrectable error on the data poisons the element; a translation fault is a refill fault. -/
def Device.cassElems (d : Device) (w : Wave) (p : Nat) (pois : Mask) : List Nat → Except DWord (Tbl Elem)
  | [] => .ok []
  | l :: r =>
    let a := Wave.spillAt w (256 * p + 4 * l)
    let ag := coreAgent w.core
    let e : Except DWord Elem :=
      match Device.translate d ag.unit (Device.asidOf d w) .r a 4 with
      | .error _ => .error a
      | .ok t =>
        if Device.memBad d (replicaPa t ag.die) 4 then .ok ⟨0, true⟩
        else .ok ⟨Device.refillElem d (Wave.hiddenReg w p) l (BitVec.ofNat 32 (ofLeBytes (Device.readBytes d ag t 0 4))), pois.getLsbD l⟩
    match e, Device.cassElems d w p pois r with
    | .error a, _ => .error a
    | .ok _, .error a => .error a
    | .ok e, .ok es => .ok ((l, e) :: es)

/-- The entry that a refill gives back to a lane (R141). -/
def Device.refillEntry (d : Device) (was : Frame) (l : Nat) (now : DWord) : DWord :=
  let v := was.entries.getD l 0
  if was.mask.getLsbD l && v != now && Device.oldPart d 2 l then v else now

/-- Reads back frame entries (R136, R141). -/
def Device.cassEntries (d : Device) (w : Wave) (f : Nat) : List Nat → Except DWord (Tbl DWord)
  | [] => .ok []
  | l :: r =>
    match Device.cassRead8 d w (0x2000000 + 512 * f + 8 * l), Device.cassEntries d w f r with
    | .ok e, .ok es => .ok ((l, Device.refillEntry d (Wave.hiddenFrame w f) l e) :: es)
    | .error a, _ => .error a
    | .ok _, .error a => .error a

/-- Do all entries of a list hold one value. -/
def allSame {α : Type} [DecidableEq α] : List α → Bool
  | [] => true
  | a :: r => r.all (fun b => decide (a = b))

/-- What a refill reads of a position (R136, R141); a hidden register without a live element has nothing to give back. -/
def Device.refillPos (d : Device) (w : Wave) (p : Nat) : Except DWord VReg :=
  match Device.cassRead8 d w (0x1000000 + 8 * p), Device.cassRead8 d w (0x1080000 + 8 * p) with
  | .error a, _ => .error a
  | .ok _, .error a => .error a
  | .ok live, .ok pois =>
    let was := Wave.hiddenReg w p
    let L := (if was.live == 0 then live else Device.refillMask d 0 was.live live) &&& ~~~w.exited
    let P := if was.live == 0 then pois else Device.refillMask d 1 was.pois pois
    match Device.cassElems d w p P (lanesOf L) with
    | .error a => .error a
    | .ok es =>
      .ok { live := L
            pois := maskOf (fun l => (Tbl.getD es l ⟨0, false⟩).p)
            unif := false
            vals := mkLanes (fun l => (Tbl.getD es l ⟨0, false⟩).v) }

/-- What a refill reads of a frame (R136, R141). -/
def Device.refillFrame (d : Device) (w : Wave) (f : Nat) : Except DWord Frame :=
  match Device.cassRead8 d w (0x1100000 + 8 * f) with
  | .error a => .error a
  | .ok mask =>
    let was := Wave.hiddenFrame w f
    let L := (if was.mask == 0 then mask else Device.refillMask d 0 was.mask mask) &&& ~~~w.exited
    match Device.cassEntries d w f (lanesOf L) with
    | .error a => .error a
    | .ok es => .ok ⟨.refilling, false, L, mkLanes (fun l => Tbl.getD es l 0)⟩

/-- A refill fault (R140): the item stays spilled and the window fault is pending. -/
def Wave.refillFault (w : Wave) (idx : Nat) (frame : Bool) (a : DWord) : Wave :=
  { w with noRefill := w.noRefill ++ [(idx, frame)], ptraps := w.ptraps ++ [⟨.refill frame idx, 0x0A, 0, false, 0, 0, 0, 0, a⟩] }

/-- Starts the refill of a spilled item (R136): its masks and elements are read, as they stand when it becomes visible (R141, whose choices are drawn), or the fault is pending (R140). What a program has stored into the slots of an item that is visible and still spilled, after a refill fault or while its workgroup is saved, is taken as R141 has a store of a hidden period taken (DESIGN CHOICE 71). -/
def Device.refillStart (d : Device) (u idx : Nat) (frame : Bool) : Device :=
  let w := Device.wave d u
  let drawn : Device := { d with freeCtr := d.freeCtr + 64 }
  if frame then
    match Device.refillFrame d w idx with
    | .error a => Device.setWave d u (Wave.refillFault w idx frame a)
    | .ok x => Device.setWave drawn u { w with frames := Tbl.put w.frames idx x }
  else
    match Device.refillPos d w idx with
    | .error a => Device.setWave d u (Wave.refillFault w idx frame a)
    | .ok r => Device.setWave drawn u { w with win := Tbl.put w.win idx ⟨.refilling, r, (Tbl.getD w.win idx ⟨.spilled, r, 0⟩).cut⟩ }

/-- A position as a refill that has read it leaves it (R136): lanes that have exited since, or whose element has died, are dead; uniform where every live lane holds one value and one poison bit; none with no live lane. -/
def Wave.refilledPos (w : Wave) (x : Slot) : Option VReg :=
  let L := x.reg.live &&& ~~~w.exited &&& ~~~x.cut
  if L == 0 then none
  else some { x.reg with live := L, pois := x.reg.pois &&& L,
                         unif := allSame ((lanesOf L).map (fun l => (x.reg.vals.getD l 0, x.reg.pois.getLsbD l))) }

/-- A frame as a refill that has read it leaves it (R136). -/
def Wave.refilledFrame (w : Wave) (x : Frame) : Option Frame :=
  let L := x.mask &&& ~~~w.exited
  if L == 0 then none
  else some { x with st := .resident, mask := L, unif := allSame ((lanesOf L).map (fun l => x.entries.getD l 0)) }

/-- Would the charge of an item that is refilling exceed QUOTA (R137). -/
def Wave.refillOver (w : Wave) (idx : Nat) (frame : Bool) : Bool :=
  let tooBig (unif : Bool) : Bool := Wave.heldUnits w + refillUnits frame unif > w.quota
  Wave.itemSt? w idx frame == some .refilling
  && (if frame then (match (Tbl.get? w.frames idx).bind (Wave.refilledFrame w) with
        | some x => tooBig x.unif
        | none => false)
      else (match (Tbl.get? w.win idx).bind (Wave.refilledPos w) with
        | some r => tooBig r.unif
        | none => false))

/-- The positions and frames of a wave that are in a state: (index, is it a frame). -/
def Wave.itemsIn (w : Wave) (st : SlotSt) : List (Nat × Bool) :=
  (w.win.filter (fun e => e.2.st == st)).map (fun e => (e.1, false)) ++ (w.frames.filter (fun e => e.2.st == st)).map (fun e => (e.1, true))

/-- Does a refill of the wave wait for room (R137). -/
def Wave.refillWaits (w : Wave) : Bool := (Wave.itemsIn w .refilling).any (fun e => Wave.refillOver w e.1 e.2)

/-- Does one item stand before another in the order of refills (R136): those that a held key waits for first, then by index, a position before a frame. -/
def Wave.refillBefore (w : Wave) (a b : Nat × Bool) : Bool :=
  let held (e : Nat × Bool) : Bool := w.stalls.contains (.refill e.1 e.2) || (e.2 && w.stalls.contains (.frame e.1))
  if held a != held b then held a else a.1 < b.1 || (a.1 == b.1 && !a.2 && b.2)

/-- Is a spilled item to be refilled (R136): it is visible, or an operation under way writes it (R125); after a refill fault it waits for `rte` (R140). -/
def Wave.refillDue (w : Wave) (e : Nat × Bool) : Bool :=
  (Wave.itemVisible w e.1 e.2 || (!e.2 && Wave.writing w (.pos e.1))) && !w.noRefill.contains e

/-- Puts an item among others in the order of refills. -/
def Wave.refillIns (w : Wave) (e : Nat × Bool) : List (Nat × Bool) → List (Nat × Bool)
  | [] => [e]
  | x :: t => if Wave.refillBefore w e x then e :: x :: t else x :: Wave.refillIns w e t

/-- The spilled items of a wave that are to be refilled, in the order of R136. -/
def Wave.refillsDue (w : Wave) : List (Nat × Bool) :=
  ((Wave.itemsIn w .spilled).filter (fun e => Wave.refillDue w e)).foldr (Wave.refillIns w) []

/-- Starts every refill of a wave that is due, and abandons the spills of items that are visible (R135, R136). -/
def Device.cassLook (d : Device) (u : Nat) : Device :=
  let w := Device.wave d u
  let d := ((Wave.itemsIn w .spilling).filter (fun e => Wave.itemVisible w e.1 e.2)).foldl (fun d e => Device.spillEnd d u e.1 e.2) d
  (Wave.refillsDue w).foldl (fun d e => Device.refillStart d u e.1 e.2) d

/-- REFILL (R136): the spilled item that is due first starts to be read back. -/
def execEvRefill (wave idx : Nat) (frame : Bool) (s : State) : Res :=
  match Tbl.get? s.dev.waves wave with
  | none => .next s
  | some w =>
    let due := (Wave.itemsIn w .spilled).filter (fun e => Wave.refillDue w e)
    if due.contains (idx, frame) && !due.any (fun e => Wave.refillBefore w e (idx, frame)) then
      .next { s with dev := Device.refillStart s.dev wave idx frame }
    else .next s

/-- Does a wave ask for room (R134, R137): a chain of it is held for room, or a refill waits for room. -/
def Wave.wantsRoom (w : Wave) : Bool := w.stalls.contains .room || Wave.refillWaits w

/-- The waves resident on a core. -/
def Device.residents (d : Device) (core : Nat) : List (Nat × Wave) := d.waves.filter (fun e => e.2.core == core && !e.2.ended)

/-- Is a request for room on a core still to be served (R134). -/
def Device.roomFirst (d : Device) (core : Nat) : Bool :=
  (Device.residents d core).any (fun e => Wave.wantsRoom e.2 && !e.2.noSpill && (Wave.nextCand e.2).isSome && !Wave.spillGoing e.2)

/-- Whose turn it is when the Cassette spills ahead of time (R134): of the waves that have a candidate, the next in resident-slot order. -/
def Device.aheadTurn (d : Device) (core : Nat) : Option Nat :=
  let at_ := (Device.core d core).aheadAt
  let rank (w : Wave) : Nat := (w.rslot + 64 - at_ % 64) % 64
  (((Device.residents d core).filter (fun e => !e.2.noSpill && (Wave.nextCand e.2).isSome)).foldl (fun m e => match m with
    | none => some e
    | some x => if rank e.2 < rank x.2 then some e else some x) none).map (fun e => e.1)

/-- SPILL (R134, R135): the Cassette starts to spill the wave's first candidate: for room, one at a time; ahead of time, one of each wave in turn, while no wave of the core asks for room. -/
def execEvSpill (wave idx : Nat) (frame : Bool) (s : State) : Res :=
  match Tbl.get? s.dev.waves wave with
  | none => .next s
  | some w =>
    let d := Device.noteAhead s.dev w.core
    if w.noSpill || Wave.nextCand w != some (idx, frame) then .next s
    else if Wave.wantsRoom w && !Wave.spillGoing w then .next { s with dev := Device.spillStart d wave idx frame }
    else if (Device.core d w.core).ahead && !Device.roomFirst d w.core && Device.aheadTurn d w.core == some wave then
      .next { s with dev := Device.spillStart (Device.setCore d w.core { Device.core d w.core with aheadAt := (w.rslot + 1) % 64 }) wave idx frame }
    else .next s

/-- A wave with an item whose refill has ended: resident, or gone where no live lane is left (R136). -/
def Wave.refilled (w : Wave) (idx : Nat) (frame : Bool) : Wave :=
  if frame then
    match (Tbl.get? w.frames idx).bind (Wave.refilledFrame w) with
    | none => { w with frames := Tbl.del w.frames idx }
    | some x => { w with frames := Tbl.put w.frames idx x }
  else
    match (Tbl.get? w.win idx).bind (Wave.refilledPos w) with
    | none => { w with win := Tbl.del w.win idx }
    | some r => { w with win := Tbl.put w.win idx ⟨.resident, r, 0⟩ }

/-- Ends a refill: the item is resident and charged, or it waits while its charge does not fit (R137). -/
def Device.refillEnd (d : Device) (u idx : Nat) (frame : Bool) : Device :=
  let w := Device.wave d u
  if Wave.refillOver w idx frame then d else Device.setWave d u (Wave.refilled w idx frame)

/-- REFILL_COMPLETE (R136, R137): of the items being refilled that do not wait for room, the first in order. -/
def execEvRefillComplete (wave idx : Nat) (frame : Bool) (s : State) : Res :=
  match Tbl.get? s.dev.waves wave with
  | none => .next s
  | some w =>
    let open_ := (Wave.itemsIn w .refilling).filter (fun e => !Wave.refillOver w e.1 e.2)
    if open_.contains (idx, frame) && !open_.any (fun e => Wave.refillBefore w e (idx, frame)) then
      .next { s with dev := Device.noteAhead (Device.refillEnd s.dev wave idx frame) w.core }
    else .next s

/-- Ends the spills of a wave that are under way (R135). -/
def Device.endSpills (d : Device) (u : Nat) : Device :=
  let w := Device.wave d u
  let d := (w.win.filter (fun e => e.2.st == .spilling)).foldl (fun d e => Device.spillEnd d u e.1 false) d
  (w.frames.filter (fun e => e.2.st == .spilling)).foldl (fun d e => Device.spillEnd d u e.1 true) d

/-- Spills candidates of a wave at once until n more units fit or none is left (R104, R437), at most k of them: whether they fit. -/
def Device.makeRoom (d : Device) (u n : Nat) : Nat → Device × Bool
  | 0 => (d, Wave.heldUnits (Device.wave d u) + n ≤ (Device.wave d u).quota)
  | k + 1 =>
    let w := Device.wave d u
    if Wave.heldUnits w + n ≤ w.quota then (d, true)
    else if w.noSpill then (d, false)
    else match Wave.nextCand w with
      | none =>
        let d := Device.endSpills d u
        (d, Wave.heldUnits (Device.wave d u) + n ≤ w.quota)
      | some (i, fr) => Device.makeRoom (Device.spillEnd (Device.spillStart d u i fr) u i fr) u n k

end Sys2Proof.Machine
end

