-- ==== Sys2Proof/Machine/System.lean ====
section
/-! DEFINITION. Special registers (R106, R111 to R113, R139, R144, R155, R278, R279, R428), cache and translation maintenance (R438, R439), traps, `rte` and the replay queue (R426, R434 to R437), the watchdog (R88). -/

namespace Sys2Proof.Machine

/-- The pair that serves a core (R271, R273): cores 2p and 2p + 1 of a cluster. -/
def pairOf (core : Nat) : Nat := core / 8 * 4 + core % 8 / 2

/-- The gang that owns a pair (R17): it occupies both cores. The model takes the first in the gang table, and its placement never gives two gangs one pair (DESIGN CHOICE 65). -/
def Device.pairOwner (d : Device) (p : Nat) : Option Nat :=
  let c := p / 4 * 8 + p % 4 * 2
  (d.gangs.find? (fun e => e.2.st != .saved && e.2.low ≤ c && c + 1 < e.2.low + e.2.size)).map (fun e => e.1)

/-- A legal value of FMT (R278). -/
def fmtOk (v : Word) : Bool :=
  let n := v.toNat
  let aty := bitsOf n 3 0
  let bty := bitsOf n 7 4
  let acc := bitOf n 11
  let mx := bitOf n 12
  let both (p : Nat → Bool) : Bool := p aty && p bty
  bitsOf n 10 8 == 0 && bitsOf n 15 13 ≤ 5
  && ((both (fun t => t == 1 || t == 2) && !acc && !mx) || (both (fun t => t == 3 || t == 4) && !acc)
    || (both (fun t => t == 5) && !acc && mx) || (both (fun t => t == 10 || t == 11) && acc && !mx))

/-- A legal value of SHAPE (R279). -/
def shapeOk (v : Word) : Bool := bitsOf v.toNat 3 0 != 0 && bitsOf v.toNat 5 4 != 0 && v.toNat < 64

/-- The value of a special register for a wave (R111); WB is the issuing subset's. -/
def State.special (s : State) (n : Nat) : Word :=
  let w := State.src s
  let wg := Device.wg s.pre w.wg
  let g := Device.gang s.pre wg.gang
  match n with
  | 0x00 => BitVec.ofNat 32 w.wid
  | 0x01 => BitVec.ofNat 32 g.gx
  | 0x02 => BitVec.ofNat 32 g.gy
  | 0x03 => BitVec.ofNat 32 g.gz
  | 0x04 => BitVec.ofNat 32 (wg.index % 8 + 16 * g.size)
  | 0x05 => BitVec.ofNat 32 w.core
  | 0x06 => lo32 (Device.core s.pre w.core).cyc
  | 0x07 => w.cycLatch
  | 0x08 => (Device.launch s.pre g.launch).lnch
  | 0x10 => BitVec.ofNat 32 s.ctx.wb
  | 0x11 => BitVec.ofNat 32 w.wlim
  | 0x12 => lo32 w.wsp
  | 0x13 => hi32 w.wsp
  | 0x14 => BitVec.ofNat 32 w.quota
  | 0x15 => BitVec.ofNat 32 (Wave.heldUnits w)
  | 0x16 => w.wdog
  | 0x17 => w.fpm
  | 0x20 => w.fmt
  | 0x21 => BitVec.ofNat 32 w.shape.toNat
  | 0x22 => BitVec.ofNat 32 (Cluster.cad (Device.cluster s.pre (w.core / 8)))
  | 0x23 => if (Device.pairOwner s.pre (pairOf w.core)).isSome then (Device.pair s.pre (pairOf w.core)).org else 0
  | 0x24 => w.tokw
  | 0x30 => BitVec.ofNat 32 w.trc.toNat
  | 0x31 => lo32 w.trlm
  | 0x32 => hi32 w.trlm
  | 0x33 => lo32 w.tram
  | 0x34 => hi32 w.tram
  | 0x35 => lo32 w.trpc
  | 0x36 => hi32 w.trpc
  | 0x37 => BitVec.ofNat 32 w.trwb
  | 0x38 => lo32 w.trpa
  | 0x39 => hi32 w.trpa
  | 0x3A => BitVec.ofNat 32 w.trqn
  | 0x3B => lo32 w.tbas
  | 0x3C => hi32 w.tbas
  | 0x3D => lo32 w.tfrm
  | 0x3E => hi32 w.tfrm
  | 0x41 => lo32 (Device.die s.pre (w.core / 64)).pel.step
  | 0x42 => w.stepLatch
  | _ => 0

/-- A privileged register (R111). -/
def isPriv (n : Nat) : Bool := 0x3B ≤ n && n ≤ 0x3E

/-- MFS (R155, R112, R113): a read of the low half of CYC or STEP latches the high half. -/
def execMfs (o : SXFs) (s : State) : Res :=
  let n := o.r.toNat
  let w := State.src s
  if isPriv n && !w.handler then .next (State.trap s 0x07 s.ctx.lanes 0)
  else
    let s' := State.setSc s o.s.toNat ⟨State.special s n, false⟩
    if n == 0x06 then .next (State.mapWave s' (fun x => { x with cycLatch := hi32 (Device.core s.pre w.core).cyc }))
    else if n == 0x41 then .next (State.mapWave s' (fun x => { x with stepLatch := hi32 (Device.die s.pre (w.core / 64)).pel.step }))
    else .next s'

/-- Is some position or frame of a wave spilled or refilling (R139). -/
def Wave.anyOut (w : Wave) : Bool :=
  w.win.any (fun e => e.2.st == .spilled || e.2.st == .refilling) || w.frames.any (fun e => e.2.st == .spilled || e.2.st == .refilling)

/-- Do TBAS and TFRM together keep the rules of R428. -/
def tbasOk (tbas tfrm : DWord) : Bool :=
  tbas == 0 || (tbas.toNat % 96 == 0 && tfrm != 0 && tfrm.toNat % 16384 == 0)

/-- Sets WSP (R139); the spills under way are abandoned, so that no item comes to stand at a base that is no longer the wave's (DESIGN CHOICE 74: R139 lets the write be, R134 keeps every value). -/
def Wave.setWsp (w : Wave) (v : DWord) : Wave := Wave.keepSpilling { w with wsp := v }

/-- A write of a special register that R111 lists as written, under the register's own limits (R67, R88, R106, R139, R144, R278, R279, R428): none for illegal operand. `held` is HELD as the limit of QUOTA reads it. -/
def Wave.writeSpecial (w : Wave) (held n : Nat) (v : Word) : Option Wave :=
  match n with
  | 0x11 =>
    let x := v.toNat % 65536
    if w.handler || x < 48 || x > 65488 || (lanesOf (~~~w.exited)).any (fun l => x < w.wbs.getD l 0 + 48) then none
    else some { w with wlim := x }
  | 0x12 =>
    if v.toNat % 65536 != 0 || Wave.anyOut w || w.pend.any Pend.isFlush then none else some (Wave.setWsp w (pair64 v (hi32 w.wsp)))
  | 0x13 => if Wave.anyOut w || w.pend.any Pend.isFlush then none else some (Wave.setWsp w (pair64 (lo32 w.wsp) v))
  | 0x14 =>
    let x := v.toNat % 65536
    if x < max 16 held || x > w.quota then none else some { w with quota := x }
  | 0x16 => some { w with wdog := v }
  | 0x17 => if bitsOf v.toNat 2 0 ≥ 6 then none else some { w with fpm := v &&& 0xFFFF001F }
  | 0x20 => if fmtOk v then some { w with fmt := v } else none
  | 0x21 => if shapeOk v then some { w with shape := BitVec.ofNat 6 v.toNat } else none
  | 0x3B => some { w with tbasLo := some v }
  | 0x3C =>
    let x := pair64 (w.tbasLo.getD (lo32 w.tbas)) v
    if tbasOk x w.tfrm then some { w with tbas := x, tbasLo := none } else none
  | 0x3D => some { w with tfrmLo := some v }
  | 0x3E =>
    let x := pair64 (w.tfrmLo.getD (lo32 w.tfrm)) v
    if tbasOk w.tbas x then some { w with tfrm := x, tfrmLo := none } else none
  | _ => none

/-- MTS (R155): access rights, poison of the source, limits of the value, in that order. QUOTA is judged on HELD as the turn began, before what the turn's words charge or free (DESIGN CHOICE 58: R23 has words read old values, R106 does not say which HELD). A register that is only read makes the word trap as check 2 of R155 does, after decode faults and lower slots' traps (DEDUCED 62: R28 lists forbidden register uses, R155 gives the check its own place). -/
def execMts (o : SXTs) (s : State) : Res :=
  let n := o.r.toNat
  let w := State.src s
  let v := State.sc s o.s.toNat
  let L := s.ctx.lanes
  if !specialRW o.r then .next (State.trap s 0x03 L 0)
  else if isPriv n && !w.handler then .next (State.trap s 0x07 L 0)
  else if v.p then .next (State.trap s 0x05 L 0)
  else match Wave.writeSpecial (State.cur s) (Wave.heldUnits w) n v.v with
    | some w => .next { s with dev := Device.setWave s.dev s.ctx.wave w }
    | none => .next (State.trap s 0x03 L 0)

/-- The range words' operands (R438): start, length; a trap, or nothing for a length of 0. -/
def State.rangeWord (s : State) (n : Nat) (k : DWord → Nat → State) : State :=
  let a := State.sc64 s n
  let len := (State.sc s (n + 2)).v.toNat
  let last := a + BitVec.ofNat 64 (len - 1)
  if State.scPois s n 3 then State.trap s 0x05 s.ctx.lanes 0
  else if len == 0 then s
  else if !canonical a then State.trap s 0x07 s.ctx.lanes a
  else if !canonical last then State.trap s 0x07 s.ctx.lanes last
  else k a len

/-- The physical bytes of a virtual range, page by page of 64 KiB; pages that do not translate are skipped (R438). -/
def Device.rangeFoot (d : Device) (unit asid : Nat) (a len : Nat) : Nat → List (Nat × Nat)
  | 0 => []
  | k + 1 =>
    let n := min len (65536 - a % 65536)
    let here := match Device.leaf d unit asid (a % 2 ^ 64) with
      | .ok (pte, bits) => [(Device.normPa d (pbits pte 51 8 * 256 + a % 2 ^ bits), n)]
      | .error _ => []
    if len ≤ n then here else here ++ Device.rangeFoot d unit asid (a + n) (len - n) k

/-- The footprint of a range for the current wave. -/
def State.foot (s : State) (a : DWord) (len : Nat) : List (Nat × Nat) :=
  Device.rangeFoot s.dev (State.src s).core (Device.asidOf s.dev (State.src s)) a.toNat len (len / 65536 + 2)

/-- Does an instruction-cache line hold bytes of a footprint; a line whose page no longer translates is taken to (R438). -/
def Device.lineIn (d : Device) (core : Nat) (foot : List (Nat × Nat)) (key : Nat) : Bool :=
  (List.range 24).any (fun i =>
    let a := key % 2 ^ 60 * 96 + 4 * i
    match Device.leaf d core (key / 2 ^ 60) (a % 2 ^ 64) with
    | .ok (pte, bits) =>
      let pa := Device.normPa d (pbits pte 51 8 * 256 + a % 2 ^ bits)
      foot.any (fun e => e.1 < pa + 4 && pa < e.1 + e.2)
    | .error _ => true)

/-- CINV_I (R438): invalidates the core's instruction-cache lines that hold bytes of the range. -/
def execCinvI (o : E1) (s : State) : Res :=
  .next (State.rangeWord s o.s.toNat (fun a len =>
    let k := (State.src s).core
    let c := Device.core s.dev k
    let f := State.foot s a len
    { s with dev := Device.setCore s.dev k { c with icache := c.icache.filter (fun e => !Device.lineIn s.dev k f e.1) } }))

/-- A class 1 word over a range (R438), on the lines that hold bytes of it. -/
def State.rangeOp (s : State) (n : Nat) (f : Device → Nat → (Nat → Bool) → Device) : State :=
  State.rangeWord s n (fun a len =>
    if State.classFull s 1 then State.hold s .long
    else
      let foot := State.foot s a len
      State.doneOp { s with dev := f s.dev (State.clOf s) (linesOfFoot foot) } 1)

/-- CINV_D (R438): writes the cluster L1's dirty lines of the range back and invalidates them. -/
def execCinvD (o : E1) (s : State) : Res :=
  .next (State.rangeOp s o.s.toNat Device.l1Clear)

/-- CWB_L1 (R438). -/
def execCwbL1 (o : E1) (s : State) : Res := .next (State.rangeOp s o.s.toNat Device.l1WriteBack)

/-- CWB_L2 (R438): as `cwb.l1`, then the home L2's lines of the range go to HBM. -/
def execCwbL2 (o : E1) (s : State) : Res :=
  .next (State.rangeOp s o.s.toNat (fun d cl f => Device.l2WriteBack (Device.l1WriteBack d cl f) (fun pa => f (pa / 128))))

/-- Every store that stands in a cluster L1 only is performed (R246). -/
def Device.l1AllBack (d : Device) : Device := (d.clusters.map (fun e => e.1)).foldl (fun d cl => Device.l1WriteBack d cl everyLine) d

/-- The smaller leaves of a splinter (R204): n entries that copy the leaf, with rising frames. -/
def splinterLeaves (pte n size : Nat) : List Byte :=
  (List.range n).flatMap (fun i => leBytes 8 (pte + i * size))

/-- Steps 3 and 4 (R204): the smaller entries are written and the table entry replaces the leaf; a leaf that software has written meanwhile keeps what it holds. The device after it, and SPLST. -/
def Device.splintEnd (d : Device) (big : Bool) : Splint → Device × Nat
  | .fails c => (d, c)
  | .work a pte block =>
    let d := Device.memWrite d block (if big then splinterLeaves pte 512 (2 ^ 21) else splinterLeaves pte 32 (2 ^ 16))
    (if Device.read8 d a == some pte then Device.memWrite d a (leBytes 8 (3 + block)) else d, 2)

/-- The splinter unit of a die finishes its steps 3 and 4; SPLST leaves busy (R204). -/
def Device.splinterDone (d : Device) (die : Nat) : Device :=
  let x := Device.die d die
  match x.splint with
  | none => d
  | some w =>
    let (d, st) := Device.splintEnd d (bitOf x.splcmd.toNat 16) w
    Device.setDie d die { Device.die d die with splst := st, splint := none }

/-- What was translated with an entry that an unmap has changed is performed (R246): the stores that stand in cluster L1s only, the splinters under way. -/
def Device.oldDone (d : Device) : Device := [0, 1, 2, 3].foldl Device.splinterDone (Device.l1AllBack d)

/-- Drops every cached translation that a test names (R439), behind the fences that wait in the core; what was translated with them is performed by then (R246, R247). -/
def State.tlbOp (s : State) (sel : TlbEntry → Bool) : State :=
  if State.classFull s 1 then State.hold s .long
  else if fencesHold true (State.cur s).pend then State.hold s .short
  else
    let d := Device.oldDone s.dev
    State.doneOp { s with dev := { d with tlbs := d.tlbs.filter (fun e => !sel e.2) } } 1

/-- Does a cached translation cover an address of a range. -/
def TlbEntry.covers (e : TlbEntry) (asid a n : Nat) : Bool :=
  e.asid == asid && e.va * 2 ^ e.bits < a + n && a < (e.va + 1) * 2 ^ e.bits

/-- The address space of the current wave. -/
def State.asid (s : State) : Nat := Device.asidOf s.pre (State.src s)

/-- TLBINV_PAGE (R439). -/
def execTlbinvPage (o : E1) (s : State) : Res :=
  let a := State.sc64 s o.s.toNat
  if State.scPois s o.s.toNat 2 then .next (State.trap s 0x05 s.ctx.lanes 0)
  else if !canonical a then .next (State.trap s 0x07 s.ctx.lanes a)
  else .next (State.tlbOp s (fun e => TlbEntry.covers e (State.asid s) a.toNat 1))

/-- TLBINV_RANGE (R439). -/
def execTlbinvRange (o : E1) (s : State) : Res :=
  let a := State.sc64 s o.s.toNat
  let n := (State.sc s (o.s.toNat + 2)).v.toNat
  if State.scPois s o.s.toNat 3 then .next (State.trap s 0x05 s.ctx.lanes 0)
  else if !canonical a then .next (State.trap s 0x07 s.ctx.lanes a)
  else .next (State.tlbOp s (fun e => n != 0 && TlbEntry.covers e (State.asid s) (a.toNat / 65536 * 65536) (65536 * n)))

/-- TLBINV_ASID (R439). -/
def execTlbinvAsid (_ : C0) (s : State) : Res := .next (State.tlbOp s (fun e => e.asid == State.asid s))

/-- TLBINV_ALL (R439): handler mode only. -/
def execTlbinvAll (_ : C0) (s : State) : Res :=
  if (State.src s).handler then .next (State.tlbOp s (fun _ => true)) else .next (State.trap s 0x07 s.ctx.lanes 0)

/-- The exception that `brk` or `trap` takes at the boundary (R435). -/
def State.softTrap (s : State) (code : BitVec 8) (n : BitVec 8) : State :=
  let L := s.ctx.lanes
  let s := State.mapWave s (fun w => Wave.setPcs w L (fun _ => s.ctx.nextPc))
  { s with dev := Device.trapEntry s.dev s.ctx.wave code L L s.ctx.nextPc s.ctx.wb 0 n, ctx := { s.ctx with status := .trapped } }

/-- BRK n (R435). -/
def execBrk (o : SXN) (s : State) : Res := .next (State.softTrap s 0x10 o.n)

/-- TRAP n (R435). -/
def execTrapW (o : SXN) (s : State) : Res := .next (State.softTrap s 0x11 o.n)

/-- TRAP_ENTRY (R429): the current wave takes a trap that the current chain raises at issue. -/
def execEvTrapEntry (code : BitVec 8) (trlm trpa : BitVec 64) (num : BitVec 8) (s : State) : Res :=
  if Tbl.has s.base.waves s.ctx.wave then
    .next { s with dev := Device.trapEntry s.base s.ctx.wave code trlm s.ctx.lanes s.ctx.chainPc s.ctx.wb trpa num
                   ctx := { s.ctx with status := .trapped } }
  else .next s

/-- The watchdog for a chain of w non-LIT words (R88): judged on the budget that the earlier pick of the turn left; a chain that the handler issues is not counted, one beside an `rte` too. -/
def State.watchdog (s : State) (w : Nat) : State :=
  let x := Device.wave s.base s.ctx.wave
  if (State.src s).handler || x.wdog == 0 then s
  else if w ≥ x.wdog.toNat then State.trap s 0x0C s.ctx.lanes 0
  else State.mapWave s (fun y => { y with wdog := x.wdog - BitVec.ofNat 32 w })

/-- WATCHDOG (R88). -/
def execEvWatchdog (words : Nat) (s : State) : Res :=
  if Tbl.has s.base.waves s.ctx.wave then .next (State.watchdog s words) else .next s

/-- A lane loses state that carries no poison (R426): its PC, WB, EXITED, HELPER or WAITING bit, or the return-stack entry of its base. Which, and what is left there, is open: free values (DESIGN CHOICE 21). -/
def Wave.loseLane (w : Wave) (l : Nat) (which v : Nat) : Wave :=
  let bit : Mask := 1#64 <<< l
  let flip (m : Mask) : Mask := if bitOf v 0 then m ||| bit else m &&& ~~~bit
  match which % 6 with
  | 0 => Wave.setPcs w bit (fun _ => BitVec.ofNat 64 v)
  | 1 => Wave.setWbs w bit (fun _ => v % 65536)
  | 2 => { w with exited := flip w.exited }
  | 3 => { w with helper := flip w.helper }
  | 4 => { w with waiting := flip w.waiting }
  | _ =>
    match Tbl.get? w.frames (w.wbs.getD l 0) with
    | some x => { w with frames := Tbl.put w.frames (w.wbs.getD l 0) { x with entries := putAt x.entries l (BitVec.ofNat 64 v) 0 } }
    | none => w

/-- SOFT_ERROR (R426): poisons an element, or leaves 0x0F pending for lane state that carries no poison. A uniform register, with one poison bit for all its lanes, becomes full: the model poisons the one lane and charges the 15 units more without a check for room (DESIGN CHOICE 75). -/
def execEvSoftError (wave : Nat) (target : SoftTarget) (s : State) : Res :=
  match Tbl.get? s.dev.waves wave with
  | none => .next s
  | some w =>
    let bit (l : Nat) : Mask := 1#64 <<< l
    let hit (id : RegId) (l : Nat) : Wave :=
      match Wave.reg? w id with
      | some r => Wave.setReg w id { r with pois := r.pois ||| (bit l &&& r.live), unif := r.unif && (r.live &&& bit l) == 0 }
      | none => w
    let n := s.dev.freeCtr
    match target with
    | .vec n l => .next { s with dev := Device.setWave s.dev wave (if n < 16 then hit (.fixed n) l else w) }
    | .pos p l => .next { s with dev := Device.setWave s.dev wave (hit (.pos p) l) }
    | .scal n => .next { s with dev := Device.setWave s.dev wave (if n < 256 then Wave.setSc w n { Wave.sc w n with p := true } else w) }
    | .pred k l => .next { s with dev := Device.setWave s.dev wave (if k == 0 then w else Wave.setPred w k (bit l) (Wave.pred w k).v (bit l)) }
    | .flag q => .next { s with dev := Device.setWave s.dev wave (Wave.setFlag w q (w.flags.getD q ⟨false, false⟩).v true) }
    | .laneState l =>
      let w := Wave.loseLane w l (Config.freeByte n).toNat (pair64 (Config.freeWord n) (Config.freeWord (n + 1))).toNat
      .next { s with dev := { Device.setWave s.dev wave { w with ptraps := w.ptraps
        ++ [⟨.fixed, 0x0F, 0, w.handler, bit l, bit l, w.pcs.getD l 0, w.wbs.getD l 0, 0⟩] } with freeCtr := n + 2 } }

/-- Reads bytes of the trap frame (R436). -/
def State.frameRead (s : State) (off n : Nat) : Except (BitVec 8) (List Byte) :=
  let w := State.src s
  Device.vread s.dev (coreAgent w.core) (State.asid s) .r (w.tfrm + BitVec.ofNat 64 off) n

/-- The i-th k-byte number of a list of bytes. -/
def numAt (bs : List Byte) (i k : Nat) : Nat := ofLeBytes ((bs.drop (k * i)).take k)

/-- What `rte` reads back (R436): QF, EXIT, SHI, SHIP and the PCs. -/
structure RteFrame where
  qf   : Nat
  exit : Mask
  shi  : List Word
  ship : Nat
  pcs  : List DWord
  deriving DecidableEq, Repr

/-- Reads the frame for `rte`: its fields, or the code and offset of the first fault. -/
def State.rteFrame (s : State) : Except (BitVec 8 × Nat) RteFrame :=
  match State.frameRead s 0x005 1, State.frameRead s 0x038 8, State.frameRead s 0x080 64, State.frameRead s 0x0C0 2,
      State.frameRead s 0x100 512 with
  | .ok q, .ok e, .ok h, .ok p, .ok c =>
    .ok ⟨ofLeBytes q, BitVec.ofNat 64 (ofLeBytes e), (List.range 16).map (fun i => BitVec.ofNat 32 (numAt h i 4)), ofLeBytes p,
      mkLanes (fun l => BitVec.ofNat 64 (numAt c l 8))⟩
  | .error c, _, _, _, _ => .error (c, 0x005)
  | _, .error c, _, _, _ => .error (c, 0x038)
  | _, _, .error c, _, _ => .error (c, 0x080)
  | _, _, _, .error c, _ => .error (c, 0x0C0)
  | _, _, _, _, .error c => .error (c, 0x100)

/-- Why a restored PC is bad (R26, R436): none, or a code and the address that it concerns, the PC or the word before it. -/
def State.pcBad (s : State) (t : DWord) : Option (BitVec 8 × DWord) :=
  if !canonical t then some (0x07, t) else Device.targetFault s.dev (State.src s).core (State.asid s) t

/-- Frees the handler reserve (R145). -/
def Wave.freeReserve (w : Wave) : Wave := { w with win := w.win.filter (fun e => e.1 < w.wlim || w.wlim + 48 ≤ e.1) }

/-- The checks of R196 on a re-injected entry: the code, the failing lanes, the address. A scalar word's one access is that of its MASK (R154). -/
def Replay.check (r : Replay) (g : GOp) (helpers : Mask) : Option (BitVec 8 × Mask × DWord) :=
  let ls := r.lanes g helpers
  let of (m : Mask) : Mask := if g.scalar then r.mask else m
  match ls.find? (fun l => !canonical (r.addr g l)) with
  | some l => some (0x07, of (maskOf (fun l => ls.contains l && !canonical (r.addr g l))), r.addr g l)
  | none =>
    match ls.find? (fun l => (r.addr g l).toNat % g.z != 0) with
    | some l => some (0x08, of (maskOf (fun l => ls.contains l && (r.addr g l).toNat % g.z != 0)), r.addr g l)
    | none => none

/-- Is a register unallocated (R100): no physical register, and no contents in the spill area. -/
def Wave.unalloc (w : Wave) (id : RegId) : Bool := (Wave.reg? w id).isNone && (Wave.outItem w id).isNone

/-- The units that an entry's destinations still need (R437): those that are not allocated. -/
def Wave.newUnits (w : Wave) (g : GOp) (wb : Nat) : Nat :=
  if g.scalar then 0 else (((Wave.dests w g wb).filter (Wave.unalloc w)).length) * 16

/-- Gives an entry's destinations their elements of some lanes, as its word did when it issued (R101, R437); contents that stand in the spill area are left to their refill. -/
def Wave.reserve (w : Wave) (g : GOp) (wb : Nat) (L : Mask) : Wave :=
  if g.scalar then w
  else (Wave.dests w g wb).foldl (fun w id =>
    if (Wave.outItem w id).isSome then w else Wave.writeReg w id L (optElem (Wave.reg? w id)) false) w

/-- Re-injects an entry (R437): it is counted and performed as its word would be; one that fails becomes an entry again. -/
def Device.reinject (d : Device) (u : Nat) (r : Replay) : Device :=
  match gopOfWord r.w0 with
  | none => d
  | some g =>
    if !r.valid then d
    else
      let id := d.uid
      let w := Device.wave d u
      let r := { r with faulted := false, fcode := 0, faddr := 0 }
      let w := Wave.addOut { w with pend := w.pend ++ [.word id r] } ⟨id, g.cls, false, Wave.dests w g r.wb, []⟩
      let d := Device.setWave { d with uid := d.uid + 1 } u w
      match Replay.check r g (Wave.helpers w) with
      | some (c, m, a) => Device.faultWord d u id r c m a
      | none =>
        let (d, ok) := if w.ended then (d, true) else Device.makeRoom d u (Wave.newUnits w g r.wb) 65536
        let mine (w : Wave) : Wave := Wave.reserve w g r.wb (maskOf (fun l => (r.lanes g (Wave.helpers w)).contains l) &&& Wave.live w)
        if ok then Device.performPend (Device.setWave d u (mine (Device.wave d u))) u id r false else Device.faultWord d u id r 0x0B r.mask 0

/-- The wave as `rte` leaves it, before its entries are performed (R436); an episode of synchronisation that the handler's exits have completed ends (R93, R97). What the handler wrote of v0 to v15 in a lane that had exited keeps its live bit (DESIGN CHOICE 76: R102 calls a lane's elements dead as it exits, R145 frees the reserve only). -/
def Wave.afterRte (w : Wave) (f : RteFrame) : Wave :=
  let gone := f.exit &&& ~~~w.exited
  let w := Wave.freeReserve { w with handler := false, hexit := 0, hwait := 0, hmask := 0, tbasLo := none, tfrmLo := none,
                                     firstPoison := none, trqn := 0, held := [], carried := [], noSpill := false, noRefill := [] }
  let w := if gone == 0 then Wave.syncTest w else Wave.exitLanes w gone
  let w := (List.range 16).foldl (fun w i => Wave.setSc w (240 + i) ⟨f.shi.getD i 0, bitOf f.ship i⟩) w
  let w := (List.range 4).foldl (fun w q => Wave.setFlag w q (bitOf f.qf q) (bitOf f.qf (4 + q))) w
  Wave.setPcs w (~~~w.exited) (fun l => f.pcs.getD l 0)

/-- Re-injects entries in order (R437), each fence that waited for them behind those that it waits for (R234); n entries have gone before. -/
def Device.reinjectAll (d : Device) (u n : Nat) (carried : List (Nat × Pend)) : List Replay → Device
  | [] => Device.setPend d u ((Device.wave d u).pend ++ carried.map (fun e => e.2))
  | r :: t =>
    let now := (carried.filter (fun e => e.1 ≤ n)).map (fun e => e.2)
    let d := if now.isEmpty then d else Device.setPend d u ((Device.wave d u).pend ++ now)
    Device.reinjectAll (Device.reinject d u r) u (n + 1) (carried.filter (fun e => !(e.1 ≤ n))) t

/-- RTE (R436): returns from the trap handler. -/
def execRte (_ : C0) (s : State) : Res :=
  let w := State.src s
  let u := s.ctx.wave
  if !w.handler then .next (State.trap s 0x07 s.ctx.lanes 0)
  else if Wave.counter w 0 != 0 || Wave.counter w 1 != 0 then .next (State.hold s .short)
  else
    let dbl (c : BitVec 8) (a : DWord) : State :=
      { s with dev := Device.doubleFault s.base u c s.ctx.chainPc a, ctx := { s.ctx with status := .trapped } }
    match State.rteFrame s with
    | .error (c, off) => .next (dbl c (w.tfrm + BitVec.ofNat 64 off))
    | .ok f =>
      match (lanesOf (~~~(w.exited ||| f.exit))).findSome? (fun l => State.pcBad s (f.pcs.getD l 0)) with
      | some (c, a) => .next (dbl c a)
      | none =>
        let d := Device.setWave s.dev u (Wave.afterRte (State.cur s) f)
        let d := if (Device.wave d u).ended then Device.unbind d u else d
        .next { s with dev := Device.reinjectAll d u 0 w.carried w.held }

/-- The address of entry e's image in the frame (R431). -/
def State.imageAt (s : State) (e : Nat) : DWord := (State.src s).tfrm + BitVec.ofNat 64 (0x600 + 0x600 * e)

/-- Writes bytes of the frame as the wave's own store. -/
def State.frameWrite (s : State) (a : DWord) (bs : List Byte) (k : State → State) : State :=
  match Device.vwrite s.dev (Device.agentOf s.dev (State.src s)) (State.asid s) false a bs with
  | .error c => State.trap s c s.ctx.lanes a
  | .ok d => k { s with dev := d }

/-- The shared checks of the replay words (R434): handler mode, and an entry that exists. -/
def State.replayWord (s : State) (e : BitVec 4) (k : Replay → State) : State :=
  let w := State.src s
  if !w.handler then State.trap s 0x07 s.ctx.lanes 0
  else match w.held[e.toNat]? with
    | none => State.trap s 0x03 s.ctx.lanes 0
    | some r => k r

/-- RQR e (R437): rewrites the image from the held copy. -/
def execRqr (o : SXE) (s : State) : Res :=
  .next (State.replayWord s o.e (fun r => State.frameWrite s (State.imageAt s o.e.toNat) (Replay.image r) id))

/-- RQD e (R437): clears VALID in the held copy and in the image, whose other bits stay. -/
def execRqd (o : SXE) (s : State) : Res :=
  .next (State.replayWord s o.e (fun r =>
    let a := State.imageAt s o.e.toNat + 0x00C
    match Device.vread s.dev (coreAgent (State.src s).core) (State.asid s) .r a 1 with
    | .error c => State.trap s c s.ctx.lanes a
    | .ok bs =>
      State.frameWrite s a (leBytes 1 (ofLeBytes bs / 2 * 2)) (fun s =>
        State.mapWave s (fun w => { w with held := w.held.set o.e.toNat { r with valid := false } }))))

/-- Are the LIT words of an image those its word takes, or zero (R437). -/
def imageLitsOk (w0 w1 w2 : Word) (n : Nat) : Bool :=
  let lit (x : Word) (c : Option Bool) : Bool :=
    x.toNat / 2 ^ 25 % 64 == 63 && (match c with
      | some b => x.getLsbD 31 == b
      | none => true)
  (w1 == 0 && w2 == 0) || (n == 1 && w0.getLsbD 31 && lit w1 none && w2 == 0)
    || (n == 2 && w0.getLsbD 31 && lit w1 (some true) && lit w2 (some false))

/-- A held copy loaded from an image (R437): MASK is cut to the held one, PC and WB stay; none when a rule is broken. -/
def Replay.load (r : Replay) (bs : List Byte) : Option Replay :=
  let w (off : Nat) : Word := BitVec.ofNat 32 (ofLeBytes ((bs.drop off).take 4))
  let q (off : Nat) : DWord := BitVec.ofNat 64 (ofLeBytes ((bs.drop off).take 8))
  let ctrl := (w 0x00C).toNat
  let nlit := bitsOf ctrl 2 1
  match gopOfWord (w 0) with
  | none => none
  | some g =>
    if bitOf ctrl 0 && litsOk (w 0) nlit && imageLitsOk (w 0) (w 4) (w 8) nlit then
      some { r with
        w0 := w 0, w1 := w 4, w2 := w 8, valid := true, nlit := nlit, cls := g.cls,
        faulted := bitOf ctrl 8, fcode := BitVec.ofNat 8 (bitsOf ctrl 23 16),
        mask := r.mask &&& q 0x010, base := q 0x028, offset := q 0x030,
        sdata := (List.range 4).map (fun i => w (0x038 + 4 * i)), faddr := q 0x048,
        ops := (List.range 5).map (fun j => mkLanes (fun l => w (0x100 + 256 * j + 4 * l))) }
    else none

/-- RQW e (R437): loads the held copy from the image, after every earlier store of the wave; q0 says whether it failed. -/
def execRqw (o : SXE) (s : State) : Res :=
  .next (State.replayWord s o.e (fun r =>
    if Wave.counter (State.src s) 1 != 0 then State.hold s .short
    else
      let a := State.imageAt s o.e.toNat
      match Device.vread s.dev (coreAgent (State.src s).core) (State.asid s) .r a 1536 with
      | .error c => State.trap s c s.ctx.lanes a
      | .ok bs =>
        match Replay.load r bs with
        | none => State.setFlag s 0 true false
        | some r' => State.setFlag (State.mapWave s (fun w => { w with held := w.held.set o.e.toNat r' })) 0 false false))

end Sys2Proof.Machine
end

