-- ==== Sys2Proof/Machine/Barrier.lean ====
section
/-! DEFINITION. Barrier registers (R252 to R256) and the engine command queue (R195, R271). -/

namespace Sys2Proof.Machine

/-- A barrier register with every field zero (R252). -/
def Bar.zero : Bar := ⟨0, 0, false, false, 0, false, 0⟩

/-- An arrival (R253). -/
def Bar.arrive (b : Bar) (err : Bool) (code : BitVec 8) : Bar :=
  let b := if err && !b.err then { b with err := true, ecode := code } else b
  if b.pend ≤ 1 then { b with lerr := b.err, lcode := b.ecode, err := false, ecode := 0, ph := !b.ph, pend := b.e }
  else { b with pend := b.pend - 1 }

/-- A barrier register of a workgroup. -/
def Workgroup.bar (g : Workgroup) (b : Nat) : Bar := g.bars.getD b Bar.zero

/-- Replaces a barrier register of the current workgroup. -/
def State.setBar (s : State) (b : Nat) (x : Bar) : State :=
  let gid := (State.src s).wg
  let g := Device.wg s.dev gid
  { s with dev := Device.setWg s.dev gid { g with bars := putAt g.bars b x Bar.zero } }

/-- A barrier register of the current workgroup. -/
def State.bar (s : State) (b : Nat) : Bar := Workgroup.bar (Device.wg s.dev (State.src s).wg) b

/-- Is a register in use (R255): a wave of the workgroup waits on it in `barw`, or a copy of the workgroup that names it is outstanding. -/
def Device.barBusy (d : Device) (gid b : Nat) : Bool :=
  let g := Device.wg d gid
  let x := Workgroup.bar g b
  g.waves.any (fun u => (Device.wave d u).stalls.any (fun t => match t with
    | .barrier b' p => b' == b && x.ph == (p == 1)
    | _ => false))
  || (Device.outstanding d).any (fun o => o.cls == 2 && o.wg == gid && o.bar == some b)

/-- BINIT (R255). -/
def execBinit (o : CBarS) (s : State) : Res :=
  let v := State.sc s o.s.toNat
  let x := v.v.toNat
  let L := s.ctx.lanes
  if v.p then .next (State.trap s 0x05 L 0)
  else if x ≥ 65536 || x == 0 then .next (State.trap s 0x03 L 0)
  else if Device.barBusy s.dev (State.src s).wg o.b.toNat then .next (State.trap s 0x03 L 0)
  else .next (State.setBar s o.b.toNat ⟨x, x, false, false, 0, false, 0⟩)

/-- A release by a word outside the memory pipeline (R235, R237, R432): the wave's unfinished words leave the core first, behind its acquires; then the cluster L1 is written back. -/
def State.release (s : State) (scope : Nat) (k : State → State) : State :=
  if State.earlierOpen s then State.hold s .short
  else k { s with dev := Device.fenceAct s.dev (State.clOf s) false true scope }

/-- BARR (R255): one arrival, a release at workgroup scope. -/
def execBarr (o : CBar) (s : State) : Res :=
  let b := State.bar s o.b.toNat
  if b.e == 0 then .next (State.trap s 0x03 s.ctx.lanes 0)
  else .next (State.release s 1 (fun s => State.setBar s o.b.toNat (Bar.arrive b false 0)))

/-- BARX (R255): declares copies and arrives, in one step. -/
def execBarx (o : CBarS) (s : State) : Res :=
  let v := State.sc s o.s.toNat
  let x := v.v.toNat
  let b := State.bar s o.b.toNat
  let L := s.ctx.lanes
  if v.p then .next (State.trap s 0x05 L 0)
  else if b.e == 0 || x ≥ 65536 || b.pend - 1 + x > 131071 then .next (State.trap s 0x03 L 0)
  else .next (State.release s 1 (fun s => State.setBar s o.b.toNat (Bar.arrive { b with pend := b.pend + x } false 0)))

/-- The shared test of `barw` (R256). -/
def State.barWait (s : State) (b : BitVec 4) (p : BitVec 1) (k : Bar → State) : Res :=
  let x := State.bar s b.toNat
  if x.e == 0 then .next (State.trap s 0x03 s.ctx.lanes 0)
  else if x.ph == (p == 1) then .next (State.hold s (.barrier b.toNat p.toNat))
  else .next (k x)

/-- BARW bN, P (R256). -/
def execBarw (o : CBarP) (s : State) : Res := State.barWait s o.b o.p (fun _ => s)

/-- BARW bN, P, sM (R256): reports the completed phase's error. -/
def execBarwS (o : CBarPS) (s : State) : Res :=
  State.barWait s o.b o.p (fun x => State.setSc s o.s.toNat ⟨BitVec.ofNat 32 (x.lcode.toNat * 256 + x.lerr.toNat), false⟩)

/-- BART (R256). -/
def execBart (o : CBart) (s : State) : Res :=
  let x := State.bar s o.b.toNat
  if x.e == 0 then .next (State.trap s 0x03 s.ctx.lanes 0)
  else .next (State.setPred s o.q.toNat (fun _ => x.ph != (o.p == 1)) (fun _ => false))

/-- An engine operation with nothing captured. -/
def EngOp.blank : EngOp :=
  { id := 0, wave := 0, wg := 0, core := 0, launch := 0, asid := 0, kind := .cpl, cls := 2, mask := 0, helpers := 0, scal := [], rows := [],
    reg := 0, ctl := 0, dests := [], wb := 0, desc := [], lines := [], sites := [], wrote := [], dstWgs := [], bar := none, ins := [], outs := [], entries := [],
    fmt := 0, shape := 0, snap := none, tlay := none, tcode := none, phase := 0, aux := [], err := none, fired := false, void := false, last := false }

/-- The frame of an engine operation that the current chain issues: its owner and captured modes. -/
def State.engOp (s : State) (kind : EngKind) (cls : Nat) : EngOp :=
  let w := State.src s
  { EngOp.blank with
    id := s.dev.uid, wave := s.ctx.wave, wg := w.wg, core := w.core, launch := Device.launchIdOf s.pre w, asid := Device.asidOf s.pre w,
    kind := kind, cls := cls, mask := s.ctx.lanes, helpers := Wave.helpers w, wb := s.ctx.wb, fmt := w.fmt, shape := w.shape }

/-- The engines that serve a queue (R271). -/
inductive Engine where
  | copy
  | pair
  | hash
  | trav
  | other
  deriving DecidableEq, Repr

/-- The engine of a kind of operation. -/
def EngKind.engine (k : EngKind) : Engine :=
  match k with
  | .cpl => .copy
  | .cpls => .copy
  | .cpt => .copy
  | .cpts => .copy
  | .tdesc => .copy
  | .mload => .pair
  | .mmul => .pair
  | .mdrain => .pair
  | .mclr => .pair
  | .hxq => .hash
  | .hxg => .hash
  | .hxcfg => .hash
  | .vbind => .hash
  | .vpub => .hash
  | .coll => .other
  | .tlayout => .trav
  | .tcode => .trav
  | .trace => .trav
  | .tresume => .trav
  | .tabort => .trav
  | .tstamp => .trav

/-- Is an operation ready (R195, R271): each input ring holds its count, each output ring has room; or it is to fire without effect. A program waits for room in its Peloton's queue (R407). -/
def Device.opReady (d : Device) (o : EngOp) : Bool :=
  let cl := o.core / 8
  o.void || (o.ins.all (fun r => match Tbl.get? (Device.cluster d cl).rings r.1 with
      | some x => Device.consReady d cl x r.2
      | none => false)
    && o.outs.all (fun r => match Tbl.get? (Device.cluster d cl).rings r.1 with
      | some x => Device.prodReady d cl x r.2
      | none => false)
    && (o.kind != .coll || (Device.die d (o.core / 64)).pel.queue.length < 16))

/-- May an operation take a queue entry now, and is it the last one (R271). -/
def Device.queueRoom (d : Device) (o : EngOp) : Option Bool :=
  let q := (Device.core d o.core).queue
  let mine := (q.filter (fun x => x.wave == o.wave && !x.last)).length
  if q.length ≥ 16 then none
  else if q.length == 15 then (if Device.opReady d o then some true else none)
  else if mine ≥ 4 then none else some false

/-- Issues an engine word: it takes a queue entry and is counted, or is held (R239, R271). -/
def State.enqueue (s : State) (o : EngOp) : State :=
  if State.classFull s o.cls then State.hold s .long
  else match Device.queueRoom s.dev o with
    | none => State.hold s .short
    | some last =>
      let c := Device.core s.dev o.core
      let d := Device.setCore s.dev o.core { c with queue := c.queue ++ [{ o with last := last }] }
      State.mapWave (State.useId { s with dev := d }) (fun w => Wave.addOut w ⟨o.id, o.cls, false, o.dests, []⟩)

/-- Takes the reservations of an operation as it fires, in one step (R195): the entries' local addresses, inputs first. -/
def Device.fire (d : Device) (o : EngOp) : Device × EngOp :=
  let cl := o.core / 8
  let take (cons : Bool) (acc : Device × List Nat) (r : Nat × Nat) : Device × List Nat :=
    let c := Device.cluster acc.1 cl
    match Tbl.get? c.rings r.1 with
    | none => acc
    | some x =>
      let at_ := (List.range r.2).map (fun i => Ring.entryAt x ((if cons then x.cres else x.pres).toNat + i))
      let x' := if cons then Ring.takeCons x o.id true r.2 else Ring.takeProd x o.id true r.2
      (Device.setCluster acc.1 cl { c with rings := Tbl.put c.rings r.1 x' }, acc.2 ++ at_)
  let a := o.ins.foldl (take true) (d, [])
  let (d, es) := o.outs.foldl (take false) a
  (d, { o with fired := true, entries := es })

/-- Records the first failure of an operation in its wave's first-poison record (R205). -/
def Device.notePoison (d : Device) (wave : Nat) (a : DWord) (c : BitVec 8) : Device :=
  match Tbl.get? d.waves wave with
  | some w => Device.setWave d wave (Wave.poisoned w a c)
  | none => d

/-- An operation of the device by identifier. -/
def Device.op? (d : Device) (id : Nat) : Option EngOp := d.ops.find? (fun o => o.id == id)

/-- Replaces an operation. -/
def Device.setOp (d : Device) (o : EngOp) : Device := { d with ops := d.ops.map (fun x => if x.id == o.id then o else x) }

/-- Takes an operation out. -/
def Device.dropOp (d : Device) (id : Nat) : Device := { d with ops := d.ops.filter (fun x => x.id != id) }

/-- Ends an operation: it leaves the device and its counter (R240). -/
def Device.endOp (d : Device) (o : EngOp) : Device := Device.finish (Device.dropOp (Device.dropRings d o) o.id) o.wave o.id

/-- The lanes of a register that still take an operation's results (R93, R94): none of a wave that has ended or was restarted since, no lane that has exited; in the handler reserve, those that the handler has not ended. -/
def Wave.takes (w : Wave) (o : EngOp) (id : RegId) : Mask :=
  let reserve := match id with
    | .pos p => w.handler && w.wlim ≤ p && p < w.wlim + 48
    | _ => false
  if w.ended || o.id < w.born then 0 else o.mask &&& ~~~(if reserve then w.hexit else w.exited)

/-- Must an operation that is to write registers wait for the refill of one of them (R125). -/
def Device.destsOut (d : Device) (o : EngOp) : Bool :=
  let w := Device.wave d o.wave
  o.dests.any (fun id => Wave.takes w o id != 0 && (Wave.outItem w id).isSome)

/-- May an operation of an engine act, as its wave's fences and the acquires of its `vbind` and `vpub` words order it (R234, R235, R242). -/
def Device.mayAct (d : Device) (o : EngOp) : Bool :=
  match Tbl.get? d.waves o.wave with
  | some w => !Wave.fencedOff w o.id && !Device.bindsBefore d o.wave o.id
  | none => true

/-- Is the gang of an operation being saved: its operations that have not started stay in their entries (R277, R332), its copies begin no further tile (R269). -/
def Device.opSaving (d : Device) (o : EngOp) : Bool := (Device.gang d (Device.wg d o.wg).gang).st == .saving

/-- May the idx-th entry of a core's queue be dispatched (R271, R276): it is ready; a matrix operation has no earlier one of its pair, any other no earlier ready one of its engine; hash operations of one wave keep their order (R316); its gang is not being saved (R277). What the wave's fences order is what it does once dispatched (R242). -/
def Device.canDispatch (d : Device) (core idx : Nat) : Option EngOp :=
  let q := (Device.core d core).queue
  match q[idx]? with
  | none => none
  | some o =>
    let before := (q.take idx).filter (fun x => x.kind.engine == o.kind.engine)
    let clear := if o.kind.engine == .pair then before.isEmpty
      else before.all (fun x => !Device.opReady d x && !(x.kind.engine == .hash && x.wave == o.wave))
    if Device.opReady d o && clear && !Device.opSaving d o then some o else none

/-- Dispatches a queue entry to its engine (R271): it is freed; ring reservations are taken; one to fire without effect completes, a matrix one in arrival order (R195). -/
def Device.dispatch (d : Device) (core idx : Nat) (o : EngOp) : Device :=
  let c := Device.core d core
  let d := Device.setCore d core { c with queue := c.queue.eraseIdx idx }
  if o.void && o.kind.engine != .pair then
    let d := if o.cls == 4 then Device.notePoison d o.wave 0 0x07 else d
    Device.finish d o.wave o.id
  else
    let (d, o) := if o.void then (d, o) else Device.fire d o
    let d := { d with ops := d.ops ++ [o] }
    if o.kind.engine == .pair then
      let p := Device.pair d (pairOf core)
      Device.setPair d (pairOf core) { p with stream := p.stream ++ [o.id] }
    else if o.kind == .coll then
      let x := Device.die d (core / 64)
      let p : PProg :=
        { op := o.id, wave := o.wave, asid := o.asid, addr := pair64 (o.scal.getD 0 0) (o.scal.getD 1 0), started := false, rank := 0, n := 1,
          gbase := 0, tag := 0, len := 0, image := [], pc := 0, toR := 0, fromR := 0, ch := 0, cs := [0, 0, 0, 0],
          ls := [none, none, none, none], key := 0, cover := none, hop := 0, taken := none }
      Device.setDie d (core / 64) { x with pel := { x.pel with queue := x.pel.queue ++ [p] } }
    else d

/-- ENGINE_DISPATCH (R271). -/
def execEvEngineDispatch (core idx : Nat) (s : State) : Res :=
  match Device.canDispatch s.dev core idx with
  | none => .next s
  | some o => .next { s with dev := Device.dispatch s.dev core idx o }

/-- ENGINE_OP_FIRE (R195): a queued operation that names rings fires, taking all its reservations in one step. -/
def execEvEngineOpFire (op : Nat) (s : State) : Res :=
  match (Device.outstanding s.dev).find? (fun o => o.id == op && !(o.ins.isEmpty && o.outs.isEmpty)) with
  | none => .next s
  | some o =>
    match (Device.core s.dev o.core).queue.findIdx? (fun x => x.id == op) with
    | none => .next s
    | some i =>
      match Device.canDispatch s.dev o.core i with
      | none => .next s
      | some o => .next { s with dev := Device.dispatch s.dev o.core i o }

end Sys2Proof.Machine
end

