-- ==== Sys2Proof/Machine/Copy.lean ====
section
/-! DEFINITION. Tensor records and asynchronous copies (R190, R257 to R270). -/

namespace Sys2Proof.Machine

/-- Swizzled placement (R190). -/
def swz (r c pitch : Nat) : Nat := r * pitch + (((c / 16) ^^^ (r % 8)) * 16) + c % 16

/-- Element width in bits of a type code (R39). -/
def typeBits (t : Nat) : Nat :=
  match t with
  | 0 => 32
  | 1 => 16
  | 2 => 16
  | 5 => 4
  | 6 => 32
  | 7 => 32
  | 8 => 16
  | 9 => 16
  | _ => 8

/-- A tensor record's fields (R259, R260). -/
structure TRec where
  base   : Nat
  mxbase : Nat
  typ    : Nat
  rank   : Nat
  swiz   : Nat
  oob    : Nat
  mx     : Bool
  zero   : Bool
  fill   : Nat
  size   : List Nat
  stride : List Nat
  box    : List Nat
  deriving DecidableEq, Repr

/-- A number of n bytes in a record. -/
def fieldAt (bs : List Byte) (off n : Nat) : Nat := ofLeBytes ((bs.drop off).take n)

/-- Reads a record from its 256 bytes. `zero` says that FORM's zero field is zero. -/
def TRec.of (bs : List Byte) : TRec :=
  let f := fieldAt bs 0x10 8
  { base := fieldAt bs 0 8, mxbase := fieldAt bs 8 8, typ := bitsOf f 3 0, rank := bitsOf f 7 4, swiz := bitsOf f 9 8, oob := bitsOf f 11 10,
    mx := bitOf f 12, zero := bitsOf f 31 13 == 0, fill := bitsOf f 63 32,
    size := (List.range 9).map (fun i => fieldAt bs (0x18 + 4 * i) 4),
    stride := (List.range 9).map (fun i => fieldAt bs (0x40 + 8 * i) 8),
    box := (List.range 9).map (fun i => fieldAt bs (0x88 + 2 * i) 2) }

/-- Element width of a record. -/
def TRec.w (t : TRec) : Nat := typeBits t.typ
/-- Box extent of a dimension. -/
def TRec.bx (t : TRec) (i : Nat) : Nat := t.box.getD i 0
/-- Data bytes of a box row (R262). -/
def TRec.rowBytes (t : TRec) : Nat := t.bx 0 * t.w / 8
/-- The SRAM pitch (R262). -/
def TRec.pitch (t : TRec) : Nat := (t.rowBytes + 15) / 16 * 16
/-- Rows of the box. -/
def TRec.rowCount (t : TRec) : Nat := ((List.range t.rank).drop 1).foldl (fun n i => n * t.bx i) 1
/-- Scale blocks of a row (R263). -/
def TRec.blocks (t : TRec) : Nat := t.bx 0 / 32
/-- Where the scale codes start in SRAM (R263). -/
def TRec.codeAt (t : TRec) : Nat := (t.pitch * t.rowCount + 127) / 128 * 128
/-- The footprint in SRAM (R262, R263). -/
def TRec.foot (t : TRec) : Nat := if t.mx then t.codeAt + t.rowCount * t.blocks else t.pitch * t.rowCount

/-- Is RANK legal. -/
def TRec.rankOk (t : TRec) : Bool := 1 ≤ t.rank && t.rank ≤ 9

/-- The cases of R261 that a record alone decides. -/
def TRec.bad (t : TRec) : Bool :=
  t.typ > 12 || t.swiz > 1 || t.oob == 3 || !t.rankOk
  || (t.mx && !(3 ≤ t.typ && t.typ ≤ 5)) || (t.oob == 1 && t.typ ≥ 6) || !t.zero
  || (List.range t.rank).any (fun i => t.size.getD i 0 == 0 || t.bx i == 0 || t.bx i > 256)
  || ((List.range t.rank).drop 1).any (fun i => t.stride.getD i 0 % (if t.mx && t.typ != 5 then 32 else 16) != 0)
  || (t.typ == 5 && t.bx 0 % 2 != 0) || (t.mx && t.bx 0 % 32 != 0)
  || t.foot > 1048576 || (t.swiz == 1 && t.pitch % 128 != 0)

/-- The origin rules of R262 and R263. -/
def TRec.originBad (t : TRec) (c : List Int) : Bool :=
  (t.typ == 5 && c.getD 0 0 % 2 != 0) || (t.mx && c.getD 0 0 % 32 != 0)

/-- The box index of row r in dimensions 1 on, b1 fastest (R262). -/
def rowIndex (r : Nat) : List Nat → List Nat
  | [] => []
  | n :: t => r % n :: rowIndex (r / n) t

/-- The tensor coordinates of a box row in dimensions 1 on. -/
def TRec.rowCoords (t : TRec) (c : List Int) (r : Nat) : List Int :=
  let b := rowIndex r ((t.box.take t.rank).drop 1)
  (c.drop 1).zipWith (fun x y => x + (y : Int)) b

/-- Are coordinates of dimensions i on within SIZE. -/
def TRec.within (t : TRec) (i : Nat) : List Int → Bool
  | [] => true
  | x :: r => 0 ≤ x && x < (t.size.getD i 0 : Int) && TRec.within t (i + 1) r

/-- The byte offset of coordinates of dimensions i on, divided by u. -/
def TRec.offset (t : TRec) (u i : Nat) : List Int → Int
  | [] => 0
  | x :: r => x * (t.stride.getD i 0 / u : Nat) + TRec.offset t u (i + 1) r

/-- The global address of an element's byte (R262). -/
def TRec.addr (t : TRec) (x0 : Int) (xs : List Int) : DWord :=
  BitVec.ofInt 64 (t.base + x0 * t.w / 8 + TRec.offset t 1 1 xs)

/-- The fill byte k of an out-of-bounds element (R260, R262). -/
def TRec.fillByte (t : TRec) (k : Nat) : Byte :=
  let nan := match t.typ with
    | 0 => f32.nanBits
    | 1 => f16.nanBits
    | 2 => bf16.nanBits
    | 3 => f8e4.nanBits
    | 4 => f8e5.nanBits
    | _ => Config.f4Fill.toNat * 17
  let v := match t.oob with
    | 0 => 0
    | 1 => nan
    | _ => if t.w == 4 then t.fill % 16 * 17 else t.fill
  BitVec.ofNat 8 (v / 2 ^ (8 * k))

/-- What stands behind a byte of the SRAM footprint: nothing, a fill, or a global byte of which the masked bits count and the others are filled. -/
inductive BSrc where
  | skip
  | fill (b : Byte)
  | glob (a : DWord) (m : Byte) (f : Byte)
  deriving DecidableEq, Repr

/-- The byte k of box row r (R262). -/
def TRec.dataByte (t : TRec) (c : List Int) (r k : Nat) : BSrc :=
  let xs := t.rowCoords c r
  let rowIn := t.within 1 xs
  let c0 := c.getD 0 0
  let ok (x : Int) : Bool := rowIn && 0 ≤ x && x < (t.size.getD 0 0 : Int)
  if t.w == 4 then
    let x := c0 + 2 * k
    let m : Byte := (if ok x then 0x0F else 0) ||| (if ok (x + 1) then 0xF0 else 0)
    if m == 0 then .fill (t.fillByte 0) else .glob (t.addr x xs) m (t.fillByte 0)
  else
    let e := k / (t.w / 8)
    let x := c0 + e
    if ok x then .glob (t.addr x xs + BitVec.ofNat 64 (k % (t.w / 8))) 0xFF 0 else .fill (t.fillByte (k % (t.w / 8)))

/-- The scale code j of box row r (R263). -/
def TRec.codeByte (t : TRec) (c : List Int) (r j : Nat) : BSrc :=
  let xs := t.rowCoords c r
  let x := c.getD 0 0 + 32 * j
  if t.within 1 xs && x + 31 ≥ 0 && x < (t.size.getD 0 0 : Int) then
    .glob (BitVec.ofInt 64 (t.mxbase + x / 32 + TRec.offset t (32 * t.w / 8) 1 xs)) 0xFF 0
  else .fill 127

/-- The byte at offset o of the SRAM footprint. -/
def TRec.byteAt (t : TRec) (c : List Int) (o : Nat) : BSrc :=
  if o < t.pitch * t.rowCount then
    let r := o / t.pitch
    let q := o % t.pitch
    let k := if t.swiz == 1 then swz r q t.pitch - r * t.pitch else q
    if k < t.rowBytes then t.dataByte c r k else .skip
  else if t.mx && t.codeAt ≤ o && o < t.foot then t.codeByte c ((o - t.codeAt) / t.blocks) ((o - t.codeAt) % t.blocks)
  else .skip

/-- The agent that an operation of a cluster's engines is (R203, R226, R270, R452). -/
def Device.engAgent (d : Device) (o : EngOp) : Agent :=
  { (clusterAgent (o.core / 8)).workFor (Device.launch d o.launch).lnch with copy := o.id }

/-- Reads one global byte for an operation of a cluster (R203, R209). Through a page of place 0x1 a copy reads what the line holds, absent or not, without its poison (DESIGN CHOICE 77: R197 states presence and poison for loads only). -/
def Device.engByte (d : Device) (o : EngOp) (a : DWord) : Except (BitVec 8) Byte :=
  match Device.vread d (Device.engAgent d o) o.asid .r a 1 with
  | .ok bs => .ok (bs.headD 0)
  | .error c => .error c

/-- The failure at the lowest address among the accesses of a tile (R269). -/
def lowestFail (l : List (DWord × BitVec 8)) : Option (DWord × BitVec 8) :=
  l.foldl (fun m e => match m with
    | none => some e
    | some x => if e.1.toNat < x.1.toNat then some e else some x) none

/-- Records an operation's first failure, there and in its wave's first-poison record (R269). -/
def Device.opFails (d : Device) (o : EngOp) (a : DWord) (c : BitVec 8) : Device × EngOp :=
  match o.err with
  | some _ => (d, o)
  | none => (Device.notePoison d o.wave a c, { o with err := some (a, c) })

/-- The physical addresses of n local bytes of a cluster. -/
def sramPas (cl a n : Nat) : List Nat := (List.range n).map (fun i => sramPa cl (a + i))

/-- Writes bytes of a destination line for an operation; an element written whole loses its poison (R183). -/
def Device.lineWrite (d : Device) (cl id a : Nat) (bs : List (Nat × Byte)) : Device :=
  let d := bs.foldl (fun d e => Device.arriveWrite d cl id (a + e.1) [e.2]) d
  (List.range 32).foldl (fun d k =>
    if (List.range 4).all (fun i => bs.any (fun e => e.1 == 4 * k + i)) then Device.setSramPois d cl (a + 4 * k) 1 false else d) d

/-- The destination bases of a box copy (R267). With both masks non-zero the slices come from them and bits 31:20 of the base count for nothing (DESIGN CHOICE 79: R267 takes bits 19:0, calls bits 22:20 ignored, and does not name bits 31:23). -/
def boxDests (s0 base : Nat) : List Nat :=
  let rm := bitsOf s0 13 12
  let cm := bitsOf s0 19 16
  let rs := (List.range 2).filter (fun r => bitOf rm r)
  let cs := (List.range 4).filter (fun c => bitOf cm c)
  if rm == 0 && cm == 0 then [base] else rs.flatMap (fun r => cs.map (fun c => (4 * r + c) * 2 ^ 20 + base % 2 ^ 20))

/-- The origin of a box copy from its captured scalars. -/
def boxOrigin (sc : List Word) (rank : Nat) : List Int := ((sc.drop 2).take rank).map (fun x => x.toInt)

/-- Tile k of a `cpt` (R269): one line of the footprint, in every destination; the first failing tile and every later one are poisoned. A tile whose source is good and whose destination line has an uncorrectable error fails too, as R188 names the line. -/
def Device.tileCpt (d : Device) (o : EngOp) : Device × EngOp :=
  let t := TRec.of o.desc
  let c := boxOrigin o.scal t.rank
  let cl := o.core / 8
  let k := o.phase
  let tiles := (t.foot + 127) / 128
  let src : List (Nat × BSrc) := (List.range 128).map (fun i => (i, t.byteAt c (128 * k + i)))
  let get (e : Nat × BSrc) : Option (Except (DWord × BitVec 8) (Nat × Byte)) :=
    match e.2 with
    | .skip => none
    | .fill b => some (.ok (e.1, b))
    | .glob a m f =>
      match Device.engByte d o a with
      | .ok b => some (.ok (e.1, (b &&& m) ||| (f &&& ~~~m)))
      | .error x => some (.error (a, x))
  let rs := src.filterMap get
  let bad := rs.filterMap (fun r => match r with
    | .error e => some e
    | .ok _ => none)
  let lost := (o.aux.find? (fun b => Device.memBad d (sramPa cl (b + 128 * k)) 128)).map (fun b => (localForm (b + 128 * k), 0x0F#8))
  match (lowestFail bad).or lost with
  | some (a, x) =>
    let (d, o) := Device.opFails d o a x
    let d := o.aux.foldl (fun d b => Device.setSramPois d cl (b + 128 * k) (32 * (tiles - k)) true) d
    (d, { o with phase := tiles })
  | none =>
    let bs := rs.filterMap (fun r => match r with
      | .ok b => some b
      | .error _ => none)
    (o.aux.foldl (fun d b => Device.lineWrite d cl o.id (b + 128 * k) bs) d,
      { o with phase := k + 1, wrote := o.wrote ++ o.aux.flatMap (fun b => bs.map (fun e => sramPa cl (b + 128 * k + e.1))) })

/-- Stores bytes through a leaf for an operation, at the place that it names (R197, R211, R448). -/
def Device.engStore (d : Device) (o : EngOp) (t : Tr) (bs : List Byte) : Device :=
  if placeOf t.pa == 2 then
    { d with inbox := d.inbox ++ [⟨Launch.src (Device.launch d o.launch), regDie t.pa, regOff t.pa, bs.length, BitVec.ofNat 64 (ofLeBytes bs)⟩] }
  else if placeOf t.pa == 1 then Device.stlBy d o.id (sramCl t.pa) (sramOff t.pa) bs.length bs
  else Device.writeBytes d (Device.engAgent d o) o.asid false t bs

/-- The leaf of n global bytes that an operation writes, or why they cannot be written: a translation fault, or an uncorrectable error (R269). -/
def Device.engTarget (d : Device) (o : EngOp) (a : DWord) (n : Nat) : Except (BitVec 8) Tr :=
  match Device.translate d (256 + o.core / 8) o.asid .w a n with
  | .error c => .error c
  | .ok t => if Device.memBad d t.pa n then .error 0x0F else .ok t

/-- Writes one global byte's masked bits for an operation: the device, and where the byte stands. -/
def Device.engPut (d : Device) (o : EngOp) (a : DWord) (m b : Byte) : Device × List Nat :=
  match Device.engTarget d o a 1 with
  | .error _ => (d, [])
  | .ok t =>
    let old := if m == 0xFF then 0 else Device.readByte d (Device.engAgent d o) t 0
    (Device.engStore d o t [(b &&& m) ||| (old &&& ~~~m)], [t.pa])

/-- Loads n bytes for an operation; a device register is read as one (R211, R448), a page of place 0x1 as `engByte` reads it (DESIGN CHOICE 77). -/
def Device.engLoad (d : Device) (o : EngOp) (a : DWord) (n : Nat) : Except (BitVec 8) (Device × List Byte) :=
  let ag := Device.engAgent d o
  match Device.translate d ag.unit o.asid .r a n with
  | .error c => .error c
  | .ok t =>
    if placeOf t.pa == 2 then
      let (d, v) := Device.regRead d (regDie t.pa) (regOff t.pa) n
      .ok (d, leBytes n v)
    else if Device.memBad d (replicaPa t ag.die) n then .error 0x0F
    else .ok (d, Device.readBytes d ag t 0 n)

/-- The failure at the lowest of some addresses. -/
def lowestOf (l : List (DWord × DWord × BitVec 8)) : Option (DWord × DWord × BitVec 8) :=
  l.foldl (fun m e => match m with
    | none => some e
    | some x => if e.1.toNat < x.1.toNat then some e else some x) none

/-- Tile k of a `cpts` (R269): one footprint line is read and its in-bounds bytes are written, in ascending global address; an element that is poisoned or cannot be read fails as the byte that it would go to. -/
def Device.tileCpts (d : Device) (o : EngOp) : Device × EngOp :=
  let t := TRec.of o.desc
  let c := boxOrigin o.scal t.rank
  let cl := o.core / 8
  let k := o.phase
  let a0 := o.aux.headD 0 + 128 * k
  let tgt : List (Nat × DWord × Byte) := (List.range 128).filterMap (fun i => match t.byteAt c (128 * k + i) with
    | .glob a m _ => some (i, a, m)
    | _ => none)
  let tiles := (t.foot + 127) / 128
  let fail (e : Nat × DWord × Byte) : Option (DWord × DWord × BitVec 8) :=
    if Device.sramPois d cl (a0 + e.1) then some (e.2.1, localForm (a0 + e.1), 0x05)
    else if Device.memBad d (sramPa cl (a0 + e.1)) 1 then some (e.2.1, localForm (a0 + e.1), 0x0F)
    else match Device.engTarget d o e.2.1 1 with
      | .error x => some (e.2.1, e.2.1, x)
      | .ok _ => none
  match lowestOf (tgt.filterMap fail) with
  | some (_, a, x) =>
    let (d, o) := Device.opFails d o a x
    (d, { o with phase := tiles })
  | none =>
    let bs := Device.sramRead d cl a0 128
    let (d, ws) := tgt.foldl (fun acc e =>
      let (d, w) := Device.engPut acc.1 o e.2.1 e.2.2 (bs.getD e.1 0)
      (d, acc.2 ++ w)) (d, [])
    (d, { o with phase := k + 1, wrote := o.wrote ++ ws })

/-- The size of a lane copy (R265). -/
def laneCopySize (s3 : Word) : Nat := 4 * 2 ^ bitsOf s3.toNat 1 0

/-- The global address of a lane copy (R265). -/
def EngOp.laneG (o : EngOp) (l : Nat) : DWord :=
  pair64 (o.scal.getD 0 0) (o.scal.getD 1 0) + ((o.rows.getD 0 []).getD l 0).signExtend 64

/-- The local address of a lane copy (R265). -/
def EngOp.laneL (o : EngOp) (l : Nat) : Int := ((o.scal.getD 2 0).toNat : Int) + ((o.rows.getD 1 []).getD l 0).toInt

/-- The lanes of a lane copy. -/
def EngOp.copyLanes (o : EngOp) : List Nat := lanesOf (o.mask &&& ~~~o.helpers)

/-- A lane of a `cpl` that fails (R269): its destination elements are poisoned. -/
def Device.laneFails (d : Device) (o : EngOp) (a z : Nat) (at_ : DWord) (c : BitVec 8) : Device × EngOp :=
  let (d, o) := Device.opFails d o at_ c
  (Device.setSramPois d (o.core / 8) a (z / 4) true, { o with phase := o.phase + 1 })

/-- A lane of a `cpl` (R269). -/
def Device.tileCpl (d : Device) (o : EngOp) : Device × EngOp :=
  match o.copyLanes[o.phase]? with
  | none => (d, o)
  | some l =>
    let z := laneCopySize (o.scal.getD 3 0)
    let cl := o.core / 8
    let a := (o.laneL l).toNat
    match Device.engLoad d o (o.laneG l) z with
    | .ok (d, bs) =>
      if Device.memBad d (sramPa cl a) z then Device.laneFails d o a z (localForm a) 0x0F
      else (Device.setSramPois (Device.arriveWrite d cl o.id a bs) cl a (z / 4) false,
        { o with phase := o.phase + 1, wrote := o.wrote ++ sramPas cl a z })
    | .error c => Device.laneFails d o a z (o.laneG l) c

/-- A lane of a `cpls` (R269). -/
def Device.tileCpls (d : Device) (o : EngOp) : Device × EngOp :=
  match o.copyLanes[o.phase]? with
  | none => (d, o)
  | some l =>
    let z := laneCopySize (o.scal.getD 3 0)
    let cl := o.core / 8
    let a := (o.laneL l).toNat
    let p := (List.range (z / 4)).findSome? (fun i =>
      if Device.sramPois d cl (a + 4 * i) then some (i, 0x05#8)
      else if Device.memBad d (sramPa cl (a + 4 * i)) 4 then some (i, 0x0F#8) else none)
    match p with
    | some (i, c) =>
      let (d, o) := Device.opFails d o (localForm (a + 4 * i)) c
      (d, { o with phase := o.phase + 1 })
    | none =>
      match Device.engTarget d o (o.laneG l) z with
      | .error c =>
        let (d, o) := Device.opFails d o (o.laneG l) c
        (d, { o with phase := o.phase + 1 })
      | .ok t =>
        (Device.engStore d o t (Device.sramRead d cl a z),
          { o with phase := o.phase + 1, wrote := o.wrote ++ (List.range z).map (fun i => t.pa + i) })

/-- The tiles of a copy. -/
def EngOp.tiles (o : EngOp) : Nat :=
  match o.kind with
  | .cpt => ((TRec.of o.desc).foot + 127) / 128
  | .cpts => ((TRec.of o.desc).foot + 127) / 128
  | .tdesc => 0
  | _ => o.copyLanes.length

/-- Is a workgroup that a copy writes into saved: the copy waits for its restore (DESIGN CHOICE 66). -/
def Device.dstSaved (d : Device) (o : EngOp) : Bool := o.dstWgs.any (fun g => d.saved.any (fun v => v.wgs.any (fun e => e.1 == g)))

/-- Does a workgroup that a copy writes into run on another cluster than the copy, since one of the two was saved and restored. -/
def Device.dstAway (d : Device) (o : EngOp) : Bool := o.dstWgs.any (fun g => match Tbl.get? d.wgs g with
  | some x => x.core / 8 != o.core / 8
  | none => false)

/-- A copy that can reach its destination no more fails with 0x07 (DESIGN CHOICE 66): what it has not written there is poisoned (R183). -/
def Device.copyLost (d : Device) (o : EngOp) : Device × EngOp :=
  let (d, o) := Device.opFails d o 0 0x07
  let left : List (Nat × Nat) :=
    if o.kind == .cpt then o.aux.map (fun b => (b + 128 * o.phase, 32 * (o.tiles - o.phase)))
    else (o.copyLanes.drop o.phase).map (fun l => ((o.laneL l).toNat, laneCopySize (o.scal.getD 3 0) / 4))
  let cl (a : Nat) : Nat := ((o.dstWgs.find? (fun g => (Device.wg d g).core % 8 == a / 2 ^ 20)).map (fun g => (Device.wg d g).core / 8)).getD (o.core / 8)
  (left.foldl (fun d r => Device.setSramPois d (cl r.1) r.1 r.2 true) d, { o with phase := o.tiles })

/-- One tile of a copy in flight, as its wave's fences order it (R242); none once its gang is being saved (R269). -/
def Device.copyTile (d : Device) (id : Nat) : Device :=
  match Device.op? d id with
  | none => d
  | some o =>
    if o.cls != 2 || o.phase ≥ o.tiles || Device.opSaving d o || !Device.mayAct d o || Device.dstSaved d o then d
    else if Device.dstAway d o then
      let (d, o) := Device.copyLost d o
      Device.setOp d o
    else
      let (d, o) := match o.kind with
        | .cpt => Device.tileCpt d o
        | .cpts => Device.tileCpts d o
        | .cpl => Device.tileCpl d o
        | _ => Device.tileCpls d o
      Device.setOp d o

/-- The arrival of a copy on the barrier of each destination workgroup (R268); on a register whose E is 0 it is discarded (R253). -/
def Device.copyArrive (d : Device) (o : EngOp) : Device :=
  match o.bar with
  | none => d
  | some b => o.dstWgs.foldl (fun d g =>
      match Tbl.get? d.wgs g with
      | none => d
      | some wg =>
        let x := Workgroup.bar wg b
        if x.e == 0 then d
        else Device.setWg d g { wg with bars := putAt wg.bars b (Bar.arrive x o.err.isSome (match o.err with | some (_, c) => c | none => 0)) Bar.zero }) d

/-- A `tdesc` reads its record and writes its slot, in one step, and is complete (R258); a fault leaves the slot poisoned. -/
def Device.descArrive (d : Device) (o : EngOp) : Device :=
  let a := pair64 (o.scal.getD 0 0) (o.scal.getD 1 0)
  let put (d : Device) (x : Desc) : Device :=
    let g := Device.wg d o.wg
    if Tbl.has d.wgs o.wg then Device.setWg d o.wg { g with descs := putAt g.descs o.reg x ⟨List.replicate 256 0, false⟩ } else d
  Device.endOp (match Device.vread d (Device.engAgent d o) o.asid .r a 256 with
    | .ok bs => put d ⟨bs, false⟩
    | .error c => Device.notePoison (put d ⟨List.replicate 256 0, true⟩) o.wave a c) o

/-- COPY_ARRIVAL (R268, R240): a copy all of whose tiles are done arrives and completes; a `tdesc` is performed. -/
def execEvCopyArrival (op : Nat) (s : State) : Res :=
  match Device.op? s.dev op with
  | none => .next s
  | some o =>
    if o.cls != 2 || o.phase < o.tiles || !Device.mayAct s.dev o || Device.dstSaved s.dev o then .next s
    else if o.kind == .tdesc then .next { s with dev := Device.descArrive s.dev o }
    else .next { s with dev := Device.endOp (Device.copyArrive (Device.linesDone s.dev o.id o.lines) o) o }

/-- TDESC (R258): an operation of class 2 that takes no queue entry; the slot is its destination (R82). -/
def execTdesc (o : E1) (s : State) : Res :=
  let n := o.s.toNat
  let L := s.ctx.lanes
  let a := State.sc64 s n
  let sl := (State.sc s (n + 2)).v.toNat
  if State.scPois s n 3 then .next (State.trap s 0x05 L 0)
  else if sl ≥ 16 then .next (State.trap s 0x03 L 0)
  else if !canonical a then .next (State.trap s 0x07 L a)
  else if a.toNat % 256 != 0 then .next (State.trap s 0x08 L a)
  else if State.classFull s 2 then .next (State.hold s .long)
  else
    let op := { State.engOp s .tdesc 2 with scal := (List.range 2).map (fun i => (State.sc s (n + i)).v), reg := sl, dests := [.desc sl], fired := true }
    let s := State.useId { s with dev := { s.dev with ops := s.dev.ops ++ [op] } }
    .next (State.mapWave s (fun w => Wave.addOut w ⟨op.id, 2, false, op.dests, []⟩))

/-- The lines of scratchpad banks that byte ranges touch, each once (R183). -/
def Device.spadLines (d : Device) (cl : Nat) (rs : List (Nat × Nat)) : List Nat :=
  let ls := rs.flatMap (fun r => (List.range ((r.1 + r.2 + 127) / 128 - r.1 / 128)).map (fun i => r.1 / 128 + i))
  (ls.foldl NSet.ins []).filter (fun l => Cluster.modeOf (Device.cluster d cl) (l / 1024) == .spad)

/-- Makes lines absent for an operation (R183). -/
def Device.linesAbsent (d : Device) (cl id : Nat) (ls : List Nat) : Device :=
  let c := Device.cluster d cl
  Device.setCluster d cl { c with absent := ls.foldl (lineIns id) c.absent }

/-- The workgroups that hold an allocation a copy writes (R268). -/
def Device.allocOwners (d : Device) (cl : Nat) (rs : List (Nat × Nat)) : List Nat :=
  ((Device.allocs d cl).filter (fun e => rs.any (fun r => r.1 < e.2.1 + e.2.2 && e.2.1 < r.1 + r.2))).foldl (fun l e => NSet.ins l e.1) []

/-- The barrier of a block's BE and barrier bits (R265, R266). -/
def blockBar (x : Word) : Option Nat := if bitOf x.toNat 8 then some (bitsOf x.toNat 7 4) else none

/-- A lane copy (R265). -/
def State.laneCopy (s : State) (o : E3) (kind : EngKind) : State :=
  let n := o.s.toNat
  let L := s.ctx.lanes &&& ~~~(Wave.helpers (State.src s))
  let s3 := (State.sc s (n + 3)).v
  let row (v : Nat) : List Word := mkLanes (fun l => if s.ctx.lanes.getLsbD l then (State.elem s v l).v else 0)
  let op := { State.engOp s kind 2 with
    scal := (List.range 4).map (fun i => (State.sc s (n + i)).v), rows := [row o.a.toNat, row o.b.toNat], bar := blockBar s3 }
  let z := laneCopySize s3
  let gid := (State.src s).wg
  let order (k l : Nat) : Bool :=
    match Device.localFault s.pre gid (op.laneL l) z with
    | some (j, _) => j == k
    | none => false
  let pois (l : Nat) : Bool := (State.elem s o.a.toNat l).p || (State.elem s o.b.toNat l).p
  let lf (l : Nat) : DWord := BitVec.ofNat 64 (2 ^ 63 + wrap (op.laneL l) 23)
  let tests : List (BitVec 8 × (Nat → Bool) × (Nat → DWord)) :=
    [(0x05, pois, fun _ => 0),
     (0x07, (fun l => !canonical (op.laneG l)), op.laneG),
     (0x07, order 1, lf), (0x14, order 2, lf), (0x07, order 3, lf),
     (0x08, (fun l => (op.laneG l).toNat % z != 0 || op.laneL l % (z : Int) != 0),
       fun l => if (op.laneG l).toNat % z != 0 then op.laneG l else lf l)]
  if L == 0 then (if State.classFull s 2 then State.hold s .long else State.doneOp s 2)
  else if bitsOf s3.toNat 31 9 != 0 || bitsOf s3.toNat 3 2 != 0 || bitsOf s3.toNat 1 0 == 3 then State.trap s 0x03 L 0
  else if State.scPois s n 4 then State.trap s 0x05 L 0
  else match tests.find? (fun t => (L &&& maskOf t.2.1) != 0) with
    | some t =>
      let m := L &&& maskOf t.2.1
      State.trap s t.1 m (t.2.2 ((lanesOf m).headD 0))
    | none =>
      let cl := State.clOf s
      let rs := (lanesOf L).map (fun l => ((op.laneL l).toNat, z))
      if kind == .cpls then State.enqueue s { op with sites := rs, dstWgs := [gid] }
      else
        let lines := Device.spadLines s.dev cl rs
        let op := { op with lines := lines, sites := rs, dstWgs := Device.allocOwners s.dev cl rs }
        State.enqueue { s with dev := Device.linesAbsent s.dev cl op.id lines } op

/-- CPL (R265). -/
def execCpl (o : E3) (s : State) : Res := .next (State.laneCopy s o .cpl)
/-- CPLS (R265). -/
def execCpls (o : E3) (s : State) : Res := .next (State.laneCopy s o .cpls)

/-- A descriptor slot of the current workgroup, as the turn began. -/
def State.slot (s : State) (i : Nat) : Desc := (State.wgOf s).descs.getD i ⟨List.replicate 256 0, false⟩

/-- The fate of local ranges under R178 orders 1, 2, 3: the code of the first failing order, and the range's base. -/
def Device.footFault (d : Device) (gid : Nat) (rs : List (Nat × Nat)) : Option (BitVec 8 × Nat) :=
  let fs := rs.filterMap (fun r => (Device.localFault d gid (r.1 : Int) r.2).map (fun f => (f.1, f.2, r.1)))
  let pick (k : Nat) : Option (BitVec 8 × Nat) := (fs.find? (fun f => f.1 == k)).map (fun f => (f.2.1, f.2.2))
  ((pick 1).or (pick 2)).or (pick 3)

/-- A box copy (R266, R267). One that only helper lanes issue is performed, and arrives, like any other (DESIGN CHOICE 78: R87 suppresses the copies of a helper lane, R266 makes a box copy one per subset). -/
def State.boxCopy (s : State) (o : E1) (kind : EngKind) : State :=
  let n := o.s.toNat
  let L := s.ctx.lanes
  let s0 := (State.sc s n).v.toNat
  let d := State.slot s (bitsOf s0 3 0)
  let t := TRec.of d.bytes
  let known := !d.pois && t.rankOk
  let k := 2 + (if known then t.rank else 0)
  let scal := (List.range k).map (fun i => (State.sc s (n + i)).v)
  let c := boxOrigin scal t.rank
  let base := (State.sc s (n + 1)).v.toNat
  let rm := bitsOf s0 13 12
  let cm := bitsOf s0 19 16
  let gid := (State.src s).wg
  let cl := State.clOf s
  let dests := boxDests s0 base
  if bitsOf s0 31 20 != 0 || bitsOf s0 15 14 != 0 || bitsOf s0 11 9 != 0 || (rm == 0) != (cm == 0)
      || (kind == .cpts && (rm != 0 || cm != 0)) || (known && n + 1 + t.rank > 255) then State.trap s 0x03 L 0
  else if State.scPois s n k || d.pois then State.trap s 0x05 L 0
  else if t.bad || t.originBad c then State.trap s 0x0E L 0
  else if base % 128 != 0 then State.trap s 0x08 L (localForm base)
  else match Device.footFault s.pre gid (dests.map (fun b => (b, t.foot))) with
    | some (c, b) => State.trap s c L (localForm b)
    | none =>
      let op := { State.engOp s kind 2 with scal := scal, desc := d.bytes, aux := dests, bar := blockBar (State.sc s n).v }
      let rs := dests.map (fun b => (b, t.foot))
      if kind == .cpts then State.enqueue s { op with sites := rs, dstWgs := [gid] }
      else
        let lines := Device.spadLines s.dev cl rs
        State.enqueue { s with dev := Device.linesAbsent s.dev cl op.id lines }
          { op with lines := lines, sites := rs, dstWgs := Device.allocOwners s.dev cl rs }

/-- CPT (R266, R267). -/
def execCpt (o : E1) (s : State) : Res := .next (State.boxCopy s o .cpt)
/-- CPTS (R266). -/
def execCpts (o : E1) (s : State) : Res := .next (State.boxCopy s o .cpts)

end Sys2Proof.Machine
end

