-- ==== Sys2Proof/Machine/Matrix.lean ====
section
/-! DEFINITION. Matrix pairs (R273 to R298): format and shape, operand descriptors, stationary slots, streaming and accumulation, drains, clearing and status. -/

namespace Sys2Proof.Machine

/-- Puts n values in place from a key on. -/
def Tbl.block {α : Type} (t : Tbl α) (lo n : Nat) (f : Nat → α) : Tbl α :=
  t.filter (fun e => e.1 < lo) ++ (List.range n).map (fun i => (lo + i, f i)) ++ t.filter (fun e => lo + n ≤ e.1)

/-- Sets membership of n numbers from one on. -/
def NSet.block (t : NSet) (lo n : Nat) (f : Nat → Bool) : NSet :=
  t.filter (fun x => x < lo) ++ ((List.range n).filter f).map (fun i => lo + i) ++ t.filter (fun x => lo + n ≤ x)

/-- The floating format of an element type code (R39); integer types have none. -/
def fmtOfType (t : Nat) : Fmt :=
  match t with
  | 0 => f32
  | 1 => f16
  | 2 => bf16
  | 3 => f8e4
  | 4 => f8e5
  | _ => f4

/-- ATY of FMT (R278). -/
def fmtA (f : Word) : Nat := bitsOf f.toNat 3 0
/-- BTY of FMT. -/
def fmtB (f : Word) : Nat := bitsOf f.toNat 7 4
/-- ACC of FMT. -/
def fmtAcc (f : Word) : Bool := bitOf f.toNat 11
/-- MX of FMT. -/
def fmtMx (f : Word) : Bool := bitOf f.toNat 12
/-- DRM of FMT. -/
def fmtDrm (f : Word) : Nat := bitsOf f.toNat 15 13
/-- The element width of FMT. -/
def fmtW (f : Word) : Nat := typeBits (fmtA f)
/-- Products of a cell: c = 16 / w (R282). -/
def fmtC (f : Word) : Nat := 16 / fmtW f
/-- The K extent of a pass (R282). -/
def fmtK (f : Word) : Nat := 64 * fmtC f

/-- A wave may use a pair (R274): it runs on the pair's leader core and its gang owns the pair. -/
def State.matRights (s : State) : Bool :=
  let w := State.src s
  w.core % 2 == 0 && Device.pairOwner s.pre (pairOf w.core) == some (State.wgOf s).gang

/-- FMT (R278). -/
def execFmt (o : E1) (s : State) : Res :=
  let v := State.sc s o.s.toNat
  if v.p then .next (State.trap s 0x05 s.ctx.lanes 0)
  else if !fmtOk v.v then .next (State.trap s 0x03 s.ctx.lanes 0)
  else .next (State.mapWave s (fun w => { w with fmt := v.v }))

/-- MSHAPE (R279). -/
def execMshape (o : E1) (s : State) : Res :=
  let v := State.sc s o.s.toNat
  if v.p then .next (State.trap s 0x05 s.ctx.lanes 0)
  else if !shapeOk v.v then .next (State.trap s 0x03 s.ctx.lanes 0)
  else .next (State.mapWave s (fun w => { w with shape := v.v.setWidth 6 }))

/-- An operand descriptor's fields (R281). -/
structure MDesc where
  kind  : Nat
  ord   : Bool
  swiz  : Bool
  rows  : Nat
  cols  : Nat
  pitch : Nat
  soff  : Nat
  zero  : Nat
  base  : Nat
  deriving DecidableEq, Repr

/-- The descriptor in two scalars (R281). PITCH is in bytes. -/
def MDesc.of (lo hi : Word) : MDesc :=
  let n := (pair64 lo hi).toNat
  ⟨bitsOf n 63 61, bitOf n 60, bitOf n 59, bitsOf n 58 50, bitsOf n 49 41, 16 * bitsOf n 40 33, bitsOf n 32 25, bitsOf n 24 23, bitsOf n 22 0⟩

/-- Scale blocks of a stored row (R285). -/
def MDesc.blocks (m : MDesc) : Nat := (m.cols + 31) / 32

/-- The footprint of kinds 0 and 1 (R284). -/
def MDesc.foot (m : MDesc) (mx : Bool) : Nat := max (m.rows * m.pitch) (if mx then 128 * m.soff + m.rows * m.blocks else 0)

/-- The reserved fields of a descriptor, reported at step 5 (R275, R281), before the limit on A. -/
def MDesc.reserved (m : MDesc) (mx : Bool) : Bool :=
  m.kind > 2 || m.zero != 0 || (m.kind == 1 && m.base / 32 != 0)
  || (m.kind == 2 && (m.base / 16 != 0 || m.pitch != 0 || m.swiz || m.soff != 0)) || (!mx && m.soff != 0)

/-- The limits of ROWS and COLS (R282): `stat` for the stationary operand. -/
def MDesc.limits (m : MDesc) (stat : Bool) (k : Nat) : Nat × Nat :=
  match stat, m.ord with
  | true, false => (k, 128)
  | true, true => (128, k)
  | false, false => (64, k)
  | false, true => (k, 64)

/-- The geometry rules of R284 that no record decides. -/
def MDesc.badGeom (m : MDesc) (stat : Bool) (f : Word) : Bool :=
  let w := fmtW f
  let l := m.limits stat (fmtK f)
  m.rows == 0 || m.cols == 0 || m.rows > l.1 || m.cols > l.2
  || (m.ord && m.cols * w / 8 % 128 != 0)
  || (fmtMx f && (if stat then !m.ord else m.ord))
  || (w == 4 && m.cols % 2 == 1)
  || (m.kind != 2 && (m.pitch == 0 || m.pitch < m.cols * w / 8 || (m.swiz && m.pitch % 128 != 0)))

/-- The geometry rules of R284 on a tensor record. -/
def MDesc.badRecord (t : TRec) (ty : Nat) (mx : Bool) (c0 : Int) : Bool :=
  t.bad || t.rank < 2 || t.typ != ty || t.mx != mx || (mx && c0 % 32 != 0)

/-- Where an element or code of an operand lies: nowhere, at an SRAM byte and bit, or at a global byte and bit. -/
inductive MSrc where
  | none
  | sram (a sh : Nat)
  | glob (a : DWord) (sh : Nat)
  deriving DecidableEq, Repr

/-- The element type of an operand of an operation. -/
def EngOp.elemType (o : EngOp) (stat : Bool) : Nat := if stat then fmtB o.fmt else fmtA o.fmt

/-- The descriptor of an operation. -/
def EngOp.mdesc (o : EngOp) : MDesc := MDesc.of (o.scal.getD 0 0) (o.scal.getD 1 0)

/-- The start of a local tile or ring entry of an operation (R282). -/
def EngOp.tileBase (o : EngOp) (m : MDesc) : Nat := if m.kind == 1 then o.entries.headD 0 else m.base

/-- The coordinates of a kind 2 descriptor. -/
def EngOp.coords (o : EngOp) : List Int := (o.scal.drop 2).map (fun x => x.toInt)

/-- Where logical element (a, b) lies (R282): (k, n) of the stationary operand, (r, k) of the streaming one. -/
def EngOp.elemAt (o : EngOp) (a b : Nat) : MSrc :=
  let m := o.mdesc
  let w := fmtW o.fmt
  let (i, j) := if m.ord then (b, a) else (a, b)
  if i ≥ m.rows || j ≥ m.cols then .none
  else if m.kind == 2 then
    let t := TRec.of o.desc
    let c := o.coords
    let x0 := c.getD 0 0 + (j : Int)
    let xs := match (c.take t.rank).drop 1 with
      | [] => []
      | y :: r => (y + (i : Int)) :: r
    if 0 ≤ x0 && x0 < (t.size.getD 0 0 : Int) && t.within 1 xs then .glob (t.addr x0 xs) (if w == 4 then (x0 % 2).toNat * 4 else 0)
    else .none
  else
    let q := j * w / 8
    .sram (o.tileBase m + (if m.swiz then swz i q m.pitch else i * m.pitch + q)) (if w == 4 then j % 2 * 4 else 0)

/-- Where the scale code of block j of stored row i lies (R285). -/
def EngOp.codeAt (o : EngOp) (i j : Nat) : MSrc :=
  let m := o.mdesc
  if !fmtMx o.fmt || i ≥ m.rows || 32 * j ≥ m.cols then .none
  else if m.kind == 2 then
    let t := TRec.of o.desc
    let c := o.coords
    let x := c.getD 0 0 + 32 * (j : Int)
    let xs := match (c.take t.rank).drop 1 with
      | [] => []
      | y :: r => (y + (i : Int)) :: r
    if t.within 1 xs && x + 31 ≥ 0 && x < (t.size.getD 0 0 : Int) then
      .glob (BitVec.ofInt 64 (t.mxbase + x / 32 + TRec.offset t (32 * t.w / 8) 1 xs)) 0
    else .none
  else .sram (o.tileBase m + 128 * m.soff + i * m.blocks + j) 0

/-- A value read for an operand: its bits, its poison, and a fault of R296. -/
structure MVal where
  v   : Nat
  p   : Bool
  err : Option (DWord × BitVec 8)
  deriving DecidableEq, Repr

/-- Where a global byte of an operand stands in cluster SRAM, when its page maps place 0x1 (R197): cluster and local address. -/
def Device.globSram (d : Device) (o : EngOp) (a : DWord) : Option (Nat × Nat) :=
  match Device.translate d (256 + o.core / 8) o.asid .r a 1 with
  | .ok t => if placeOf t.pa == 1 then some (sramCl t.pa, sramOff t.pa) else none
  | .error _ => none

/-- Reads w bits of an operand (R282, R285, R296); `dflt` is +0 or code 127. What stands in SRAM keeps its poison bit, through a page of place 0x1 too (R197). -/
def Device.mread (d : Device) (o : EngOp) (w dflt : Nat) : MSrc → MVal
  | .none => ⟨dflt, false, none⟩
  | .sram a sh =>
    let cl := o.core / 8
    ⟨ofLeBytes (Device.sramRead d cl a ((w + 7) / 8)) / 2 ^ sh % 2 ^ w, Device.sramPois d cl a, none⟩
  | .glob a sh =>
    match Device.vreadN d (clusterAgent (o.core / 8)) o.asid .r a ((w + 7) / 8) with
    | .ok bs => ⟨ofLeBytes bs / 2 ^ sh % 2 ^ w, (Device.globSram d o a).any (fun e => Device.sramPois d e.1 e.2), none⟩
    | .error c => ⟨dflt, true, some (a, c)⟩

/-- Is a source a byte of an absent line (R285). -/
def Device.mabsent (d : Device) (o : EngOp) : MSrc → Bool
  | .none => false
  | .sram a _ => Device.lineAbsent d (o.core / 8) a
  | .glob a _ => (Device.globSram d o a).any (fun e => Device.lineAbsent d e.1 e.2)

/-- An element of the stationary operand of an `mload`. -/
def Device.wElem (d : Device) (o : EngOp) (k n : Nat) : MVal := Device.mread d o (fmtW o.fmt) 0 (o.elemAt k n)

/-- A scale code of the stationary operand: K runs along its stored rows (R283). -/
def Device.wCode (d : Device) (o : EngOp) (n j : Nat) : MVal :=
  if 32 * j < fmtK o.fmt then Device.mread d o 8 127 (o.codeAt n j) else ⟨127, false, none⟩

/-- All elements of a stationary tile, as (k, n). -/
def EngOp.wIndex (o : EngOp) : List (Nat × Nat) := (List.range (fmtK o.fmt)).flatMap (fun k => (List.range 128).map (fun n => (k, n)))

/-- All codes of a slot, as (n, j). -/
def codeIndex : List (Nat × Nat) := (List.range 128).flatMap (fun n => (List.range 8).map (fun j => (n, j)))

/-- Records the first failure of a matrix operation and marks FLT to be set (R296). -/
def Device.matFault (d : Device) (o : EngOp) (e : Option (DWord × BitVec 8)) : Device × EngOp :=
  match e with
  | none => (d, o)
  | some (a, c) =>
    let (d, o) := Device.opFails d o a c
    (d, { o with aux := 2 :: o.aux })

/-- The place of a slot's cell: slot, cell row, column (R286). -/
def cellKey (j i n : Nat) : Nat := j * 8192 + i * 128 + n
/-- The place of a slot's scale code. -/
def codeKey (j n b : Nat) : Nat := (j * 128 + n) * 8 + b
/-- The place of a bank's element. -/
def bankKey (b r n : Nat) : Nat := b * 8192 + r * 128 + n
/-- The place of a scale code's poison, beyond that of the cells' four quarters. -/
def codePoisKey (j n b : Nat) : Nat := 65536 + codeKey j n b

/-- The effect of `mload` (R287), in one step as it retires. -/
def Device.loadSlot (d : Device) (o : EngOp) : Device × EngOp :=
  let j := o.reg
  let w := fmtW o.fmt
  let c := fmtC o.fmt
  let pi := pairOf o.core
  let p := Device.pair d pi
  let cell (x : Nat) : BitVec 16 :=
    BitVec.ofNat 16 ((List.range c).foldl (fun acc q => acc + (Device.wElem d o (c * (x / 128) + q) (x % 128)).v * 2 ^ (w * q)) 0)
  let quarter (x : Nat) : Bool :=
    (Device.wElem d o (c * (x / 4 / 128) + x % 4 * 4 / w) (x / 4 % 128)).p
  let errs := (o.wIndex.filterMap (fun e => (Device.wElem d o e.1 e.2).err))
    ++ (codeIndex.filterMap (fun e => (Device.wCode d o e.1 e.2).err))
  let p := { p with
    slots := Tbl.block p.slots (cellKey j 0 0) 8192 cell
    scales := Tbl.block p.scales (codeKey j 0 0) 1024 (fun x => (Device.wCode d o (x / 8) (x % 8)).v)
    slotP := NSet.block (NSet.block p.slotP (4 * cellKey j 0 0) 32768 quarter) (codePoisKey j 0 0) 1024
      (fun x => (Device.wCode d o (x / 8) (x % 8)).p) }
  Device.matFault (Device.setPair d pi p) o errs.head?

/-- An element k of a slot's column n under a width: bits and poison (R286). -/
def Pair.slotElem (p : Pair) (w j k n : Nat) : Nat × Bool :=
  let c := 16 / w
  let x := cellKey j (k / c) n
  ((Tbl.getD p.slots x 0).toNat / 2 ^ (w * (k % c)) % 2 ^ w,
   (List.range (w / 4)).any (fun q => p.slotP.contains (4 * x + k % c * w / 4 + q)))

/-- A scale code of a slot: the code and its poison. -/
def Pair.slotCode (p : Pair) (j n b : Nat) : Nat × Bool := (Tbl.getD p.scales (codeKey j n b) 127, p.slotP.contains (codePoisKey j n b))

/-- The streaming operand's element (r, k) of an `mmul` (R282, R288). -/
def Device.aElem (d : Device) (o : EngOp) (r k : Nat) : MVal :=
  let w := fmtW o.fmt
  if o.ctl / 16 % 2 == 1 then
    let per := 32 / w
    ⟨((o.rows.getD (k / per) []).getD r 0).toNat / 2 ^ (w * (k % per)) % 2 ^ w, false, none⟩
  else Device.mread d o w 0 (o.elemAt r k)

/-- The streaming operand's scale code of row r, block b (R285, R288). -/
def Device.aCode (d : Device) (o : EngOp) (r b : Nat) : MVal :=
  if !fmtMx o.fmt then ⟨127, false, none⟩
  else if o.ctl / 16 % 2 == 1 then ⟨byteOf ((o.rows.getD (32 + b / 4) []).getD r 0) (b % 4), false, none⟩
  else Device.mread d o 8 127 (o.codeAt r b)

/-- The active K indices of a captured shape (R289). -/
def EngOp.activeK (o : EngOp) : List Nat := (List.range (fmtK o.fmt)).filter (fun k => o.shape.getLsbD (k / fmtC o.fmt / 16))

/-- Does a row pass wait for an absent line (R285). -/
def Device.rowWaits (d : Device) (o : EngOp) (r : Nat) : Bool :=
  o.ctl / 16 % 2 == 0 && o.activeK.any (fun k => Device.mabsent d o (o.elemAt r k) || Device.mabsent d o (o.codeAt r (k / 32)))

/-- An integer element (R289). -/
def intElem (ty v : Nat) : Int := if ty == 10 then sext v 8 else (v % 256 : Nat)

/-- The sum of a row pass into one bank element (R70, R289): the old bits, the operands as (A, SA, W, SW). -/
def rowSum (f : Word) (old : Word) (ps : List (Nat × Nat × Nat × Nat)) : Word :=
  if fmtAcc f then
    wrap32 (old.toInt + ps.foldl (fun acc p => acc + intElem (fmtA f) p.1 * intElem (fmtB f) p.2.2.1) 0)
  else
    BitVec.ofNat 32 (rowsumF old.toNat (ps.map (fun p =>
      Fv.mul (mxDequant (fmtOfType (fmtA f)) p.2.1 p.1) (mxDequant (fmtOfType (fmtB f)) p.2.2.2 p.2.2.1))))

/-- One row pass of an `mmul` (R289). -/
def Device.mmulRow (d : Device) (o : EngOp) (r : Nat) : Device × EngOp :=
  let pi := pairOf o.core
  let p := Device.pair d pi
  let f := o.fmt
  let w := fmtW f
  let b := o.ctl % 4
  let j := o.ctl / 4 % 2
  let z := o.ctl / 8 % 2 == 1
  let ks := o.activeK
  let as := ks.map (fun k => (k, Device.aElem d o r k, Device.aCode d o r (k / 32)))
  let elem (n : Nat) : Word × Bool :=
    let bs := as.map (fun a =>
      let e := Pair.slotElem p w j a.1 n
      let c := if fmtMx f then Pair.slotCode p j n (a.1 / 32) else (127, false)
      ((a.2.1.v, a.2.2.v, e.1, c.1), a.2.1.p || a.2.2.p || e.2 || c.2))
    let x := bankKey b r n
    let old : Word := if z then 0 else Tbl.getD p.banks x 0
    let op := !z && p.bankP.contains x
    (rowSum f old (bs.map (fun e => e.1)), op || bs.any (fun e => e.2))
  let half (p : Pair) (h : Nat) : Pair :=
    if o.shape.getLsbD (4 + h) then
      { p with banks := Tbl.block p.banks (bankKey b r (64 * h)) 64 (fun i => (elem (64 * h + i)).1)
               bankP := NSet.block p.bankP (bankKey b r (64 * h)) 64 (fun i => (elem (64 * h + i)).2) }
    else p
  let err := as.findSome? (fun a => a.2.1.err.or a.2.2.err)
  Device.matFault (Device.setPair d pi (half (half p 0) 1)) o err

/-- A drain's control word (R292). -/
structure DCtl where
  scl  : Bool
  swiz : Bool
  sat  : Bool
  mxo  : Bool
  oty  : Nat
  nc   : Nat
  c0   : Nat
  deriving DecidableEq, Repr

/-- The fields of s[A]. -/
def DCtl.of (x : Word) : DCtl :=
  let n := x.toNat
  ⟨bitOf n 30, bitOf n 23, bitOf n 22, bitOf n 21, bitsOf n 19 16, bitsOf n 15 8 + 1, bitsOf n 7 0⟩

/-- Output bytes of a row (R292). -/
def DCtl.rb (c : DCtl) : Nat := c.nc * typeBits c.oty / 8

/-- Where a tile's scale codes start, from its base. -/
def DCtl.codeOff (pitch : Nat) : Nat := (64 * pitch + 127) / 128 * 128

/-- The footprint of a tile or ring entry (R292). -/
def DCtl.foot (c : DCtl) (pitch : Nat) : Nat := if c.mxo then DCtl.codeOff pitch + 64 * (c.nc / 32) else 64 * pitch

/-- A bank's element: bits and poison. -/
def Pair.bankElem (p : Pair) (b r n : Nat) : Word × Bool := (Tbl.getD p.banks (bankKey b r n) 0, p.bankP.contains (bankKey b r n))

/-- A drain's stochastic draw (R69): the seed, the workgroup linear index, bank, row, column. -/
def EngOp.draw (o : EngOp) (r n : Nat) : Nat :=
  (mix32 (BitVec.ofNat 32 (bitsOf o.fmt.toNat 31 16)) (BitVec.ofNat 32 o.reg) (BitVec.ofNat 32 (o.ctl % 4 * 8192 + r * 128 + n))).toNat

/-- The value of an element before conversion (R294). -/
def EngOp.drainValue (o : EngOp) (c : DCtl) (x : Word) : Fv :=
  if c.scl then Fv.mul (Fmt.value f32 x.toNat) (Fmt.value f32 (o.scal.getD 1 0).toNat) else Fmt.value f32 x.toNat

/-- A converted row (R294): the elements' codes, the scale codes, whether a block overflowed. -/
def EngOp.drainRow (o : EngOp) (c : DCtl) (p : Pair) (r : Nat) : List Nat × List Nat × Bool :=
  let cols := (List.range c.nc).map (fun i => c.c0 + i)
  let x (n : Nat) : Word := (Pair.bankElem p (o.ctl % 4) r n).1
  if fmtAcc o.fmt then
    (cols.map (fun n => match c.oty with
      | 8 => wrap (satI (x n).toInt 16) 16
      | 10 => wrap (satI (x n).toInt 8) 8
      | _ => (x n).toNat), [], false)
  else if c.mxo then
    let bl := (List.range (c.nc / 32)).map (fun j =>
      let ns := (List.range 32).map (fun i => c.c0 + 32 * j + i)
      mxQuant (fmtOfType c.oty) (fmtDrm o.fmt) (ns.map (fun n => o.draw r n)) (ns.map (fun n => o.drainValue c (x n))))
    (bl.flatMap (fun b => b.2.1), bl.map (fun b => b.1), bl.any (fun b => b.2.2))
  else
    (cols.map (fun n => Fmt.round (fmtOfType c.oty) (fmtDrm o.fmt) c.sat false (o.draw r n) (o.drainValue c (x n))), [], false)

/-- The bytes of a row of element codes of width w. -/
def packRow (w : Nat) : List Nat → List Byte
  | [] => []
  | [a] => leBytes ((w + 7) / 8) a
  | a :: b :: r => if w == 4 then BitVec.ofNat 8 (a % 16 + 16 * b) :: packRow w r else leBytes (w / 8) a ++ packRow w (b :: r)

/-- The poisoned columns of a drained row, by byte of the row. -/
def EngOp.rowPois (o : EngOp) (c : DCtl) (p : Pair) (r q : Nat) : Bool :=
  let w := typeBits c.oty
  (List.range (max 1 (8 / w))).any (fun i => (Pair.bankElem p (o.ctl % 4) r (c.c0 + q * 8 / w + i)).2)

/-- `.clr` on a row (R293, R294): the elements drained become +0, poison clear. -/
def Pair.clearRow (p : Pair) (b r c0 nc : Nat) : Pair :=
  { p with banks := Tbl.block p.banks (bankKey b r c0) nc (fun _ => 0), bankP := NSet.block p.bankP (bankKey b r c0) nc (fun _ => false) }

/-- Writes a drained row into SRAM at a base (R295, R296): a 4-byte element that receives a poisoned one is poisoned. -/
def Device.drainLocal (d : Device) (o : EngOp) (c : DCtl) (base pitch r : Nat) (bs : List Byte) (codes : List Nat) (pois : Nat → Bool) : Device :=
  let cl := o.core / 8
  let place (q : Nat) : Nat := base + (if c.swiz then swz r q pitch else r * pitch + q)
  let d := (List.range ((bs.length + 3) / 4)).foldl (fun d k =>
    let b := (bs.drop (4 * k)).take 4
    let d := Device.arriveWrite d cl o.id (place (4 * k)) b
    if (List.range b.length).any (fun i => pois (4 * k + i)) then Device.setSramPois d cl (place (4 * k)) 1 true
    else if b.length == 4 then Device.setSramPois d cl (place (4 * k)) 1 false else d) d
  codes.zipIdx.foldl (fun d e => Device.arriveWrite d cl o.id (base + DCtl.codeOff pitch + r * (c.nc / 32) + e.2) [BitVec.ofNat 8 e.1]) d

/-- Writes one packet of a port drain (R295, R296). -/
def Device.packet (d : Device) (o : EngOp) (a : DWord) (bs : List Byte) : Device × EngOp :=
  let last := a + BitVec.ofNat 64 (bs.length - 1)
  if bs.isEmpty then (d, o)
  else
    let same := a.toNat / 65536 == last.toNat / 65536
    match Device.engTarget d o a (if same then bs.length else 1), Device.engTarget d o last 1 with
    | .error c, _ => Device.matFault d o (some (a, c))
    | .ok _, .error c => if same then Device.matFault d o (some (a, c)) else Device.matFault d o (some (last, c))
    | .ok t, .ok _ =>
      if same then (Device.engStore d o t bs, o)
      else ((List.range bs.length).foldl (fun d i => (Device.engPut d o (a + BitVec.ofNat 64 i) 0xFF (bs.getD i 0)).1) d, o)

/-- The pieces of a row's bytes between 256-byte boundaries of its destination (R295). -/
def pieces (a : DWord) (bs : List Byte) : Nat → List (DWord × List Byte)
  | 0 => []
  | n + 1 =>
    let k := 256 - a.toNat % 256
    if bs.isEmpty then [] else (a, bs.take k) :: pieces (a + BitVec.ofNat 64 k) (bs.drop k) n

/-- One row of a drain to a tile, a ring entry or the port (R294, R295). -/
def Device.drainRowOut (d : Device) (o : EngOp) (r : Nat) : Device × EngOp :=
  let c := DCtl.of (o.scal.getD 0 0)
  let pi := pairOf o.core
  let p := Device.pair d pi
  let (es, codes, ovf) := o.drainRow c p r
  let bs := packRow (typeBits c.oty) es
  let pois := o.rowPois c p r
  let o := if ovf then { o with aux := 0 :: o.aux } else o
  let d := if o.ctl / 32 % 2 == 1 then Device.setPair d pi (Pair.clearRow p (o.ctl % 4) r c.c0 c.nc) else d
  if o.ctl / 4 % 8 == 4 then
    let pitch := (o.scal.getD 4 0).toInt
    let a := pair64 (o.scal.getD 2 0) (o.scal.getD 3 0) + BitVec.ofInt 64 (pitch * r)
    if (List.range bs.length).any pois then
      let (d, o) := Device.opFails d o a 0x05
      (d, { o with aux := 1 :: o.aux })
    else
      let (d, o) := (pieces a bs 3).foldl (fun x e => Device.packet x.1 x.2 e.1 e.2) (d, o)
      if c.mxo then
        Device.packet d o (pair64 (o.scal.getD 6 0) (o.scal.getD 7 0) + BitVec.ofNat 64 (r * (c.nc / 32))) (codes.map (fun x => BitVec.ofNat 8 x))
      else (d, o)
  else
    let base := if o.ctl / 4 % 8 == 3 then o.entries.headD 0 else (o.scal.getD 2 0).toNat
    (Device.drainLocal d o c base (o.scal.getD 3 0).toNat r bs codes pois, o)

/-- The register a drain writes, in a lane (R293). -/
def EngOp.drainReg (o : EngOp) (c : DCtl) (p : Pair) (i l : Nat) : Elem :=
  let x (n : Nat) : Word × Bool := Pair.bankElem p (o.ctl % 4) l n
  if o.ctl / 4 % 8 == 0 then ⟨(x (c.c0 + i)).1, (x (c.c0 + i)).2⟩
  else
    let lo := x (c.c0 + 2 * i)
    let hi := x (c.c0 + 2 * i + 1)
    let cv (n : Nat) (v : Word) : Nat := Fmt.round bf16 (fmtDrm o.fmt) c.sat false (o.draw l n) (Fmt.value f32 v.toNat)
    ⟨packHalves (cv (c.c0 + 2 * i) lo.1) (cv (c.c0 + 2 * i + 1) hi.1), lo.2 || hi.2⟩

/-- A register drain (R293), in one step as it retires; what returns to an exited lane is discarded (R93). -/
def Device.drainRegs (d : Device) (o : EngOp) : Device :=
  let c := DCtl.of (o.scal.getD 0 0)
  let pi := pairOf o.core
  let p := Device.pair d pi
  let d := match Tbl.get? d.waves o.wave with
    | some w =>
      let ids := (List.range o.dests.length).zip o.dests
      Device.setWave d o.wave (ids.foldl (fun w e => Wave.arrive w e.2 (Wave.takes w o e.2) (o.drainReg c p e.1)) w)
    | none => d
  if o.ctl / 32 % 2 == 1 then
    Device.setPair d pi ((lanesOf o.mask).foldl (fun p l => Pair.clearRow p (o.ctl % 4) l c.c0 c.nc) p)
  else d

/-- The operation that the pair works on or may start: the oldest of its stream (R276). -/
def Device.pairHead (d : Device) (p : Nat) : Option EngOp :=
  match (Device.pair d p).stream with
  | [] => none
  | i :: _ => Device.op? d i

/-- Row passes or row packets of an operation that are done one by one. -/
def EngOp.rowsOf (o : EngOp) : Nat :=
  match o.kind with
  | .mmul => 64
  | .mdrain => if o.ctl / 4 % 8 < 2 then 0 else 64
  | _ => 0

/-- PAIR_OP_START (R276, R291): the oldest operation of the stream starts, once its wave's fences let it act (R242), but for one of a gang that is being saved (R277). -/
def execEvPairOpStart (pair : Nat) (s : State) : Res :=
  match Device.pairHead s.dev pair with
  | none => .next s
  | some o => if o.phase == 0 && !Device.opSaving s.dev o && (o.void || Device.mayAct s.dev o) then .next { s with dev := Device.setOp s.dev { o with phase := 1 } } else .next s

/-- A cluster counts the rows that it has injected, for its RAMP (R306). -/
def Cluster.rowDone (c : Cluster) : Cluster := { c with rampRows := c.rampRows + 1 }

/-- The bytes that row r of a tile drain writes. -/
def DCtl.rowSpans (c : DCtl) (base pitch r : Nat) : List (Nat × Nat) :=
  (base + r * pitch, if c.swiz then pitch else c.rb) :: (if c.mxo then [(base + DCtl.codeOff pitch + r * (c.nc / 32), c.nc / 32)] else [])

/-- The lines of a drain that no row after row r writes: they are written (R295). -/
def EngOp.linesWritten (o : EngOp) (r : Nat) : List Nat :=
  let c := DCtl.of (o.scal.getD 0 0)
  o.lines.filter (fun l => !(List.range 64).any (fun q => r < q
    && (c.rowSpans (o.scal.getD 2 0).toNat (o.scal.getD 3 0).toNat q).any (fun e => spansMeet e.1 e.2 (128 * l) 128)))

/-- The input ring entry of an `mmul` is released once its last row has been injected (R289). -/
def Device.rowsInjected (d : Device) (o : EngOp) : Device × EngOp :=
  if o.phase == o.rowsOf + 1 then (Device.dropRings d { o with outs := [] }, { o with ins := [] }) else (d, o)

/-- One row of the operation that the pair works on: a row pass of an `mmul` (R289), a row packet of a drain (R295). A row whose lines are absent waits. -/
def Device.pairRow (d : Device) (pair : Nat) (o : EngOp) : Device :=
  let r := o.phase - 1
  if o.void || o.phase == 0 || r ≥ o.rowsOf then d
  else match o.kind with
    | .mmul =>
      if Device.rowWaits d o r then d
      else
        let (d, o) := Device.mmulRow d o r
        let p := Device.pair d pair
        let d := Device.setPair d pair { p with row := r + 1, quiet := 0 }
        let cl := pair / 4
        let (d, o) := Device.rowsInjected (Device.setCluster d cl (Cluster.rowDone (Device.cluster d cl))) { o with phase := o.phase + 1 }
        Device.setOp d o
    | _ =>
      let (d, o) := Device.drainRowOut d o r
      let ls := o.linesWritten r
      Device.setOp (Device.linesDone d o.id ls) { o with phase := o.phase + 1, lines := o.lines.filter (fun l => !ls.contains l) }

/-- ROW_INJECTION (R289): the next row of the pair's `mmul`. -/
def execEvRowInjection (pair : Nat) (s : State) : Res :=
  match Device.pairHead s.dev pair with
  | none => .next s
  | some o => if o.kind == .mmul then .next { s with dev := Device.pairRow s.dev pair o } else .next s

/-- Does an `mload` wait for an absent line (R285). -/
def Device.loadWaits (d : Device) (o : EngOp) : Bool :=
  o.wIndex.any (fun e => Device.mabsent d o (o.elemAt e.1 e.2)) || codeIndex.any (fun e => Device.mabsent d o (o.codeAt e.1 e.2))

/-- The effect that an operation has as it retires (R287, R293, R297). -/
def Device.pairEffect (d : Device) (o : EngOp) : Device × EngOp :=
  match o.kind with
  | .mload => Device.loadSlot d o
  | .mdrain => if o.rowsOf == 0 then (Device.drainRegs d o, o) else (d, o)
  | .mclr =>
    let pi := pairOf o.core
    let p := Device.pair d pi
    (Device.setPair d pi ((List.range 4).foldl (fun p b => if bitOf o.ctl b then
      { p with banks := Tbl.block p.banks (bankKey b 0 0) 8192 (fun _ => 0), bankP := NSet.block p.bankP (bankKey b 0 0) 8192 (fun _ => false) }
      else p) p), o)
  | _ => (d, o)

/-- PAIR_OP_RETIRE (R276, R291, R296, R298): the oldest operation has done its rows, has its effect, sets its flags and completes. One whose ring was unbound sets FLT alone. -/
def execEvPairOpRetire (pair : Nat) (s : State) : Res :=
  match Device.pairHead s.dev pair with
  | none => .next s
  | some o =>
    if o.phase == 0 || (!o.void && (o.phase < o.rowsOf + 1 || (o.kind == .mload && Device.loadWaits s.dev o)
        || Device.destsOut s.dev o)) then .next s
    else
      let (d, o) := if o.void then Device.matFault s.dev o (some (0, 0x07)) else Device.pairEffect s.dev o
      let d := if o.lines.isEmpty then d else Device.linesDone d o.id o.lines
      let p := Device.pair d pair
      let d := Device.setPair d pair
        { p with stream := p.stream.drop 1, row := 0, sat := p.sat || o.aux.contains 0, perr := p.perr || o.aux.contains 1, flt := p.flt || o.aux.contains 2 }
      .next { s with dev := Device.endOp d o }

/-- What the issue checks of a matrix word answer: a trap, or what the word goes on with. -/
abbrev Chk (α : Type) := Except (BitVec 8 × Mask × DWord) α

/-- A failed check whose TRLM is the subset and whose TRPA is given. -/
def State.fail {α : Type} (s : State) (c : BitVec 8) (a : DWord) : Chk α := .error (c, s.ctx.lanes, a)

/-- Goes on with what the checks answer, or traps. -/
def State.checked {α : Type} (s : State) (c : Chk α) (k : α → State) : Res :=
  match c with
  | .error (code, m, a) => .next (State.trap s code m a)
  | .ok x => .next (k x)

/-- Checks 2 to 4 of R275: rights, poison of n scalars, FMT. -/
def State.matHead (s : State) (pois : Bool) (k : Chk EngOp) : Chk EngOp :=
  if !State.matRights s then State.fail s 0x07 0
  else if pois then State.fail s 0x05 0
  else if (State.src s).fmt == 0 then State.fail s 0x03 0
  else k

/-- Is a footprint larger than the entries of a bound ring, in reach or not: step 6 of R275 stands before the ring's fates. -/
def State.entryShort (s : State) (ring foot : Nat) : Bool :=
  match Tbl.get? (Device.cluster s.dev (State.clOf s)).rings (ring % 32) with
  | some x => foot > 128 * 2 ^ x.esz
  | none => false

/-- The checks of a word with an operand descriptor (R275, R281, R284), and the operation they lead to. -/
def State.descWord (s : State) (n : Nat) (stat : Bool) (op : EngOp) : Chk EngOp :=
  let f := (State.src s).fmt
  let mx := fmtMx f
  let m := MDesc.of (State.sc s n).v (State.sc s (n + 1)).v
  let sl := State.slot s (m.base % 16)
  let t := TRec.of sl.bytes
  let known := m.kind == 2 && !sl.pois && t.rankOk
  let k := 2 + (if known then t.rank else 0)
  let scal := (List.range k).map (fun i => (State.sc s (n + i)).v)
  let ty := if stat then fmtB f else fmtA f
  let c0 := ((scal.drop 2).headD 0).toInt
  let op := { op with scal := scal, desc := if m.kind == 2 then sl.bytes else [], ins := if m.kind == 1 then [(m.base, 1)] else [] }
  let foot := m.foot mx
  let ring := State.ringOf s (BitVec.ofNat 5 m.base)
  State.matHead s (State.scPois s n k)
    (if m.reserved mx || (known && n + 1 + t.rank > 255) then State.fail s 0x03 0
     else if m.kind == 2 && sl.pois then State.fail s 0x05 0
     else if m.badGeom stat f then State.fail s 0x0E 0
     else match m.kind with
       | 0 =>
         if m.base % 128 != 0 then State.fail s 0x08 (localForm m.base)
         else match Device.localFault s.pre (State.src s).wg (m.base : Int) foot with
           | some (_, c) => State.fail s c (localForm m.base)
           | none => .ok { op with sites := [(m.base, foot)] }
       | 1 =>
         if State.entryShort s m.base foot then State.fail s 0x0E 0
         else match ring with
           | .error c => State.fail s c 0
           | .ok _ => .ok op
       | _ =>
         if MDesc.badRecord t ty mx c0 then State.fail s 0x0E 0
         else if !canonical (BitVec.ofNat 64 t.base) then State.fail s 0x07 (BitVec.ofNat 64 t.base)
         else if mx && !canonical (BitVec.ofNat 64 t.mxbase) then State.fail s 0x07 (BitVec.ofNat 64 t.mxbase)
         else .ok op)

/-- MLOAD (R287). -/
def execMload (o : EJ) (s : State) : Res :=
  let op := { State.engOp s .mload 3 with reg := o.j.toNat }
  State.checked s (State.descWord s o.s.toNat true op) (fun op => State.enqueue s op)

/-- Issues an `mmul` (R289, R301): it joins an open burst, or waits for a token. -/
def State.mmulIssue (s : State) (op : EngOp) : State :=
  let p := Device.pair s.dev (pairOf op.core)
  if p.token && p.accept then State.enqueue s op else State.hold s (.token (pairOf op.core))

/-- MMUL from a descriptor (R289). -/
def execMmul (o : EMmul) (s : State) : Res :=
  let op := { State.engOp s .mmul 3 with ctl := o.n.toNat + 4 * o.j.toNat + 8 * o.z.toNat }
  State.checked s (State.descWord s o.s.toNat false op) (fun op => State.mmulIssue s op)

/-- The names that a register-form `mmul` reads (R288), and the limit on D, by FMT. -/
def regNames (f : Word) : Nat := if fmtMx f then (if fmtW f == 4 then 34 else 33) else 32

/-- MMUL from register fragments (R288, R289): all 64 lanes are read through the subset's window base. -/
def execMmulReg (o : EMmulR) (s : State) : Res :=
  let f := (State.src s).fmt
  let k := min (regNames f) (64 - o.d.toNat)
  let bad : Mask := maskOf (fun l => (List.range k).any (fun i => (State.elem s (o.d.toNat + i) l).p))
  let rows := (List.range k).map (fun i => mkLanes (fun l => (State.elem s (o.d.toNat + i) l).v))
  let op := { State.engOp s .mmul 3 with ctl := o.n.toNat + 4 * o.j.toNat + 8 * o.z.toNat + 16, rows := rows }
  let chk : Chk EngOp :=
    if !State.matRights s then State.fail s 0x07 0
    else if bad != 0 then .error (0x05, bad, 0)
    else if f == 0 || o.d.toNat + regNames f > 64 then State.fail s 0x03 0
    else .ok op
  State.checked s chk (fun op => State.mmulIssue s op)

/-- The operation of a drain: bank, kind and `.clr` in its control code; the draws' workgroup index (R69). -/
def State.drainOp (s : State) (n : BitVec 2) (dk : Nat) (w : BitVec 1) : EngOp :=
  { State.engOp s .mdrain 3 with ctl := n.toNat + 4 * dk + 32 * w.toNat, reg := Device.wgLinear s.pre (State.src s) }

/-- A register drain (R292, R293): its destinations are allocated full at issue. -/
def State.drainReg (s : State) (o : EDrainR) (dk : Nat) : Res :=
  let n := o.s.toNat
  let x := State.sc s n
  let c := DCtl.of x.v
  let k := if dk == 0 then c.nc else c.nc / 2
  let names := (List.range k).map (fun i => o.d.toNat + i)
  let ids := names.map (fun v => Wave.vid (State.src s) s.ctx.wb v)
  let op := { State.drainOp s o.n dk o.w with scal := [x.v], dests := ids }
  let chk := State.matHead s x.p
    (if dk == 1 && fmtAcc (State.src s).fmt then State.fail s 0x03 0
     else if x.v.toNat / 2 ^ 16 != 0 || c.c0 + c.nc > 128 || o.d.toNat + k > 64
       || (if dk == 0 then c.nc > 32 else c.nc % 2 == 1 || c.nc > 64) then State.fail s 0x03 0
     else .ok op)
  let alloc (s : State) : State :=
    match s.ctx.status with
    | .ok => names.foldl (fun s v =>
        State.writeV s v (fun l => optElem (Wave.reg? (State.cur s) (Wave.vid (State.cur s) s.ctx.wb v)) l) false) s
    | _ => s
  State.checked s chk (fun op => alloc (State.enqueue s op))

/-- MDRAIN.F32 (R292, R293). -/
def execMdrainF32 (o : EDrainR) (s : State) : Res := State.drainReg s o 0
/-- MDRAIN.BF16 (R292, R293). -/
def execMdrainBf16 (o : EDrainR) (s : State) : Res := State.drainReg s o 1

/-- Step 5 of R275 on a drain block (R292). -/
def drainReserved (f x : Word) (dk : Nat) : Bool :=
  let n := x.toNat
  let c := DCtl.of x
  bitOf n 31 || bitsOf n 29 24 != 0 || bitOf n 20 || (c.scl && fmtAcc f) || (c.swiz && dk == 4)
  || (c.mxo && !(3 ≤ c.oty && c.oty ≤ 5)) || (if fmtAcc f then c.oty != 6 && c.oty != 8 && c.oty != 10 else c.oty > 5)
  || c.c0 + c.nc > 128 || (c.oty == 5 && !c.mxo) || (c.mxo && (c.c0 % 32 != 0 || c.nc % 32 != 0))

/-- A drain to a tile, a ring or the port (R292, R295): the checks, and the operation they lead to. -/
def State.drainChecks (s : State) (n : Nat) (dk : Nat) (op : EngOp) : Chk EngOp :=
  let f := (State.src s).fmt
  let x := State.sc s n
  let c := DCtl.of x.v
  let mxoPort := dk == 4 && c.mxo
  let used : List Nat := [0] ++ (if c.scl then [1] else []) ++ [2, 3] ++ (if dk == 4 then [4] else []) ++ (if mxoPort && n ≤ 248 then [6, 7] else [])
  let scal := (List.range 8).map (fun i => if used.contains i then (State.sc s (n + i)).v else 0)
  let s2 := scal.getD 2 0
  let s3 := scal.getD 3 0
  let pitch : Int := if dk == 4 then (scal.getD 4 0).toInt else (s3.toNat : Int)
  let dst := pair64 s2 s3
  let foot := c.foot s3.toNat
  let ring := State.ringOf s (s2.setWidth 5)
  let small := dk == 3 && State.entryShort s s2.toNat foot
  let op := { op with scal := scal }
  State.matHead s (used.any (fun i => (State.sc s (n + i)).p))
    (if drainReserved f x.v dk || (dk == 3 && s2.toNat ≥ 32) || (mxoPort && n > 248) then State.fail s 0x03 0
     else if pitch % 16 != 0 || pitch.natAbs < c.rb || (c.swiz && pitch % 128 != 0) || small then State.fail s 0x0E 0
     else match dk with
       | 2 =>
         if s2.toNat % 128 != 0 then State.fail s 0x08 (localForm s2.toNat)
         else match Device.localFault s.pre (State.src s).wg (s2.toNat : Int) foot with
           | some (_, k) => State.fail s k (localForm s2.toNat)
           | none => .ok { op with sites := [(s2.toNat, foot)] }
       | 3 =>
         match ring with
         | .error k => State.fail s k 0
         | .ok _ => .ok { op with outs := [(s2.toNat, 1)] }
       | _ =>
         if dst.toNat % 16 != 0 then State.fail s 0x08 dst
         else if !canonical dst then State.fail s 0x07 dst
         else if mxoPort && !canonical (pair64 (scal.getD 6 0) (scal.getD 7 0)) then
           State.fail s 0x07 (pair64 (scal.getD 6 0) (scal.getD 7 0))
         else .ok op)

/-- MDRAIN.TILE (R292, R295): its footprint's lines become absent at issue. -/
def execMdrainTile (o : EDrain) (s : State) : Res :=
  State.checked s (State.drainChecks s o.s.toNat 2 (State.drainOp s o.n 2 o.w)) (fun op =>
    let c := DCtl.of (op.scal.getD 0 0)
    let cl := State.clOf s
    let lines := Device.spadLines s.dev cl [((op.scal.getD 2 0).toNat, c.foot (op.scal.getD 3 0).toNat)]
    State.enqueue { s with dev := Device.linesAbsent s.dev cl op.id lines } { op with lines := lines })

/-- MDRAIN.RING (R292, R295). -/
def execMdrainRing (o : EDrain) (s : State) : Res :=
  State.checked s (State.drainChecks s o.s.toNat 3 (State.drainOp s o.n 3 o.w)) (fun op => State.enqueue s op)

/-- MDRAIN.PORT (R292, R295). -/
def execMdrainPort (o : EDrain) (s : State) : Res :=
  State.checked s (State.drainChecks s o.s.toNat 4 (State.drainOp s o.n 4 o.w)) (fun op => State.enqueue s op)

/-- MCLR (R297). -/
def execMclr (o : EMask) (s : State) : Res :=
  if !State.matRights s then .next (State.trap s 0x07 s.ctx.lanes 0)
  else .next (State.enqueue s { State.engOp s .mclr 3 with ctl := o.m.toNat })

/-- MSTAT (R298). -/
def execMstat (o : EJ) (s : State) : Res :=
  if !State.matRights s then .next (State.trap s 0x07 s.ctx.lanes 0)
  else
    let pi := pairOf (State.src s).core
    let p := Device.pair s.dev pi
    let out := ((Device.engineOps s.dev).filter (fun x => x.kind.engine == .pair && pairOf x.core == pi)).length
    let v := p.sat.toNat + 2 * p.perr.toNat + 4 * p.flt.toNat + 65536 * min out 255
    let s := if o.j == 1 then { s with dev := Device.setPair s.dev pi { p with sat := false, perr := false, flt := false } } else s
    .next (State.setSc (State.setSc s o.s.toNat ⟨BitVec.ofNat 32 v, false⟩) (o.s.toNat + 1) ⟨p.org, false⟩)

end Sys2Proof.Machine
end

