-- ==== Sys2Proof/Machine/Power.lean ====
section
/-! DEFINITION. Power tokens, cadence, the power block, temperature and margins (R299 to R315), and what a core cycle counts (R113, R302, R305, R307, R400). -/

namespace Sys2Proof.Machine

/-- Replaces a die's power block. -/
def Device.setPower (d : Device) (die : Nat) (p : Power) : Device := Device.setDie d die { Device.die d die with power := p }

/-- The power block of a die. -/
def Device.powerOf (d : Device) (die : Nat) : Power := (Device.die d die).power

/-- Is a key of a wave held for a token of a pair (R289, R301): it waits for one, and the pair has no burst that accepts work. -/
def Device.tokenHeld (d : Device) (w : Wave) (pair : Nat) : Bool :=
  !w.ended && w.stalls.contains (.token pair) && !((Device.pair d pair).token && (Device.pair d pair).accept)

/-- Is a pair held for a token (R301). -/
def Device.pairHeld (d : Device) (pair : Nat) : Bool := d.waves.any (fun e => Device.tokenHeld d e.2 pair)

/-- May a pair take a token (R301): it is held for one and holds none. -/
def Device.tokenWait (d : Device) (pair : Nat) : Bool := !(Device.pair d pair).token && Device.pairHeld d pair

/-- The pair of a cluster that takes a token that reaches it (R301, R303, R310): the lowest-numbered that waits, where the cluster is below 105 °C; none while P = 0. -/
def Device.tokenTaker (d : Device) (cl : Nat) : Option Nat :=
  let p := Device.powerOf d (cl / 8)
  if p.temps.getD (cl % 8) 0 ≥ 105 * 8 || p.pool == 0 then none
  else ((List.range 4).map (fun j => 4 * cl + j)).find? (fun p => Device.tokenWait d p)

/-- A pair opens a burst (R301); RAMP becomes 8 where every pair of the cluster has been quiet for 1,024 cycles (R306). -/
def Device.openBurst (d : Device) (pair : Nat) : Device :=
  let cl := pair / 4
  let calm := (List.range 4).all (fun j => (Device.pair d (4 * cl + j)).quiet ≥ 1024)
  let c := Device.cluster d cl
  let d := if calm then Device.setCluster d cl { c with ramp := 8, rampRows := 0 } else d
  Device.setPair d pair { Device.pair d pair with token := true, accept := true, age := 0 }

/-- TOKEN_HOP (R300, R301, R303): an idle token moves one cluster on; one to be withdrawn leaves at cluster 0. -/
def execEvTokenHop (die : Nat) (idx : Nat) (s : State) : Res :=
  let p := Device.powerOf s.dev die
  match p.idle[idx]? with
  | none => .next s
  | some at_ =>
    let c := (at_ + 1) % 8
    if c == 0 && p.owed > 0 then
      .next (State.mapDev s (fun d => Device.setPower d die { p with idle := p.idle.eraseIdx idx, owed := p.owed - 1 }))
    else match Device.tokenTaker s.dev (8 * die + c) with
      | some pair => .next (State.mapDev s (fun d => Device.openBurst (Device.setPower d die { p with idle := p.idle.eraseIdx idx }) pair))
      | none => .next (State.mapDev s (fun d => Device.setPower d die { p with idle := p.idle.set idx c }))

/-- Does a pair hold an `mmul` that has issued and not finished injecting (R302). -/
def Device.injecting (d : Device) (pair : Nat) : Bool :=
  (Device.engineOps d).any (fun o => o.kind == .mmul && pairOf o.core == pair && !(o.void && o.phase > 0) && o.phase < 65)

/-- BURST_QUIET_CLOSE (R302): quiet for 33 cycles of the burst. -/
def execEvBurstQuietClose (pair : Nat) (s : State) : Res :=
  let p := Device.pair s.dev pair
  if p.token && p.accept && p.quiet ≥ 33 && p.age ≥ 33 then .next (State.mapDev s (fun d => Device.setPair d pair { p with accept := false })) else .next s

/-- BURST_TIME_LIMIT (R302): 8,192 cycles since the burst opened. -/
def execEvBurstTimeLimit (pair : Nat) (s : State) : Res :=
  let p := Device.pair s.dev pair
  if p.token && p.accept && p.age ≥ 8192 then .next (State.mapDev s (fun d => Device.setPair d pair { p with accept := false })) else .next s

/-- TOKEN_RELEASE (R302, R303): a closed burst all of whose rows are injected gives its token back, to be withdrawn where the idle tokens do not suffice. -/
def execEvTokenRelease (pair : Nat) (s : State) : Res :=
  let p := Device.pair s.dev pair
  let die := pair / 32
  let w := Device.powerOf s.dev die
  if p.token && !p.accept && !Device.injecting s.dev pair then
    let w := if w.owed > w.idle.length then { w with owed := w.owed - 1 } else { w with idle := w.idle ++ [pair / 4 % 8] }
    .next (State.mapDev s (fun d => Device.setPower (Device.setPair d pair { p with token := false }) die w))
  else .next s

/-- RAMP_STEP (R306): RAMP falls by 1 after each 64 rows of the cluster, down to 1. -/
def execEvRampStep (cluster : Nat) (s : State) : Res :=
  let c := Device.cluster s.dev cluster
  if c.rampRows ≥ 64 then
    .next (State.mapDev s (fun d => Device.setCluster d cluster { c with rampRows := c.rampRows - 64, ramp := max 1 (c.ramp - 1) }))
  else .next s

/-- Sets the voltage and the frequency in an ISLSTAT (R307). -/
def islSet (old : DWord) (volt freq : Nat) : DWord :=
  regOf [(0, 10, volt), (10, 12, freq), (22, 42, old.toNat / 2 ^ 22)]

/-- The voltage of an ISLSTAT. -/
def islVolt (x : DWord) : Nat := bitsOf x.toNat 9 0
/-- The frequency of an ISLSTAT. -/
def islFreq (x : DWord) : Nat := bitsOf x.toNat 21 10

/-- A number kept within limits. -/
def clamp (lo hi x : Nat) : Nat := max lo (min hi x)

/-- The power cap as energy (R309): the microjoules that CAP watts allow in a controller period of 10 µs; none without a cap. -/
def Power.allowance (p : Power) : Option Nat :=
  let cap := bitsOf p.pcap.toNat 15 0
  if cap == 0 then none else some (10 * cap)

/-- Does the telemetry ask for more power than CAP allows (R309). -/
def Power.overCap (p : Power) (inp : Telemetry) : Bool :=
  match Power.allowance p with
  | none => false
  | some e => inp.power > e

/-- Is cluster c slowed (R309, R310): it reads 95 °C or above, or the die would pass its power cap. -/
def Power.slowed (p : Power) (inp : Telemetry) (c : Nat) : Bool := p.temps.getD c 0 ≥ 95 * 8 || Power.overCap p inp

/-- A frequency under a ceiling, 0 being none. -/
def ceilAt (ceil x : Nat) : Nat := if ceil == 0 then x else min x (max 400 ceil)

/-- A frequency under the ceilings of the tables of every island that runs on island i's clock (R299, R312). -/
def Power.underCeil (p : Power) (i x : Nat) : Nat :=
  let of (j x : Nat) : Nat := ceilAt (p.plans.getD j Plan.reset).ceil x
  if i < 40 then (List.range 5).foldl (fun x j => of (i / 5 * 5 + j) x) x else of i x

/-- The frequency of island i at a controller period (R299, R309, R310, R312): within 400 to 2,100 MHz, FMAX and the ceilings of the tables on its clock; at least one step below the last one while its cluster is slowed. DESIGN CHOICE 63: a step is the register's unit, 1 MHz. -/
def Power.freqAt (p : Power) (inp : Telemetry) (i : Nat) : Nat :=
  let c := i / 5
  let isl := if i < 40 then 5 * c else i
  let x := Power.underCeil p i (clamp 400 2100 (inp.freq.getD isl 0))
  let old := islFreq (p.islstat.getD isl 0)
  if i < 40 then
    let x := ceilAt (bitsOf (p.cluctl.getD c 0).toNat 19 8) x
    if Power.slowed p inp c && old ≥ 400 then min x (max 400 (old - 1)) else x
  else if Power.overCap p inp && old ≥ 400 then min x (max 400 (old - 1))
  else x

/-- The voltage of island i at a controller period (R299, R312): the controller's choice raised as the island's table asks. -/
def Power.voltAt (p : Power) (inp : Telemetry) (i : Nat) : Nat :=
  clamp 480 780 (inp.volt.getD i 0 + (p.plans.getD i Plan.reset).lift)

/-- The cadence term of cluster c at a controller period (R306, R309, R310): raised step by step while the cluster is slowed. -/
def Power.cadtAt (p : Power) (inp : Telemetry) (old c : Nat) : Nat :=
  let x := clamp 1 8 (inp.cadt.getD c 1)
  if Power.slowed p inp c then max x (min 8 (old + 1)) else x

/-- What the sensors of a die show at a controller period (R310): the hottest reading of each cluster and of each uncore island; THR, and TRIPW's end. -/
def Power.sense (p : Power) (inp : Telemetry) : Power :=
  let temps := (List.range 12).map (fun c => inp.temp.getD c 0)
  { p with temps := temps, thr := (temps.take 8).any (fun t => t ≥ 95 * 8), tripw := p.tripw && (temps.take 8).any (fun t => t ≥ 115 * 8) }

/-- The pool that the controller chooses (R303, R308, R309): none before bring-up has reached step 6. -/
def Power.poolAt (p : Power) (bootst : Nat) (inp : Telemetry) : Nat :=
  if bootst != 6 then 0 else min (min inp.pool 16) (p.poolmax.toNat % 32)

/-- What a controller period does to a die's block (R303, R306 to R310): the controller takes up the registers' requests and places or withdraws tokens. The die's energy stays within its cap. -/
def Power.period (p : Power) (bootst : Nat) (inp : Telemetry) : Power :=
  let p := Power.sense p inp
  let pool := Power.poolAt p bootst inp
  { p with
    pool := pool
    idle := p.idle ++ List.replicate (pool - p.pool) 0
    owed := p.owed + (p.pool - pool)
    ilim := inp.ilim
    energy := p.energy + BitVec.ofNat 64 (min inp.power ((Power.allowance p).getD inp.power))
    islstat := (List.range 44).map (fun i => islSet (p.islstat.getD i 0) (Power.voltAt p inp i) (Power.freqAt p inp i)) }

/-- CADT and CADMIN of cluster c of a die at a controller period (R306, R309). -/
def Device.cadence (d : Device) (die : Nat) (p : Power) (inp : Telemetry) (c : Nat) : Device :=
  let x := Device.cluster d (8 * die + c)
  Device.setCluster d (8 * die + c)
    { x with cadt := Power.cadtAt p inp x.cadt c, cadmin := max 1 (bitsOf (p.cluctl.getD c 0).toNat 3 0) }

/-- CONTROLLER_PERIOD (R303, R306 to R310): under a thermal hold, when every clock stands, the sensors alone are read. -/
def execEvControllerPeriod (die : Nat) (inp : Telemetry) (s : State) : Res :=
  let p := Device.powerOf s.dev die
  if s.dev.sys.held then .next (State.mapDev s (fun d => Device.setPower d die (Power.sense p inp)))
  else
    let p := Power.period p s.dev.sys.bootst inp
    .next (State.mapDev s (fun d => (List.range 8).foldl (fun d c => Device.cadence d die p inp c) (Device.setPower d die p)))

/-- Does a cluster of a die read a temperature or above (R310): the uncore sensors are no cluster's. -/
def Power.clusterAt (p : Power) (c : Nat) (deg : Int) : Bool := c < 8 && p.temps.getD c 0 ≥ deg * 8

/-- THERMAL_TRIP_WARNING (R310): a cluster at 115 °C or above sets TRIPW, reported through the management port and the error ring (R452). -/
def execEvThermalTripWarning (die : Nat) (cluster : Nat) (s : State) : Res :=
  let p := Device.powerOf s.dev die
  let t := p.temps.getD cluster 0
  if Power.clusterAt p cluster 115 then
    .next (State.mapDev s (fun d => Device.logError (Device.setPower d die { p with tripw := true }) 9 die 3 cluster (wrap64 t) 0 0))
  else .next s

/-- Changes an island's status word; island numbers are 44 d + i (R299). -/
def Device.setIsland (d : Device) (island : Nat) (f : DWord → DWord) : Device :=
  let p := Device.powerOf d (island / 44)
  Device.setPower d (island / 44) { p with islstat := putAt p.islstat (island % 44) (f (p.islstat.getD (island % 44) 0)) 0 }

/-- An island's table after a margin has been measured (R312): a margin that shrank by `n` mV raises the voltages by as much at once, and lowers the ceiling where the voltage can rise no further; one that grew changes the table that the next bring-up takes up. -/
def Plan.measured (t : Plan) (old new volt freq : Nat) : Plan :=
  if new < old then
    { t with rev := t.rev + 1, replans := t.replans + 1, lift := t.lift + (old - new), kept := none,
             ceil := if volt + (old - new) ≤ 780 then t.ceil else max 400 (freq - 1) }
  else if old < new && t.lift > 0 then { t with replans := t.replans + 1, kept := some (t.kept.getD t.lift - (new - old)) }
  else t

/-- An island's status after its margin has been measured (R307, R312): MARG; with a margin that shrank, the voltage that the new table asks for. -/
def islMeasured (x : DWord) (marg : BitVec 10) : DWord :=
  let old := bitsOf x.toNat 31 22
  let x' := regOf [(0, 22, x.toNat), (22, 10, marg.toNat), (32, 32, x.toNat / 2 ^ 32)]
  if marg.toNat < old then islSet x' (min 780 (islVolt x + (old - marg.toNat))) (islFreq x) else x'

/-- The logic island whose clock an island runs on (R299). -/
def clockIsland (island : Nat) : Nat := if island % 44 < 40 then island / 44 * 44 + island % 44 / 5 * 5 else island

/-- The islands that run on an island's clock (R299). -/
def onClock (island : Nat) : List Nat :=
  if island % 44 < 40 then (List.range 5).map (fun i => clockIsland island + i) else [island]

/-- The frequency of an island's clock. -/
def Device.clockFreq (d : Device) (island : Nat) : Nat := islFreq ((Device.powerOf d (island / 44)).islstat.getD (clockIsland island % 44) 0)

/-- The frequency of an island's clock becomes f: every island on it reports that (R307). -/
def Device.setClock (d : Device) (island f : Nat) : Device :=
  (onClock island).foldl (fun d i => Device.setIsland d i (fun x => islSet x (islVolt x) f)) d

/-- MARGIN_MEASUREMENT (R311, R312): MARG is measured and the island's table re-planned; a ceiling that it lowers binds the clock at once. -/
def execEvMarginMeasurement (island : Nat) (marg : BitVec 10) (s : State) : Res :=
  let p := Device.powerOf s.dev (island / 44)
  let i := island % 44
  let x := p.islstat.getD i 0
  let old := bitsOf x.toNat 31 22
  let plan := Plan.measured (p.plans.getD i Plan.reset) old marg.toNat (islVolt x) (islFreq x)
  let p := { p with plans := putAt p.plans i plan Plan.reset }
  let d := Device.setIsland (Device.setPower s.dev (island / 44) p) island (fun x => islMeasured x marg)
  .next { s with dev := if marg.toNat < old then Device.setClock d island (Power.underCeil p i (Device.clockFreq d island)) else d }

/-- The table that a bring-up begins with (R312): a change kept for it is taken up. -/
def Plan.bringup (t : Plan) : Plan :=
  match t.kept with
  | none => { t with replans := 0 }
  | some x => { t with rev := t.rev + 1, replans := 0, lift := x, ceil := 0, kept := none }

/-- TIMING_REPLAY (R313): REPL grows by 1, wrapping at 2^32. -/
def execEvTimingReplay (island : Nat) (s : State) : Res :=
  .next (State.mapDev s (fun d => Device.setIsland d island (fun x => regOf [(0, 32, x.toNat), (32, 32, x.toNat / 2 ^ 32 + 1)])))

/-- The frequency of an island's clock is lowered by one step. -/
def Device.slower (d : Device) (island step : Nat) : Device := Device.setClock d island (clamp 400 2100 (Device.clockFreq d island - step))

/-- REPLAY_RATE_STEP (R313): more than 1,000 replays in 1 ms raise the voltage or lower the frequency by one step. -/
def execEvReplayRateStep (island : Nat) (raise : Bool) (step : Nat) (s : State) : Res :=
  .next (State.mapDev s (fun d =>
    if raise then Device.setIsland d island (fun x => islSet x (clamp 480 780 (islVolt x + step)) (islFreq x)) else Device.slower d island step))

/-- The cores of an island's cluster. -/
def islandCores (island : Nat) : List Nat :=
  if island % 44 < 40 then (List.range 8).map (fun k => 64 * (island / 44) + 8 * (island % 44 / 5) + k) else []

/-- The controller fences an island (R315): its cores take no new workgroups, those on it are killed, and the event is recorded. -/
def Device.fenceIsland (d : Device) (island : Nat) : Device :=
  let cs := islandCores island
  let d := cs.foldl (fun d k => Device.setCore d k { Device.core d k with fenced := true }) d
  let gs := (d.wgs.filter (fun e => cs.contains e.2.core && !e.2.killed)).map (fun e => e.1)
  Device.logError (gs.foldl Device.killWg d) 8 (island / 44) 3 island 0 0 0

/-- REPLAY_THROTTLE (R315): 16 replays in a row lower the frequency; at the lowest setting the island is fenced. -/
def execEvReplayThrottle (island : Nat) (step : Nat) (s : State) : Res :=
  .next (State.mapDev s (fun d =>
    if Device.clockFreq d island ≤ 400 then Device.fenceIsland d island
    else Device.slower d island step))

/-- PSTAT_READ (R307): the read clears REJ. -/
def execEvPstatRead (die : Nat) (s : State) : Res :=
  .next (State.mapDev s (fun d => Device.setPower d die { Device.powerOf d die with rej := false }))

/-- A register of 8 bytes after a write of 4 or 8 bytes of it (R307). -/
def mergeReg (old : DWord) (off size : Nat) (v : DWord) : DWord :=
  if size == 8 then v
  else if off % 8 == 4 then pair64 (lo32 old) (lo32 v) else pair64 (lo32 v) (hi32 old)

/-- A write of the power block (R307, R309): a bad value is rejected as a whole and sets REJ. -/
def Device.powerWrite (d : Device) (die off size : Nat) (v : DWord) : Device :=
  let p := Device.powerOf d die
  let at_ := off / 8 * 8
  let x := mergeReg (Device.powerRead d die at_) off size v
  let n := x.toNat
  let put (ok : Bool) (q : Power) : Device := Device.setPower d die (if ok then q else { p with rej := true })
  if at_ == 0x3000 then put (n < 2 ^ 16) { p with pcap := x }
  else if at_ == 0x3008 then put (n ≤ 16) { p with poolmax := x }
  else if 0x3020 ≤ at_ && at_ < 0x3060 then
    let fmax := bitsOf n 19 8
    put (n < 2 ^ 20 && bitsOf n 7 4 == 0 && bitsOf n 3 0 ≤ 8 && (fmax == 0 || (400 ≤ fmax && fmax ≤ 2100)))
      { p with cluctl := putAt p.cluctl ((at_ - 0x3020) / 8) x 0 }
  else d

/-- Cycles of a pair (R302): quiet cycles in a row, and the age of its burst. -/
def Device.pairCycle (d : Device) (pair : Nat) : Device :=
  let p := Device.pair d pair
  let p' := { p with quiet := if Device.injecting d pair then 0 else p.quiet + 1, age := if p.token then p.age + 1 else p.age }
  Device.setPair d pair p'

/-- The waves that stand on a core. -/
def Device.wavesOn (d : Device) (core : Nat) : List (Nat × Wave) := d.waves.filter (fun e => e.2.core == core && !e.2.ended)

/-- TOKW of a wave with a key that waits for a token (R305): it stops at its largest value. -/
def Device.tokCycle (d : Device) (w : Wave) : Wave :=
  if Device.tokenHeld d w (pairOf w.core) && w.tokw != 0xFFFFFFFF then { w with tokw := w.tokw + 1 } else w

/-- USED of the background queues with a wave on the core (R400). -/
def Device.usedCycle (d : Device) (core : Nat) : Device :=
  let qs := ((Device.wavesOn d core).map (fun e => (Device.launchOf d e.2).queue)).foldl NSet.ins []
  qs.foldl (fun d q =>
    let x := Device.queue d q
    if bitOf x.ctl 1 && x.used != BitVec.allOnes 64 then Device.queuePut d q { x with used := x.used + 1 } else d) d

/-- A cycle of a core's clock: CYC (R113), TOKW (R305), USED (R400); with a cluster's first core WAITC (R307), with a leader core its pair's counts. -/
def Device.coreCycle (d : Device) (core : Nat) : Device :=
  let c := Device.core d core
  let d := Device.setCore d core { c with cyc := c.cyc + 1 }
  let d := { d with waves := d.waves.map (fun e => if e.2.core == core then (e.1, Device.tokCycle d e.2) else e) }
  let d := Device.usedCycle d core
  let cl := core / 8
  let d := if core % 8 == 0 && (List.range 4).any (fun j => Device.pairHeld d (4 * cl + j)) then
      let x := Device.cluster d cl
      Device.setCluster d cl { x with waitc := x.waitc + 1 }
    else d
  if core % 2 == 0 then Device.pairCycle d (pairOf core) else d

/-- CORE_CYCLE (R113): a cycle of a core in which it issues nothing. -/
def execEvCoreCycle (core : Nat) (s : State) : Res := .next (State.mapDev s (fun d => Device.coreCycle d core))

end Sys2Proof.Machine
end

