-- ==== Sys2Proof/Machine/Hash.lean ====
section
/-! DEFINITION. The hash-encoding engine and published versions (R316 to R332). -/

namespace Sys2Proof.Machine

/-- A field of a snapshot: n bytes at an offset (R319). -/
def hdrField (bs : List Byte) (off n : Nat) : Nat := fieldAt bs off n

/-- A level's OFF (R320). -/
def lvlOff (bs : List Byte) (l : Nat) : Nat := fieldAt bs (0x40 + 32 * l) 8
/-- A level's NRES. -/
def lvlN (bs : List Byte) (l : Nat) : Nat := fieldAt bs (0x48 + 32 * l) 4
/-- A level's TB. -/
def lvlTb (bs : List Byte) (l : Nat) : Nat := fieldAt bs (0x4C + 32 * l) 1

/-- NLEV of a header. -/
def hdrLevels (bs : List Byte) : Nat := hdrField bs 0x28 1
/-- PLACE of a header. -/
def hdrPlace (bs : List Byte) : Nat := hdrField bs 0x29 1
/-- BASEb of a header. -/
def hdrBase (bs : List Byte) (b : Nat) : Nat := hdrField bs (8 * (b % 2)) 8

/-- Is a level's descriptor outside its ranges (R320). -/
def lvlBad (bs : List Byte) (l : Nat) : Bool :=
  lvlOff bs l % 128 != 0 || lvlN bs l == 0 || lvlN bs l > 16777215 || lvlTb bs l < 10 || lvlTb bs l > 22

/-- Is a configuration malformed (R320). -/
def hdrBad (bs : List Byte) : Bool :=
  let n := hdrLevels bs
  let place := hdrPlace bs
  let bases := [hdrBase bs 0, hdrBase bs 1]
  n == 0 || n > 16 || place > 2 || (List.range n).any (lvlBad bs)
  || bases.any (fun b => b % 128 != 0) || hdrField bs 0x10 8 % 128 != 0
  || (place == 1 && bases.any (fun b => b ≥ 2 ^ 23)) || (place == 2 && bases.any (fun b => b ≥ 2 ^ 20))

/-- The index of a corner (R321). -/
def hashIndex (n tb x y z : Nat) : Nat :=
  if (n + 1) ^ 3 ≤ 2 ^ tb then x + (n + 1) * (y + (n + 1) * z)
  else ((BitVec.ofNat 32 x) ^^^ (BitVec.ofNat 32 y * 0x9E3779B1#32) ^^^ (BitVec.ofNat 32 z * 0x7FEB352D#32)).toNat % 2 ^ tb

/-- The local address of byte o of a buffer for PLACE 1 and 2 (R321). -/
def hashLocal (place base o : Nat) : Nat :=
  if place == 1 then base % 2 ^ 23 + o
  else Nat.lor (o / 2 ^ 12 % 8 * 2 ^ 20) (base % 2 ^ 20 + o / 2 ^ 15 * 2 ^ 12 + o % 2 ^ 12)

/-- What a lookup answers: the entry, its poison, its failure (R329). -/
structure HLook where
  v   : Nat
  p   : Bool
  err : Option (DWord × BitVec 8)
  deriving DecidableEq, Repr

/-- The snapshot of an operation's binding. -/
def EngOp.hsnap (o : EngOp) : List Byte := match o.snap with | some b => b.snap | none => []

/-- The bound version of an operation. -/
def EngOp.hver (o : EngOp) : Nat := match o.snap with | some b => b.ver | none => 0

/-- Where entry i of level l stands, when that is local. -/
def EngOp.hashAt (o : EngOp) (l i : Nat) : Nat :=
  hashLocal (hdrPlace o.hsnap) (hdrBase o.hsnap o.hver) (lvlOff o.hsnap l + 4 * i)

/-- Where entry i of level l stands in a global table (R321). -/
def EngOp.hashVa (o : EngOp) (l i : Nat) : DWord := BitVec.ofNat 64 (hdrBase o.hsnap o.hver + lvlOff o.hsnap l + 4 * i)

/-- The translation of a lookup in a global table (R209, R329): no register is an entry. -/
def Device.hashTr (d : Device) (o : EngOp) (a : DWord) : Except (BitVec 8) Tr :=
  match Device.translate d (256 + o.core / 8) o.asid .r a 4 with
  | .error c => .error c
  | .ok t => if placeOf t.pa == 2 then .error 0x07 else if Device.memBad d (replicaPa t (o.core / 64)) 4 then .error 0x0F else .ok t

/-- Reads entry i of level l of the bound buffer (R321, R329); an element of a scratchpad, however it is reached, reads with its poison. -/
def Device.hashEntry (d : Device) (o : EngOp) (l i : Nat) : HLook :=
  let cl := o.core / 8
  if hdrPlace o.hsnap == 0 then
    match Device.hashTr d o (o.hashVa l i) with
    | .ok t => ⟨ofLeBytes (Device.readBytes d (clusterAgent cl) t 0 4), placeOf t.pa == 1 && Device.sramPois d (sramCl t.pa) (sramOff t.pa), none⟩
    | .error c => ⟨0, true, some (o.hashVa l i, c)⟩
  else
    let a := o.hashAt l i
    match Device.localFault d o.wg (a : Int) 4 with
    | some _ => ⟨0, true, some (localForm a, 0x07)⟩
    | none => ⟨ofLeBytes (Device.sramRead d cl a 4), Device.sramPois d cl a, none⟩

/-- Does entry i of level l stand in an absent line (R184, R329). -/
def Device.hashAbsent (d : Device) (o : EngOp) (l i : Nat) : Bool :=
  if hdrPlace o.hsnap == 0 then
    match Device.hashTr d o (o.hashVa l i) with
    | .ok t => placeOf t.pa == 1 && Device.lineAbsent d (sramCl t.pa) (sramOff t.pa)
    | .error _ => false
  else Device.lineAbsent d (o.core / 8) (o.hashAt l i)

/-- One axis of a query (R327): i0, wlo, whi as f32 patterns. -/
def hashAxis (n : Nat) (p : Word) : Nat × Nat × Nat :=
  let x := Fmt.value f32 p.toNat
  let u : Fv := if Fv.isNan x || !Fv.lt (.fin false 0 0) x then .fin false 0 0
    else if !Fv.lt x (.fin false 1 0) then .fin false 1 0 else x
  let g := Fmt.value f32 (Fmt.round f32 0 false false 0 (Fv.mul u (Fv.ofInt n)))
  let i0 := min (Fv.floor g).toNat (n - 1)
  let t := Fv.sum false [g, Fv.ofInt (-(i0 : Int))]
  (i0, Fmt.round f32 0 false false 0 (Fv.sum false [.fin false 1 0, Fv.opp t]), Fmt.round f32 0 false false 0 t)

/-- The corners of a query in order (R327): index and weight. -/
def hashCorners (n tb : Nat) (ax ay az : Nat × Nat × Nat) : List (Nat × Nat) :=
  (List.range 8).map (fun c =>
    let bx := c % 2
    let by_ := c / 2 % 2
    let bz := c / 4
    let w (b : Nat) (a : Nat × Nat × Nat) : Fv := Fmt.value f32 (if b == 0 then a.2.1 else a.2.2)
    let r (x : Fv) : Nat := Fmt.round f32 0 false false 0 x
    (hashIndex n tb (ax.1 + bx) (ay.1 + by_) (az.1 + bz), r (Fv.mul (Fmt.value f32 (r (Fv.mul (w bx ax) (w by_ ay)))) (w bz az))))

/-- The corners of level l for a lane of an operation. -/
def EngOp.corners (o : EngOp) (l lane : Nat) : List (Nat × Nat) :=
  let n := lvlN o.hsnap l
  let ax (k : Nat) : Nat × Nat × Nat := hashAxis n ((o.rows.getD k []).getD lane 0)
  hashCorners n (lvlTb o.hsnap l) (ax 0) (ax 1) (ax 2)

/-- One accumulation of a query (R327). -/
def hashAcc (acc w f : Nat) : Nat :=
  Fmt.round f32 0 false false 0 (Fv.sum false [Fv.mul (Fmt.value f32 w) (Fmt.value f16 f), Fmt.value f32 acc])

/-- The two features of a level in a lane as f32 patterns, their poison, the first failure (R327, R329). -/
def Device.hashLevel (d : Device) (o : EngOp) (l lane : Nat) : Nat × Nat × Bool × Option (DWord × BitVec 8) :=
  let es := (o.corners l lane).map (fun c => (c.2, Device.hashEntry d o l c.1))
  let acc (f : Nat) : Nat := es.foldl (fun a e => hashAcc a e.1 (e.2.v / 2 ^ (16 * f) % 65536)) 0
  (acc 0, acc 1, es.any (fun e => e.2.p), es.findSome? (fun e => e.2.err))

/-- NL of a control word (R326). -/
def hxNl (x : Word) : Nat := bitsOf x.toNat 19 16 + 1
/-- L0 of a control word. -/
def hxL0 (x : Word) : Nat := bitsOf x.toNat 15 12
/-- OUT of a control word. -/
def hxOut (x : Word) : Nat := bitsOf x.toNat 9 8
/-- RTY of a control word. -/
def hxRty (x : Word) : Nat := bitsOf x.toNat 5 5
/-- The row pitch of a ring output (R328). -/
def hxPitch (nl : Nat) : Nat := 16 * ((nl + 3) / 4)

/-- A level's two features packed as 16-bit values. -/
def hxPack (bf : Bool) (a b : Nat) : Nat :=
  let t := if bf then bf16 else f16
  let r (x : Nat) : Nat := Fmt.round t 0 false false 0 (Fmt.value f32 x)
  r a + 65536 * r b

/-- The levels of an operation. -/
def EngOp.levels (o : EngOp) : List Nat :=
  let x := o.scal.getD 0 0
  (List.range (hxNl x)).map (fun i => hxL0 x + i)

/-- Does a query wait: for an absent line (R184, R329), or for the refill of a register that it is to write (R125). -/
def Device.hashWaits (d : Device) (o : EngOp) : Bool :=
  (o.kind == .hxq && (lanesOf o.mask).any (fun lane => o.levels.any (fun l =>
    (o.corners l lane).any (fun c => Device.hashAbsent d o l c.1)))) || Device.destsOut d o

/-- The local ranges of the bound buffer's levels that an operation may read (R179, R182, R321). -/
def EngOp.hashSites (o : EngOp) : List (Nat × Nat) :=
  let base := hdrBase o.hsnap o.hver
  let size (l : Nat) : Nat := 4 * 2 ^ lvlTb o.hsnap l
  if hdrPlace o.hsnap == 0 then []
  else if hdrPlace o.hsnap == 1 then o.levels.map (fun l => (base % 2 ^ 23 + lvlOff o.hsnap l, size l))
  else o.levels.flatMap (fun l => (List.range 8).map (fun k =>
    (k * 2 ^ 20 + base % 2 ^ 20 + lvlOff o.hsnap l / 2 ^ 15 * 2 ^ 12, size l / 8 + 8192)))

/-- The effect of a query (R327 to R329); a lane that has exited takes none of it (R93). -/
def Device.hashQuery (d : Device) (o : EngOp) : Device :=
  let x := o.scal.getD 0 0
  let out := hxOut x
  let res := (lanesOf o.mask).map (fun lane => (lane, o.levels.map (fun l => Device.hashLevel d o l lane)))
  let look (lane i : Nat) : Nat × Nat × Bool :=
    match res.find? (fun e => e.1 == lane) with
    | some e => let r := e.2.getD i (0, 0, false, none); (r.1, r.2.1, r.2.2.1)
    | none => (0, 0, false)
  let err := res.findSome? (fun e => e.2.findSome? (fun r => r.2.2.2))
  let d := match err with
    | some (a, c) => Device.notePoison d o.wave a c
    | none => d
  if out == 3 then
    let q := hxPitch (hxNl x)
    let base := o.entries.headD 0
    let cl := o.core / 8
    lanes64.foldl (fun d lane =>
      let row := (List.range (q / 4)).map (fun i =>
        let r := look lane i
        if i < hxNl x && o.mask.getLsbD lane then (hxPack (hxRty x == 1) r.1 r.2.1, r.2.2) else (0, false))
      (List.range row.length).foldl (fun d i =>
        let e := row.getD i (0, false)
        let a := base + q * lane + 4 * i
        Device.setSramPois (Device.sramPut d 0 cl a (leBytes 4 e.1)) cl a 1 e.2) d) d
  else
    match Tbl.get? d.waves o.wave with
    | none => d
    | some w =>
      let elem (k lane : Nat) : Elem :=
        if out == 0 then
          let r := look lane (k / 2)
          ⟨BitVec.ofNat 32 (if k % 2 == 0 then r.1 else r.2.1), r.2.2⟩
        else
          let r := look lane k
          ⟨BitVec.ofNat 32 (hxPack (out == 2) r.1 r.2.1), r.2.2⟩
      let ids := (List.range o.dests.length).zip o.dests
      Device.setWave d o.wave (ids.foldl (fun w e => Wave.arrive w e.2 (Wave.takes w o e.2) (elem e.1)) w)

/-- One addition to the gradient table (R330): read, added and written at its point of coherence; a failed one is dropped. -/
def Device.gradAdd (d : Device) (o : EngOp) (a : DWord) (x : Nat) : Device :=
  let cl := o.core / 8
  match Device.translate d (256 + cl) o.asid .rw a 4 with
  | .error c => Device.notePoison d o.wave a c
  | .ok t =>
    if placeOf t.pa == 2 then Device.notePoison d o.wave a 0x07
    else if Device.memBad d (atomPa t) 4 then Device.notePoison d o.wave a 0x0F
    else
      let d := Device.l1Clear d cl (linesOfBytes (atomPa t) 4)
      let old := ofLeBytes ((List.range 4).map (fun i => Device.memByte d t.key (atomPa t + i)))
      let new := Fmt.round f32 0 false false 0 (Fv.sum false [Fmt.value f32 old, Fmt.value f32 x])
      Device.engStore d o t (leBytes 4 new)

/-- Puts an item before the first one of a greater number. -/
def putByKey {α : Type} (k : Nat) (x : α) : List (Nat × α) → List (Nat × α)
  | [] => [(k, x)]
  | e :: r => if k ≤ e.1 then (k, x) :: e :: r else e :: putByKey k x r

/-- The items in an order that the manual leaves open: that of one free number for each. -/
def Device.anyOrder {α : Type} (d : Device) (xs : List α) : List α :=
  (((List.range xs.length).zip xs).foldr (fun e r => putByKey (Config.freeWord (d.freeCtr + e.1)).toNat e.2 r) []).map (·.2)

/-- The additions of a `hxg` (R330): addresses and addends, the latter rounded. -/
def EngOp.additions (o : EngOp) : List (DWord × Nat) :=
  let gb := hdrField o.hsnap 0x10 8
  (lanesOf (o.mask &&& ~~~o.helpers)).flatMap (fun lane =>
    ((List.range o.levels.length).zip o.levels).flatMap (fun l =>
      (o.corners l.2 lane).flatMap (fun c =>
        [0, 1].map (fun f =>
          let g := (o.rows.getD (3 + 2 * l.1 + f) []).getD lane 0
          (BitVec.ofNat 64 (gb + 2 * lvlOff o.hsnap l.2 + 8 * c.1 + 4 * f),
            Fmt.round f32 0 false false 0 (Fv.mul (Fmt.value f32 c.2) (Fmt.value f32 g.toNat)))))))

/-- The next addition of a `hxg` (R330): the word draws an order of its additions, which is left open, as it begins, and performs one at a time, so that those of other words and other accesses come between; it completes with the last. -/
def Device.hashGrad (d : Device) (o : EngOp) : Device :=
  let n := o.additions.length
  let todo := if o.phase == 0 then Device.anyOrder d (List.range n) else o.aux
  let d := if o.phase == 0 then { d with freeCtr := d.freeCtr + n } else d
  match todo with
  | [] => Device.endOp d o
  | i :: r =>
    let e := o.additions.getD i (0, 0)
    let d := Device.gradAdd d o e.1 e.2
    if r.isEmpty then Device.endOp d o else Device.setOp d { o with phase := 1, aux := r }

/-- A query or a scatter that the engine performs now, when it is its turn (R316, R240) and its wave's fences let it (R234). -/
def Device.hashPerform (d : Device) (o : EngOp) : Device :=
  if !Device.hashTurn d o || !Device.mayAct d o || Device.hashWaits d o then d
  else match o.kind with
    | .hxq => Device.endOp (Device.hashQuery d o) o
    | .hxg => Device.hashGrad d o
    | _ => d

/-- The home unit's access to a header (R319, R322): its leaf, in place 0x0, readable and writable. -/
def Device.header (d : Device) (core asid : Nat) (a : DWord) : Except (BitVec 8) Tr :=
  match Device.translate d (256 + core / 8) asid .rw a 64 with
  | .error c => .error c
  | .ok t => if placeOf t.pa != 0 then .error 0x07 else if Device.memBad d (atomPa t) 64 then .error 0x0F else .ok t

/-- Bytes of a header as the home unit holds them. -/
def Device.headerBytes (d : Device) (t : Tr) (n : Nat) : List Byte := (List.range n).map (fun i => Device.memByte d t.key (atomPa t + i))

/-- The home unit of a die acting for a core of a cluster: it translates with the cluster's units and is behind no cluster L1 (R322). -/
def homeAgent (core die : Nat) : Agent := ⟨256 + core / 8, 32, die, 0, 0⟩

/-- The home unit writes a 4-byte field of a header. -/
def Device.headerPut (d : Device) (core asid : Nat) (lnch : Word) (t : Tr) (off v : Nat) : Device :=
  Device.writeBytes d ((homeAgent core (core / 64)).workFor lnch) asid false { t with pa := t.pa + off } (leBytes 4 v)

/-- The fault of a read of n bytes of a configuration (R319, R323): one that its pages answer, or a place other than 0x0. -/
def Device.configFault (d : Device) (core asid : Nat) (a : DWord) (n : Nat) : Option (BitVec 8) :=
  [a, a + BitVec.ofNat 64 (n - 1)].findSome? (fun x =>
    match Device.translate d (256 + core / 8) asid .r x 1 with
    | .error c => some c
    | .ok t => if placeOf t.pa != 0 then some 0x07 else none)

/-- The header with its NLEV levels (R320), or the fault that reading them meets. -/
def Device.snapshot (d : Device) (core asid : Nat) (a : DWord) (t : Tr) : Except (BitVec 8) (List Byte) :=
  let h := Device.headerBytes d t 64
  let n := hdrLevels h
  if n == 0 || n > 16 then .ok h
  else match Device.configFault d core asid (a + 64) (32 * n) with
    | some c => .error c
    | none =>
      match Device.vreadN d (homeAgent core (homeDie t.pa)) asid .r (a + 64) (32 * n) with
      | .error c => .error c
      | .ok r => .ok (h ++ r)

/-- The outcome of a version step: status, VER, WBASE, a new binding, a fault. -/
structure VOut where
  status : Nat
  ver    : Nat
  wbase  : Nat
  bind   : Option VBind
  err    : Option (DWord × BitVec 8)
  deriving DecidableEq, Repr

/-- A version step that does not succeed (R323). -/
def VOut.fail (status ver : Nat) : VOut := ⟨status, ver, 0, none, none⟩

/-- The indivisible step of `hxcfg`, `vbind` and `vpub` at the home unit (R322, R323). -/
def Device.versionStep (d : Device) (o : EngOp) : Device × VOut :=
  let a := pair64 (o.scal.getD 0 0) (o.scal.getD 1 0)
  let bad (c : BitVec 8) : Device × VOut := (d, { VOut.fail 3 0 with err := some (a, c) })
  if o.kind == .vbind && a == 0 then (d, VOut.fail 0 0)
  else if !canonical a || a.toNat % 128 != 0 then bad 0x07
  else match Device.header d o.core o.asid a with
    | .error c => bad c
    | .ok t =>
      let h := Device.headerBytes d t 64
      let ver := hdrField h 0x2C 4
      let bc (b : Nat) : Nat := hdrField h (0x30 + 4 * b) 4
      let put (off v : Nat) (d : Device) : Device := Device.headerPut d o.core o.asid (Device.launch d o.launch).lnch t off v
      match o.kind with
      | .hxcfg =>
        if bc 0 != 0 || bc 1 != 0 then (d, VOut.fail 1 ver)
        else match Device.snapshot d o.core o.asid a t with
          | .error c => bad c
          | .ok bs => if hdrBad bs then (d, VOut.fail 4 ver) else (put 0x38 1 (put 0x2C 0 d), VOut.fail 0 0)
      | .vbind =>
        if hdrField h 0x38 4 % 2 == 0 then (d, VOut.fail 2 ver)
        else match Device.snapshot d o.core o.asid a t with
          | .error c => bad c
          | .ok bs =>
            if hdrBad bs then (d, VOut.fail 4 ver)
            else (put (0x30 + 4 * (ver % 2)) (bc (ver % 2) + 1) d,
                  ⟨0, ver, hdrField h (0x18 + 8 * (ver % 2)) 8, some ⟨a, ver, bs⟩, none⟩)
      | _ =>
        if hdrField h 0x38 4 % 2 == 0 then (d, VOut.fail 2 ver)
        else if bc (ver % 2) != 0 then (d, VOut.fail 1 ver)
        else (put 0x2C ((ver + 1) % 2 ^ 32) d, VOut.fail 0 ((ver + 1) % 2 ^ 32))

/-- Decrements the count of a released binding at the home unit (R324); a fault leaves it and is recorded (R452). -/
def Device.releaseStep (d : Device) (r : Release) : Device :=
  match Device.header d r.core r.asid r.header with
  | .error c => Device.logError d 6 (r.core / 64) 3 c.toNat r.header r.lnch 0
  | .ok t =>
    let h := Device.headerBytes d t 64
    let off := 0x30 + 4 * (r.ver % 2)
    Device.headerPut d r.core r.asid r.lnch t off ((hdrField h off 4 + 2 ^ 32 - 1) % 2 ^ 32)

/-- Has every class 3 and class 4 operation of a wave before a number completed (R324), those that a pre-emption saved among them. -/
def Device.drained (d : Device) (wave before : Nat) : Bool :=
  !(Device.engineOps d ++ d.saved.flatMap (fun sv => sv.queue ++ sv.ops)).any
    (fun x => x.wave == wave && (x.cls == 3 || x.cls == 4) && x.id < before)

/-- BINDING_RELEASE (R324): the idx-th pending release takes effect. -/
def execEvBindingRelease (idx : Nat) (s : State) : Res :=
  match s.dev.pins[idx]? with
  | none => .next s
  | some r =>
    if Device.drained s.dev r.wave r.before then
      .next (State.mapDev s (fun d => Device.releaseStep { d with pins := d.pins.eraseIdx idx } r))
    else .next s

/-- Has an operation's wave ended or restarted since it issued it: the operation runs on, and its results find no reader (R93, R94). -/
def Wave.outlived (w : Wave) (o : EngOp) : Bool := w.ended || o.id < w.born

/-- The wave's part of a version step: its scalars, its binding, its first-poison record (R323, R395). A binding made for a wave that has ended since is released at once (R324). -/
def Device.versionDone (d : Device) (o : EngOp) (v : VOut) : Device :=
  let d := if o.ctl == 1 && v.status != 0 then Device.launchErr d o.launch else d
  if Wave.outlived (Device.wave d o.wave) o then
    match v.bind with
    | some b => { d with pins := d.pins ++ [⟨b.header, b.ver, o.asid, o.core, o.wave, o.id, (Device.launch d o.launch).lnch⟩] }
    | none => d
  else
    let d := match v.err with
      | some (a, c) => Device.notePoison d o.wave a c
      | none => d
    let w := Device.wave d o.wave
    let w := if o.kind == .vbind then { w with vbind := v.bind } else w
    let vals : List Word := [BitVec.ofNat 32 v.status, BitVec.ofNat 32 v.ver, BitVec.ofNat 32 v.wbase, BitVec.ofNat 32 (v.wbase / 2 ^ 32)]
    let k := if o.ctl == 1 then 0 else if o.kind == .vbind then 4 else 2
    let w := (List.range k).foldl (fun w i => Wave.setSc w (o.reg + 2 + i) ⟨vals.getD i 0, false⟩) w
    Device.setWave d o.wave w

/-- The binding that a `vbind` gives up (R323): its wave's, where the wave still runs. -/
def Device.oldBind (d : Device) (o : EngOp) : Option VBind :=
  let w := Device.wave d o.wave
  if o.kind == .vbind && !Wave.outlived w o then w.vbind else none

/-- May a dispatched `hxcfg`, `vbind` or `vpub` act now: in its wave's order (R316), as its fences let it (R234), once what was issued under the binding that it gives up has completed (R324). -/
def Device.versionReady (d : Device) (o : EngOp) : Bool :=
  (o.kind == .hxcfg || o.kind == .vbind || o.kind == .vpub) && Device.hashTurn d o && Device.mayAct d o
  && !((Device.oldBind d o).isSome && !Device.drained d o.wave o.id)

/-- VERSION_STEP (R322, R323): a dispatched `hxcfg`, `vbind` or `vpub` acts at the home unit; `vbind` first gives up the old binding. A `vbind` or `vpub` releases and acquires at module scope (R235). -/
def execEvVersionStep (op : Nat) (s : State) : Res :=
  match Device.op? s.dev op with
  | none => .next s
  | some o =>
    if !Device.versionReady s.dev o then .next s
    else
      let d := match Device.oldBind s.dev o with
        | some b => Device.releaseStep s.dev ⟨b.header, b.ver, o.asid, o.core, o.wave, o.id, (Device.launch s.dev o.launch).lnch⟩
        | none => s.dev
      let (d, v) := Device.versionStep d o
      let d := if o.kind == .hxcfg then d else Device.fenceAct d (o.core / 8) true true 4
      .next { s with dev := Device.endOp (Device.versionDone d o v) o }

/-- Checks 3 to 5 of R318 on a header's address. -/
def State.headerWord (s : State) (n : Nat) (zeroOk : Bool) (k : State) : Res :=
  let a := State.sc64 s n
  if State.scPois s n 2 then .next (State.trap s 0x05 s.ctx.lanes 0)
  else if zeroOk && a == 0 then .next k
  else if !canonical a then .next (State.trap s 0x07 s.ctx.lanes a)
  else if a.toNat % 128 != 0 then .next (State.trap s 0x08 s.ctx.lanes a)
  else .next k

/-- The operation of a header word: its address and the scalars it writes. -/
def State.headerOp (s : State) (kind : EngKind) (n k : Nat) : EngOp :=
  { State.engOp s kind 4 with
    reg := n, scal := [(State.sc s n).v, (State.sc s (n + 1)).v], dests := (List.range k).map (fun i => .scal (n + 2 + i)) }

/-- HXCFG (R323). -/
def execHxcfg (o : E1) (s : State) : Res :=
  State.headerWord s o.s.toNat false (State.enqueue s (State.headerOp s .hxcfg o.s.toNat 2))

/-- VPUB (R323): its release is made over the wave's earlier accesses (R235). -/
def execVpub (o : E1) (s : State) : Res :=
  State.headerWord s o.s.toNat false (State.release s 4 (fun s => State.enqueue s (State.headerOp s .vpub o.s.toNat 2)))

/-- VBIND (R323): it releases as it acquires (R235). -/
def execVbind (o : E1) (s : State) : Res :=
  State.headerWord s o.s.toNat true (State.release s 4 (fun s =>
    let op := State.headerOp s .vbind o.s.toNat 4
    State.enqueue s { op with dests := op.dests ++ [.bind 0] }))

/-- Is a `vbind` of the wave outstanding (R318). -/
def State.binding (s : State) : Bool := (State.src s).outs.any (fun o => !o.done && o.dests.contains (.bind 0))

/-- The captured rows of k names from one on: every lane of the subset. -/
def State.captureRows (s : State) (v k : Nat) : List (List Word) :=
  (List.range k).map (fun i => mkLanes (fun l => if s.ctx.lanes.getLsbD l then (State.elem s (v + i) l).v else 0))

/-- The lanes of the subset with a poisoned element in k names from one on. -/
def State.poisLanes (s : State) (v k : Nat) : Mask :=
  s.ctx.lanes &&& maskOf (fun l => (List.range k).any (fun i => (State.elem s (v + i) l).p))

/-- The reserved bits of a query's control word (R326). -/
def hxReserved (x : Word) : Bool :=
  let n := x.toNat
  bitsOf n 31 20 != 0 || bitsOf n 11 10 != 0 || bitsOf n 7 6 != 0 || (hxOut x != 3 && bitsOf n 5 0 != 0)

/-- A query (R326 to R328): positions from P, outputs to D or to a ring. -/
def State.query (s : State) (p d n : Nat) (ringForm : Bool) : Res :=
  let xe := State.sc s n
  let x := xe.v
  let out := hxOut x
  let nl := hxNl x
  let names := if out == 0 then 2 * nl else if out == 3 then 0 else nl
  let L := s.ctx.lanes
  let bad := State.poisLanes s p 3
  let b := (State.src s).vbind
  let nlev := match b with
    | some b => hdrLevels b.snap
    | none => 0
  let ids := (List.range names).map (fun i => Wave.vid (State.src s) s.ctx.wb (d + i))
  let op := { State.engOp s .hxq 4 with scal := [x], rows := State.captureRows s p 3, dests := ids, snap := b,
                                        outs := if out == 3 then [(bitsOf x.toNat 4 0, 1)] else [] }
  let op := { op with sites := op.hashSites }
  let alloc (s : State) : State :=
    match s.ctx.status with
    | .ok => (List.range names).foldl (fun s i =>
        State.writeV s (d + i) (fun l => optElem (Wave.reg? (State.cur s) (Wave.vid (State.cur s) s.ctx.wb (d + i))) l) false) s
    | _ => s
  if State.binding s then .next (State.hold s .long)
  else if hxReserved x || (out == 3 && !ringForm) then .next (State.trap s 0x03 L 0)
  else if b.isNone || hxL0 x + nl > nlev || d + names > 64 then .next (State.trap s 0x03 L 0)
  else if xe.p then .next (State.trap s 0x05 L 0)
  else if bad != 0 then .next (State.trap s 0x05 bad 0)
  else if out == 3 then
    match State.ringOf s (x.setWidth 5) with
    | .error c => .next (State.trap s c L 0)
    | .ok r => if 64 * hxPitch nl > 128 * 2 ^ r.esz then .next (State.trap s 0x0E L 0) else .next (State.enqueue s op)
  else .next (alloc (State.enqueue s op))

/-- HXQ (R326 to R328): register output from vD. -/
def execHxq (o : E3) (s : State) : Res := State.query s o.a.toNat o.b.toNat o.s.toNat false

/-- HXQ.RING (R326, R328): vb is 0; with OUT 0 to 2 the word is the register form of v0. -/
def execHxqRing (o : E2) (s : State) : Res := State.query s o.p.toNat 0 o.s.toNat true

/-- HXG (R330). -/
def execHxg (o : E3) (s : State) : Res :=
  let n := o.s.toNat
  let xe := State.sc s n
  let x := xe.v
  let nl := hxNl x
  let L := s.ctx.lanes
  let p := o.a.toNat
  let g := o.b.toNat
  let b := (State.src s).vbind
  let nlev := match b with
    | some b => hdrLevels b.snap
    | none => 0
  let gb := match b with
    | some b => hdrField b.snap 0x10 8
    | none => 0
  let bad := State.poisLanes s p 3 ||| State.poisLanes s g (min (2 * nl) (64 - g))
  if State.binding s then .next (State.hold s .long)
  else if hxReserved x || hxOut x != 0 then .next (State.trap s 0x03 L 0)
  else if b.isNone || hxL0 x + nl > nlev || g + 2 * nl > 64 || gb == 0 then .next (State.trap s 0x03 L 0)
  else if xe.p then .next (State.trap s 0x05 L 0)
  else if bad != 0 then .next (State.trap s 0x05 bad 0)
  else .next (State.enqueue s { State.engOp s .hxg 4 with
    scal := [x], rows := State.captureRows s p 3 ++ State.captureRows s g (2 * nl), snap := b })

end Sys2Proof.Machine
end

