-- ==== Sys2Proof/Machine/Prims.lean ====
section
/-! DEFINITION. The exact geometry of traversal: slabs (R363) and the triangle, capsule and curve tests (R364 to R367). Finite f32 inputs are integers in units of 2^-149; a crossing is an exact number (p + s sqrt q) / r. -/

namespace Sys2Proof.Machine

/-- Is a pattern finite. -/
def finW (x : Word) : Bool := x.toNat % 2 ^ 31 < 0x7F800000

/-- A finite f32 in units of 2^-149. -/
def unitsW (x : Word) : Int :=
  let c := x.toNat % 2 ^ 31
  let m := c % 2 ^ 23
  let e := c / 2 ^ 23
  let v : Nat := if e == 0 then m else (m + 2 ^ 23) * 2 ^ (e - 1)
  if bitOf x.toNat 31 then -(v : Int) else (v : Int)

/-- A point or direction. -/
structure V3 where
  x : Int
  y : Int
  z : Int
  deriving DecidableEq, Repr

/-- A difference of points. -/
def V3.sub (a b : V3) : V3 := ⟨a.x - b.x, a.y - b.y, a.z - b.z⟩
/-- A scalar product. -/
def V3.dot (a b : V3) : Int := a.x * b.x + a.y * b.y + a.z * b.z
/-- A vector product. -/
def V3.cross (a b : V3) : V3 := ⟨a.y * b.z - a.z * b.y, a.z * b.x - a.x * b.z, a.x * b.y - a.y * b.x⟩

/-- Three patterns as a vector. -/
def vecOf (l : List Word) : V3 := ⟨unitsW (l.getD 0 0), unitsW (l.getD 1 0), unitsW (l.getD 2 0)⟩

/-- An integer square root, rounded down. -/
def sqrtNat (n : Nat) : Nat := isqrtBits n (Nat.log2 n / 2 + 1) 0

/-- The sign of a + b sqrt q, for q not negative: -1, 0 or 1. -/
def signSurd (a b : Int) (q : Nat) : Int :=
  let y : Int := if q == 0 then 0 else b
  if a ≥ 0 && y ≥ 0 then (if a == 0 && y == 0 then 0 else 1)
  else if a ≤ 0 && y ≤ 0 then -1
  else
    let c := a * a - y * y * q
    if c == 0 then 0 else if a > 0 then (if c > 0 then 1 else -1) else (if c > 0 then -1 else 1)

/-- The sign of a + b sqrt q + c sqrt r. -/
def signSurd2 (a b : Int) (q : Nat) (c : Int) (r : Nat) : Int :=
  let x := signSurd a b q
  let y := signSurd 0 c r
  if x == 0 then y
  else if y == 0 || x == y then x
  else
    let z := signSurd (a * a + b * b * q - c * c * r) (2 * a * b) q
    if x > 0 then z else -z

/-- An exact number (p + s sqrt q) / r, r positive. -/
structure Surd where
  p : Int
  s : Int
  q : Nat
  r : Nat
  deriving DecidableEq, Repr

/-- The sign of alpha + beta x. -/
def Surd.linear (x : Surd) (alpha beta : Int) : Int := signSurd (alpha * x.r + beta * x.p) (beta * x.s) x.q

/-- Is x below y. -/
def Surd.lt (x y : Surd) : Bool :=
  signSurd2 (x.p * y.r - y.p * x.r) (x.s * y.r) x.q (-(y.s * x.r)) y.q == -1

/-- alpha + beta x, divided by a positive number. -/
def Surd.affine (x : Surd) (alpha beta : Int) (d : Nat) : Surd := ⟨alpha * x.r + beta * x.p, beta * x.s, x.q, x.r * d⟩

/-- The magnitude of a number that is not negative, in units of 2^-200, with its last bit set when it is inexact. -/
def Surd.sticky (x : Surd) : Nat :=
  let b := x.s.natAbs * x.s.natAbs * x.q * 4 ^ 200
  let i := sqrtNat b
  let exact := i * i == b
  let n : Int := x.p * (2 ^ 200 : Nat) + (if x.s ≥ 0 then (i : Int) else -((i + (if exact then 0 else 1) : Nat) : Int))
  let f := (n / x.r).toNat
  2 * f + (if exact && n % x.r == 0 then 0 else 1)

/-- A number rounded to f32 under a mode (R60): exact zero gives +0. -/
def Surd.round (rm : Nat) (x : Surd) : Word :=
  let g := Surd.linear x 0 1
  let y := if g < 0 then { x with p := -x.p, s := -x.s } else x
  BitVec.ofNat 32 (Fmt.round f32 rm false false 0 (.fin (g < 0) (Surd.sticky y) (-201)))

/-- A quotient of integers as such a number. -/
def quot (n d : Int) : Surd := if d < 0 then ⟨-n, 0, 0, d.natAbs⟩ else ⟨n, 0, 0, d.natAbs⟩

/-- The quotient (b - o) / d of a slab's end, rounded; an infinite bound gives the infinity of the quotient's sign (R363). -/
def slabEnd (rm : Nat) (b o d : Word) : Word :=
  if finW b then Surd.round rm (quot (unitsW b - unitsW o) (unitsW d))
  else if bitOf b.toNat 31 == bitOf d.toNat 31 then 0x7F800000 else 0xFF800000

/-- Is a pattern below another, as f32. -/
def fltW (a b : Word) : Bool := Fv.lt (Fmt.value f32 a.toNat) (Fmt.value f32 b.toNat)
/-- Is a pattern a NaN. -/
def nanW (a : Word) : Bool := a.toNat % 2 ^ 31 > 0x7F800000
/-- Is a at most b; false when either is NaN. -/
def fleW (a b : Word) : Bool := !nanW a && !nanW b && !fltW b a

/-- `slab` (R363). -/
def slab (lo hi o d : Word) : Word × Word :=
  if fltW hi lo then (0x7F800000, 0xFF800000)
  else if d.toNat % 2 ^ 31 == 0 then
    (if fleW lo o && fleW o hi then (0xFF800000, 0x7F800000) else (0x7F800000, 0xFF800000))
  else if bitOf d.toNat 31 then (slabEnd 2 hi o d, slabEnd 3 lo o d)
  else (slabEnd 2 lo o d, slabEnd 3 hi o d)

/-- What a test returns: t, u, v. -/
structure PHit where
  t : Word
  u : Word
  v : Word
  deriving DecidableEq, Repr

/-- `tri` (R365), on nine coordinates; `cull` is x14's bits 1:0. -/
def triTest (vs org dir : List Word) (cull : Nat) : Option PHit :=
  if !vs.all finW then none
  else
    let o := vecOf org
    let d := vecOf dir
    let v0 := vecOf (vs.take 3)
    let v1 := vecOf ((vs.drop 3).take 3)
    let v2 := vecOf (vs.drop 6)
    let a0 := v0.sub o
    let a1 := v1.sub o
    let a2 := v2.sub o
    let e0 := d.dot (a1.cross a2)
    let e1 := d.dot (a2.cross a0)
    let e2 := d.dot (a0.cross a1)
    let n := (v1.sub v0).cross (v2.sub v0)
    let det := d.dot n
    if det == 0 then none
    else if !(e0 ≥ 0 && e1 ≥ 0 && e2 ≥ 0) && !(e0 ≤ 0 && e1 ≤ 0 && e2 ≤ 0) then none
    else if det > 0 && cull % 2 == 1 then none
    else if det < 0 && cull / 2 % 2 == 1 then none
    else some ⟨(quot (n.dot a0) det).round 0, (quot e1 det).round 0, (quot e2 det).round 0⟩

/-- A condition alpha + beta tau at least 0. -/
abbrev Lin := Int × Int

/-- Does a number meet the conditions. -/
def Surd.meets (x : Surd) (cs : List Lin) : Bool := cs.all (fun c => Surd.linear x c.1 c.2 ≥ 0)

/-- The zeros of a tau^2 + b tau + c that meet the conditions; where it vanishes everywhere, the least number that meets them. -/
def quadZeros (a b c : Int) (cs : List Lin) : List Surd :=
  if a == 0 then
    if b == 0 then
      (if c == 0 then (cs.filter (fun l => l.2 > 0)).filterMap (fun l =>
          let x := quot (-l.1) l.2
          if x.meets cs then some x else none)
       else [])
    else [quot (-c) b].filter (fun x => x.meets cs)
  else
    let disc := b * b - 4 * a * c
    if disc < 0 then []
    else
      let sg : Int := if a < 0 then -1 else 1
      [⟨-b * sg, -1, disc.toNat, (2 * a).natAbs⟩, ⟨-b * sg, 1, disc.toNat, (2 * a).natAbs⟩].filter (fun x => x.meets cs)

/-- The least of a list of numbers. -/
def surdMin : List Surd → Option Surd
  | [] => none
  | x :: r => some (r.foldl (fun m y => if Surd.lt y m then y else m) x)

/-- The square of the distance from a point, along the ray, less r^2, as the coefficients of tau^2, tau, 1. -/
def sphereQ (o d p : V3) (r : Int) : Int × Int × Int :=
  let w := o.sub p
  (d.dot d, 2 * w.dot d, w.dot w - r * r)

/-- `caps` (R366): the hull of two balls, its boundary in three pieces, each a quadratic with linear limits. -/
def capsTest (p0 : List Word) (r0 : Word) (p1 : List Word) (r1 : Word) (flags : Nat) (org dir : List Word) (tmin : Word) : Option PHit :=
  if !(p0 ++ p1 ++ [r0, r1]).all finW || unitsW r0 < 0 || unitsW r1 < 0 || nanW tmin || tmin == 0x7F800000 then none
  else
    let o := vecOf org
    let d := vecOf dir
    let a := vecOf p0
    let b := vecOf p1
    let ra := unitsW r0
    let rb := unitsW r1
    let ax := b.sub a
    let l2 := ax.dot ax
    let dr := rb - ra
    let w := o.sub a
    let x0 := w.dot ax
    let x1 := d.dot ax
    let start : List Lin := if tmin == 0xFF800000 then [] else [(-(unitsW tmin), (2 ^ 149 : Nat))]
    let caps : List Lin := if l2 == 0 then [] else
      (if flags % 2 == 1 then [] else [(x0, x1)]) ++ (if flags / 2 % 2 == 1 then [] else [(l2 - x0, -x1)])
    let zeros :=
      if dr * dr ≥ l2 then
        let q := if rb > ra then sphereQ o d b rb else sphereQ o d a ra
        quadZeros q.1 q.2.1 q.2.2 (start ++ caps)
      else
        let q0 := sphereQ o d a ra
        let q1 := sphereQ o d b rb
        let k := l2 - dr * dr
        let e := ra * l2 + dr * x0
        let la := (l2 * d.dot d - x1 * x1) * k - dr * x1 * (dr * x1)
        let lb := (2 * l2 * w.dot d - 2 * x0 * x1) * k - 2 * e * (dr * x1)
        let lc := (l2 * w.dot w - x0 * x0) * k - e * e
        quadZeros q0.1 q0.2.1 q0.2.2 (start ++ caps ++ [(-(x0 + dr * ra), -x1)])
        ++ quadZeros la lb lc (start ++ caps ++ [(x0 + dr * ra, x1), (k - (x0 + dr * ra), -x1), (e, dr * x1)])
        ++ quadZeros q1.1 q1.2.1 q1.2.2 (start ++ caps ++ [(x0 + dr * rb - l2, x1)])
    match surdMin zeros with
    | none => none
    | some t =>
      let u : Word :=
        if l2 == 0 then 0
        else
          let s := Surd.affine t x0 x1 l2.toNat
          if Surd.linear s 0 1 ≤ 0 then 0 else if Surd.linear s (-1) 1 ≥ 0 then 0x3F800000 else s.round 0
      some ⟨t.round 0, u, 0⟩

/-- An exact sum. -/
def Fv.add (a b : Fv) : Fv := Fv.sum false [a, b]
/-- An exact difference. -/
def Fv.sub (a b : Fv) : Fv := Fv.sum false [a, Fv.opp b]

/-- A Bezier combination of the numbers c at s, with 1 - s: the last level is the value (R367). -/
def bezier (s : Fv) : List Fv → Nat → Fv
  | [c], _ => c
  | [], _ => .fin false 0 0
  | cs, 0 => cs.headD (.fin false 0 0)
  | cs, n + 1 =>
    bezier s ((cs.zip (cs.drop 1)).map (fun p => Fv.add (Fv.mul (Fv.sub (.fin false 1 0) s) p.1) (Fv.mul s p.2))) n

/-- Differences of neighbours, times k. -/
def diffs (k : Nat) (cs : List Fv) : List Fv := (cs.zip (cs.drop 1)).map (fun p => Fv.mul (.fin false k 0) (Fv.sub p.2 p.1))

/-- A quotient of finite values, the divisor positive, as a rounded f32 (R367). -/
def divRound (n d : Fv) : Word :=
  let q := minExp [n, d]
  let z (x : Fv) : Int := if Fv.isZero x then 0 else Fv.units q x
  (quot (z n) (z d)).round 0

/-- One step of the curve's refinement (R367): the coordinates of the control points, the point P, the piece k. -/
def curveStep (cs : List (List Fv)) (pt : List Fv) (k : Nat) (s : Word) : Word :=
  let sv := Fmt.value f32 s.toNat
  let b := cs.map (fun c => bezier sv c 3)
  let b1 := cs.map (fun c => bezier sv (diffs 3 c) 2)
  let b2 := cs.map (fun c => bezier sv (diffs 2 (diffs 3 c)) 1)
  let df := (b.zip pt).map (fun p => Fv.sub p.1 p.2)
  let dot (x y : List Fv) : Fv := Fv.sum false ((x.zip y).map (fun p => Fv.mul p.1 p.2))
  let g := dot df b1
  let g2 := Fv.add (dot b1 b1) (dot df b2)
  if Fv.lt (.fin false 0 0) g2 then
    let n := Fv.sub (Fv.mul sv g2) g
    let lo : Fv := .fin false k (-3)
    let hi : Fv := .fin false (k + 1) (-3)
    if Fv.lt n (Fv.mul lo g2) then BitVec.ofNat 32 (Fmt.round f32 0 false false 0 lo)
    else if Fv.lt (Fv.mul hi g2) n then BitVec.ofNat 32 (Fmt.round f32 0 false false 0 hi)
    else divRound n g2
  else s

/-- `curve` (R367), on sixteen numbers: x, y, z and the radius of each control point. -/
def curveTest (cp : List Word) (flags : Nat) (org dir : List Word) (tmin tmax : Word) : Option PHit :=
  let col (j : Nat) : List Word := (List.range 4).map (fun i => cp.getD (4 * i + j) 0)
  if !(cp.take 16).all finW || (col 3).any (fun r => unitsW r < 0) then none
  else
    let cols : List (List Fv) := (List.range 4).map (fun j => (col j).map (fun x => Fmt.value f32 x.toNat))
    let q (k : Nat) : List Word := cols.map (fun c => BitVec.ofNat 32 (Fmt.round f32 0 false false 0 (bezier (.fin false k (-3)) c 3)))
    let pieces := (List.range 8).filterMap (fun k =>
      let f := (if k == 0 then flags % 2 else 1) + 2 * (if k == 7 then flags / 2 % 2 else 1)
      (capsTest ((q k).take 3) ((q k).getD 3 0) ((q (k + 1)).take 3) ((q (k + 1)).getD 3 0) f org dir tmin).map (fun h => (k, h)))
    match pieces with
    | [] => none
    | p :: r =>
      let (kk, best) := r.foldl (fun m e => if fltW e.2.t m.2.t then e else m) p
      if fltW tmax best.t then none
      else
        let s0 := BitVec.ofNat 32 (Fmt.round f32 0 false false 0
          (Fv.scale (-3) (Fv.add (.fin false kk 0) (Fmt.value f32 best.u.toNat))))
        let t := Fmt.value f32 best.t.toNat
        let pt := (org.zip dir).map (fun e => Fv.add (Fmt.value f32 e.1.toNat) (Fv.mul t (Fmt.value f32 e.2.toNat)))
        let xyz := cols.take 3
        some ⟨best.t, curveStep xyz pt kk (curveStep xyz pt kk s0), 0⟩

end Sys2Proof.Machine
end

