-- ==== Sys2Proof/Machine/Traversal.lean ====
section
/-! DEFINITION. The traversal engine: layouts and programs (R338 to R342), rays and their records (R343, R368 to R371), suspension and errors (R355, R356), the words of TRV (R335 to R337, R357 to R360, R372 to R378). -/

namespace Sys2Proof.Machine

/-- What a read of the engine answers (R333): bytes, a failure with its address, or a wait for an absent line (R184). -/
inductive RdRes where
  | ok (bs : List Byte)
  | bad (a : DWord) (c : BitVec 8)
  | wait
  deriving DecidableEq, Repr

/-- Reads n bytes, at most 16, of one aligned unit for a wave's ray (R333). -/
def Device.rayPiece (d : Device) (w : Wave) (a : DWord) (n : Nat) : RdRes :=
  let ag := Device.agentOf d w
  match Device.translate d ag.unit (Device.asidOf d w) .r a n with
  | .error c => .bad a c
  | .ok t =>
    if placeOf t.pa == 2 then .bad a 0x07
    else if placeOf t.pa == 1 && Device.lineAbsent d (sramCl t.pa) (sramOff t.pa) then .wait
    else if placeOf t.pa == 1 && (List.range ((n + 3) / 4)).any (fun i => Device.sramPois d (sramCl t.pa) (sramOff t.pa + 4 * i)) then .bad a 0x05
    else if Device.memBad d (replicaPa t ag.die) n then .bad a 0x0F
    else .ok (Device.readBytes d ag t 0 n)

/-- Reads k aligned units of n bytes. -/
def Device.rayUnits (d : Device) (w : Wave) (a : DWord) (n : Nat) : Nat → RdRes
  | 0 => .ok []
  | k + 1 =>
    match Device.rayPiece d w a n with
    | .ok b =>
      match Device.rayUnits d w (a + BitVec.ofNat 64 n) n k with
      | .ok r => .ok (b ++ r)
      | x => x
    | x => x

/-- Reads k units of n bytes; a unit that is not aligned, as an edited record may ask for (R375), is read byte by byte. -/
def Device.rayRead (d : Device) (w : Wave) (a : DWord) (n : Nat) (k : Nat) : RdRes :=
  if a.toNat % n == 0 then Device.rayUnits d w a n k else Device.rayUnits d w a 1 (n * k)

/-- A field entry of a layout (R339). -/
def layEntry (l : List Byte) (f : Nat) : Nat := fieldAt l (0x20 + 8 * f) 8
/-- KIND of an entry. -/
def entKind (e : Nat) : Nat := bitsOf e 39 36
/-- WID of an entry. -/
def entWid (e : Nat) : Nat := bitsOf e 21 16
/-- The bit offset of element i of an entry (R339). -/
def entOff (e i : Nat) : Nat := bitsOf e 10 0 + i * bitsOf e 63 48
/-- QO of an entry. -/
def entQo (e : Nat) : Nat := bitsOf e 47 44
/-- QS of an entry. -/
def entQs (e : Nat) : Nat := bitsOf e 43 40
/-- Field number j of BOXF (R338): low x, y, z, high x, y, z. -/
def boxField (l : List Byte) (j : Nat) : Nat := fieldAt l 0x18 4 / 16 ^ j % 16
/-- SIZE[c]. -/
def laySize (l : List Byte) (c : Nat) : Nat := fieldAt l (0x10 + 2 * c) 2

/-- Is a field entry malformed (R339, R340). -/
def fieldBad (l : List Byte) (e : Nat) : Bool :=
  let w := entWid e
  let k := entKind e
  let kindOf (f : Nat) : Nat := if f < 12 then entKind (layEntry l f) else 15
  let widOk : Bool := match k with
    | 0 => w == 0
    | 1 => 1 ≤ w && w ≤ 32
    | 2 => 1 ≤ w && w ≤ 32
    | 3 => w == 32
    | 4 => w == 16
    | 5 => w == 16
    | 6 => w == 8
    | 7 => 1 ≤ w && w ≤ 16
    | 8 => 1 ≤ w && w ≤ 16
    | _ => false
  bitsOf e 35 22 != 0 || bitsOf e 15 11 != 0 || !widOk
  || (if k == 7 || k == 8 then !(3 ≤ kindOf (entQo e) && kindOf (entQo e) ≤ 5) || kindOf (entQs e) != 6
      else entQo e != 0 || entQs e != 0)

/-- Is a layout descriptor malformed (R338 to R340). -/
def layoutBad (l : List Byte) : Bool :=
  fieldAt l 0 8 % 16 != 0 || fieldAt l 8 8 % 16 != 0
  || (List.range 4).any (fun c => laySize l c != 0 && (laySize l c < 16 || laySize l c > 256 || laySize l c % 16 != 0))
  || fieldAt l 0x1B 1 != 0 || fieldAt l 0x1C 4 != 0
  || (List.range 12).any (fun f => fieldBad l (layEntry l f))
  || (List.range 6).any (fun j =>
      let f := boxField l j
      let k := entKind (layEntry l f)
      f ≥ 12 || !((3 ≤ k && k ≤ 5) || k == 7 || k == 8))

/-- Does a micro-operation keep the limits of R344 in a program of n words. -/
def microOk (w n : Nat) : Bool :=
  let d := bitsOf w 26 23
  let a := bitsOf w 22 19
  let b := bitsOf w 18 15
  let im := bitsOf w 14 0
  match bitsOf w 31 27 with
  | 0 => d == 0 && a == 0 && b == 0 && im == 0
  | 1 => d == 0 && b == 0 && im < 4
  | 2 => b == 0 && im < 12
  | 3 => b == 0 && im == 0
  | 4 => b == 0 && d ≤ 14 && 1 ≤ im && im ≤ 8 && a + im ≤ 16
  | 5 => true
  | 6 => d == 0 && b == 0 && im == 0
  | 7 => a == 0 && b == 0 && im == 0
  | 8 => d == 0 && b == 0 && im == 0
  | 9 => d == 0 && b == 0 && im == 0
  | 10 => d == 0 && b == 0 && im == 0
  | 11 => b == 0 && im == 0 && d ≤ 14
  | 12 => d == 0 && a == 0 && b == 0 && im == 0
  | 13 => d == 0 && a == 0 && b == 0 && im == 0
  | 14 => d == 0 && a == 0 && b == 0 && im == 0
  | 15 => im < 4096 && im < n && ((1 ≤ d && d ≤ 6) || d ≥ 14 || (a == 0 && b == 0))
  | 16 => d == 0 && b == 0 && im < 4096 && im < n
  | 17 => d == 0 && b == 0 && im < 16 && im % 4 ≤ 2 && im / 4 ≤ 2
  | 18 => d == 0 && b == 0 && im < 2
  | 19 => d == 0 && a == 0 && b == 0 && im < 256
  | _ => false

/-- L of a program image (R342). -/
def codeLen (c : List Byte) : Nat := fieldAt c 0 2

/-- Micro-operation i of an image. -/
def codeWord (c : List Byte) (i : Nat) : Nat := fieldAt c (16 + 4 * i) 4

/-- Is an image's header malformed (R342). -/
def codeHeadBad (c : List Byte) : Bool := codeLen c == 0 || codeLen c > 4096 || fieldAt c 2 14 != 0

/-- Is a program image malformed (R342). -/
def codeBad (c : List Byte) : Bool :=
  codeHeadBad c || (List.range (codeLen c)).any (fun i => !microOk (codeWord c i) (codeLen c))

/-- Reads a program image in full (R374): its header, and its words where L is in range. An image with L out of range has no words that the manual states: its header alone is read (DESIGN CHOICE 64). -/
def Device.readCode (d : Device) (w : Wave) (a : DWord) : RdRes :=
  match Device.rayRead d w a 16 1 with
  | .ok h =>
    if codeLen h == 0 || codeLen h > 4096 then .ok h
    else match Device.rayRead d w (a + 16) 4 (codeLen h) with
      | .ok r => .ok (h ++ r)
      | x => x
  | x => x

/-- Reads a layout descriptor. -/
def Device.readLayout (d : Device) (w : Wave) (a : DWord) : RdRes := Device.rayRead d w a 16 8

/-- No hit. -/
def RHit.none : RHit := ⟨false, 0, 0, 0, 0, 0, 0⟩

/-- A ray in the initial state of R343 under two snapshots. -/
def Ray.start (op : Nat) (lay code : TBind) (rsb : DWord) (budget : Word) : Ray :=
  { st := .running, op := op, lay := lay, code := code, mpc := 0, lim := budget != 0, budget := budget, rf := .none,
    stamp := false, qerr := false, slost := false, h := false, inInst := false, xd := 0, stack := [], regs := List.replicate 16 0,
    org := [0, 0, 0], dir := [0, 0, 0], tmin := 0, tmax := 0, inb := 0, ipb := 0, iorg := [0, 0, 0], idir := [0, 0, 0],
    ihnd := 0, iid := 0, cand := RHit.none, hit := RHit.none, node := [], nodeClass := 0, nodeAddr := 0, rsb := rsb,
    res := 0, detail := 0, rmpc := 0, todo := [] }

/-- The address of lane l's record slot (R356). -/
def Ray.slot (r : Ray) (l : Nat) : DWord := r.rsb + BitVec.ofNat 64 (256 * l)

/-- A list of patterns as record bytes. -/
def wordsBytes (l : List Word) : List Byte := l.flatMap (fun x => leBytes 4 x.toNat)

/-- A hit in a record (R368). -/
def RHit.bytes (h : RHit) : List Byte := if h.valid then wordsBytes [h.t, h.u, h.v, h.prim, h.inst] else zeros 20

/-- CTRL of a record (R369). -/
def Ray.ctrl (r : Ray) : Nat :=
  r.mpc % 4096 + 2 ^ 12 * r.h.toNat + 2 ^ 13 * r.slost.toNat + 2 ^ 14 * r.qerr.toNat + 2 ^ 15 * r.stamp.toNat + 2 ^ 16 * r.inInst.toNat
  + 2 ^ 17 * r.cand.valid.toNat + 2 ^ 18 * r.hit.valid.toNat + 2 ^ 19 * r.cand.kind + 2 ^ 21 * r.hit.kind + 2 ^ 23 * r.stack.length
  + 2 ^ 27 * r.xd + 2 ^ 31 * r.lim.toNat

/-- The ray-state record (R368 to R371). -/
def Ray.recordBytes (r : Ray) (code detail : Nat) : List Byte :=
  let inst (n : Nat) (bs : List Byte) : List Byte := if r.inInst then bs else zeros n
  leBytes 4 (code + 256 * detail) ++ leBytes 4 r.ctrl ++ leBytes 8 r.lay.addr.toNat ++ leBytes 8 r.code.addr.toNat
  ++ leBytes 4 (if r.lim then r.budget.toNat else 0) ++ leBytes 4 r.tmin.toNat ++ leBytes 4 r.tmax.toNat
  ++ wordsBytes r.org ++ wordsBytes r.dir ++ wordsBytes ((r.regs.drop 1).take 15)
  ++ wordsBytes ((List.range 12).map (fun i => r.stack.getD i 0))
  ++ inst 8 (leBytes 8 r.inb.toNat) ++ inst 8 (leBytes 8 r.ipb.toNat) ++ inst 12 (wordsBytes r.iorg) ++ inst 12 (wordsBytes r.idir)
  ++ inst 4 (leBytes 4 r.ihnd.toNat) ++ inst 4 (leBytes 4 r.iid.toNat) ++ r.cand.bytes ++ r.hit.bytes

/-- Does a record hold a CTRL word or addresses that no ray has (R369, R374). -/
def recordShapeBad (bs : List Byte) : Bool :=
  let ct := fieldAt bs 4 4
  let lay := BitVec.ofNat 64 (fieldAt bs 8 8)
  let prg := BitVec.ofNat 64 (fieldAt bs 0x10 8)
  bitsOf ct 30 27 > 12 || bitsOf ct 26 23 > 12 || bitsOf ct 30 27 > bitsOf ct 26 23 || (bitsOf ct 30 27 != 0 && !bitOf ct 16)
  || !canonical lay || lay.toNat % 128 != 0 || !canonical prg || prg.toNat % 16 != 0

/-- Is a record one that `tresume` refuses with code 3 (R374). -/
def recordBad (bs : List Byte) : Bool :=
  let st := fieldAt bs 0 4
  let detail := bitsOf st 15 8
  bitsOf st 31 17 != 0 || bitsOf st 7 4 != 0 || !(4 ≤ st % 16 && st % 16 ≤ 6) || bitOf st 16
  || (st % 16 == 4 && !([0x05, 0x06, 0x07, 0x0F] : List Nat).contains detail) || (st % 16 == 5 && detail != 0) || recordShapeBad bs

/-- A list of patterns from record bytes. -/
def wordsAt (bs : List Byte) (off n : Nat) : List Word := (List.range n).map (fun i => BitVec.ofNat 32 (fieldAt bs (off + 4 * i) 4))

/-- A hit of a record. -/
def hitAt (bs : List Byte) (off : Nat) (valid : Bool) (kind : Nat) : RHit :=
  let x (i : Nat) : Word := BitVec.ofNat 32 (fieldAt bs (off + 4 * i) 4)
  ⟨valid, x 0, x 1, x 2, x 3, x 4, kind⟩

/-- The ray that a record describes (R374). -/
def Ray.ofRecord (bs : List Byte) (op : Nat) (rsb : DWord) : Ray :=
  let ct := fieldAt bs 4 4
  let x (o : Nat) : Word := BitVec.ofNat 32 (fieldAt bs o 4)
  let y (o : Nat) : DWord := BitVec.ofNat 64 (fieldAt bs o 8)
  { Ray.start op ⟨y 8, []⟩ ⟨y 0x10, []⟩ rsb 0 with
    mpc := bitsOf ct 11 0, h := bitOf ct 12, slost := bitOf ct 13, qerr := bitOf ct 14, stamp := bitOf ct 15, inInst := bitOf ct 16,
    lim := bitOf ct 31, budget := x 0x18, tmin := x 0x1C, tmax := x 0x20, org := wordsAt bs 0x24 3, dir := wordsAt bs 0x30 3,
    regs := 0 :: wordsAt bs 0x3C 15, stack := wordsAt bs 0x78 (bitsOf ct 26 23), xd := bitsOf ct 30 27,
    inb := y 0xA8, ipb := y 0xB0, iorg := wordsAt bs 0xB8 3, idir := wordsAt bs 0xC4 3, ihnd := x 0xD0, iid := x 0xD4,
    cand := hitAt bs 0xD8 (bitOf ct 17) (bitsOf ct 20 19), hit := hitAt bs 0xEC (bitOf ct 18) (bitsOf ct 22 21) }

/-- Puts a lane's ray in place. -/
def Device.setRay (d : Device) (u l : Nat) (r : Ray) : Device :=
  let w := Device.wave d u
  Device.setWave d u { w with rays := Tbl.put w.rays l r }

/-- The leaf of bytes that a wave's ray writes (R333): no register is one. -/
def Device.rayTr (d : Device) (w : Wave) (p : DWord × List Byte) : Except (BitVec 8) Tr :=
  match Device.translate d w.core (Device.asidOf d w) .w p.1 p.2.length with
  | .error c => .error c
  | .ok t => if placeOf t.pa == 2 then .error 0x07 else .ok t

/-- The first of some pieces that a wave's ray cannot write, and why. -/
def Device.rayFault (d : Device) (w : Wave) (ps : List (DWord × List Byte)) : Option (DWord × BitVec 8) :=
  ps.findSome? (fun p => match Device.rayTr d w p with
    | .error c => some (p.1, c)
    | .ok _ => none)

/-- Writes bytes for a wave's ray, unit by unit (one that is not aligned byte by byte, R375), once every byte is known to translate; none when one does not (R353, R356). -/
def Device.rayWrite (d : Device) (w : Wave) (ps : List (DWord × List Byte)) : Except (DWord × BitVec 8) Device :=
  let ps := ps.flatMap (fun p =>
    if p.1.toNat % max 1 p.2.length == 0 then [p] else (List.range p.2.length).map (fun i => (p.1 + BitVec.ofNat 64 i, (p.2.drop i).take 1)))
  match Device.rayFault d w ps with
  | some e => .error e
  | none => .ok (ps.foldl (fun d p => match Device.rayTr d w p with
    | .error _ => d
    | .ok t => Device.storeAt d w false t p.2) d)

/-- Pieces of n bytes of a list, from an address. -/
def bytePieces (a : DWord) (n : Nat) (bs : List Byte) : Nat → List (DWord × List Byte)
  | 0 => []
  | k + 1 => (a, bs.take n) :: bytePieces (a + BitVec.ofNat 64 n) n (bs.drop n) k

/-- The ray is lost (R356): its record could not be written. -/
def Device.rayLost (d : Device) (u l : Nat) (r : Ray) (e : DWord × BitVec 8) : Device :=
  Device.setRay (Device.notePoison d u e.1 e.2) u l { r.finish 9 e.2.toNat with todo := [] }

/-- Suspends a ray (R356): its record is to be written to the lane's slot, in 8-byte units of an order that is left open (R371); one whose record does not translate is lost with code 9. A fault or a loss fills the wave's first-poison record. -/
def Device.raySuspend (d : Device) (u l : Nat) (r : Ray) (code detail : Nat) (va : DWord) : Device :=
  let d := if code == 4 then Device.notePoison d u va (BitVec.ofNat 8 detail) else d
  match Device.rayFault d (Device.wave d u) (bytePieces (r.slot l) 8 (r.recordBytes code detail) 32) with
  | none =>
    { Device.setRay d u l { r with st := .suspending, res := code, detail := detail, todo := Device.anyOrder d (List.range 32) } with
      freeCtr := d.freeCtr + 32 }
  | some e => Device.rayLost d u l r e

/-- A suspending ray writes the next unit of its record; with the last it is finished (R356, R371). -/
def Device.rayStore (d : Device) (u l : Nat) (r : Ray) : Device :=
  match r.todo with
  | [] => Device.setRay d u l (r.finish r.res r.detail)
  | i :: t =>
    match Device.rayWrite d (Device.wave d u) [(r.slot l + BitVec.ofNat 64 (8 * i), ((r.recordBytes r.res r.detail).drop (8 * i)).take 8)] with
    | .ok d => Device.setRay d u l (if t.isEmpty then { r.finish r.res r.detail with todo := [] } else { r with todo := t })
    | .error e => Device.rayLost d u l r e

/-- The start of an operation's scalars: RSB. -/
def EngOp.rsb (o : EngOp) : DWord := pair64 (o.scal.getD 0 0) (o.scal.getD 1 0)

/-- A ray that `trace` refuses (R362): rows P to P + 7 in a lane. -/
def rayInvalid (v : List Word) : Bool :=
  let vec := v.take 6
  let tmin := v.getD 6 0
  let tmax := v.getD 7 0
  vec.any (fun x => !finW x) || ((v.drop 3).take 3).all (fun x => x.toNat % 2 ^ 31 == 0) || nanW tmin || nanW tmax || fltW tmax tmin

/-- The captured rows of an operation in a lane. -/
def EngOp.laneRow (o : EngOp) (l : Nat) : List Word := o.rows.map (fun r => r.getD l 0)

/-- No snapshot. -/
def TBind.none : TBind := ⟨0, []⟩

/-- `trace` fills a lane's slot (R357). -/
def EngOp.traceRay (o : EngOp) (l : Nat) : Ray :=
  let v := o.laneRow l
  let r := Ray.start o.id (o.tlay.getD TBind.none) (o.tcode.getD TBind.none) o.rsb (o.scal.getD 2 0)
  if rayInvalid v then r.finish 3 0
  else { r with org := v.take 3, dir := (v.drop 3).take 3, tmin := v.getD 6 0, tmax := v.getD 7 0,
                regs := putAt (putAt (putAt r.regs 1 (o.scal.getD 3 0) 0) 14 (v.getD 8 0) 0) 15 (v.getD 9 0) 0 }

/-- `tstamp` fills a lane's slot (R377). -/
def EngOp.stampRay (o : EngOp) (l : Nat) : Ray :=
  let v := o.laneRow l
  let r := Ray.start o.id (o.tlay.getD TBind.none) (o.tcode.getD TBind.none) o.rsb (o.scal.getD 2 0)
  { r with stamp := true, org := List.replicate 3 0x7F800000, dir := List.replicate 3 0xFF800000, tmin := 0, tmax := 0x7F800000,
           regs := putAt (putAt (putAt r.regs 1 (v.getD 0 0) 0) 2 (v.getD 1 0) 0) 3 (o.scal.getD 3 0) 0 }

/-- ACCEPT (R349). -/
def Ray.accept (r : Ray) : Ray :=
  if r.cand.valid then { r with hit := r.cand, tmax := r.cand.t, cand := RHit.none } else r

/-- The current instance identifier of a hit (R349). -/
def Ray.hitInst (r : Ray) : Word := if r.inInst then r.iid else 0xFFFFFFFF

/-- TERM (R349). -/
def Ray.term (r : Ray) : Ray := r.finish (if r.hit.valid then 2 else 1) 0

/-- ACT, END and RF of an action word (R373), with the rows of P + 3 to P + 6. -/
def Ray.act (r : Ray) (a : Word) (v : List Word) : Ray :=
  let n := a.toNat
  let r := match n % 4 with
    | 1 => r.accept
    | 2 => { r with cand := RHit.none }
    | 3 =>
      let t := v.getD 3 0
      if fleW r.tmin t && fleW t r.tmax then
        Ray.accept { r with cand := ⟨true, t, v.getD 4 0, v.getD 5 0, v.getD 6 0, r.hitInst, 3⟩ }
      else r
    | _ => r
  if bitOf n 2 then r.term else if bitOf n 3 then { r with rf := some (bitsOf n 7 4, bitsOf n 9 8) } else r

/-- The compare-and-swap of a record's STATE at its point of coherence (R374, R216): whether it found the value, or its failure. -/
def Device.claim (d : Device) (w : Wave) (a : DWord) (st : Nat) : Except (BitVec 8) (Device × Bool) :=
  match Device.translate d w.core (Device.asidOf d w) .rw a 4 with
  | .error c => .error c
  | .ok t =>
    if placeOf t.pa == 2 then .error 0x07
    else if placeOf t.pa == 1 then
      let old := ofLeBytes (Device.sramRead d (sramCl t.pa) (sramOff t.pa) 4)
      .ok (if old == st then Device.stlBy d 0 (sramCl t.pa) (sramOff t.pa) 4 (leBytes 4 (st + 65536)) else d, old == st)
    else if Device.memBad d (atomPa t) 4 then .error 0x0F
    else
      let d := Device.l1Clear d (w.core / 8) (linesOfBytes (atomPa t) 4)
      let old := ofLeBytes ((List.range 4).map (fun i => Device.memByte d t.key (atomPa t + i)))
      .ok (if old == st then Device.writeBytes d (Device.agentOf d w) (Device.asidOf d w) false t (leBytes 4 (st + 65536)) else d, old == st)

/-- The snapshots that `tresume` takes (R374): both are read before either is judged. -/
inductive Snaps where
  | ok (lay code : TBind)
  | fault (a : DWord) (c : BitVec 8)
  | malformed
  | wait
  deriving DecidableEq, Repr

/-- Reads the layout and the program that a record names. -/
def Device.snaps (d : Device) (w : Wave) (lay code : DWord) : Snaps :=
  match Device.readLayout d w lay, Device.readCode d w code with
  | .bad a c, _ => .fault a c
  | .ok _, .bad a c => .fault a c
  | .ok l, .ok p => if layoutBad l || codeBad p then .malformed else .ok ⟨lay, l⟩ ⟨code, p⟩
  | _, _ => .wait

/-- A slot that `tresume` fills before a record has been taken (R374). -/
def EngOp.blankRay (o : EngOp) : Ray := Ray.start o.id TBind.none TBind.none o.rsb 0

/-- The first half of `tresume` on a lane (R374): the record is read and judged, then claimed; none while a line that it reads is absent. -/
def Device.resumeClaim (d : Device) (o : EngOp) (l : Nat) : Option Device :=
  let u := o.wave
  let w := Device.wave d u
  let v := o.laneRow l
  let x := pair64 (v.getD 0 0) (v.getD 1 0)
  let lost (a : DWord) (c : BitVec 8) : Device := Device.setRay (Device.notePoison d u a c) u l (o.blankRay.finish 9 c.toNat)
  match Device.rayRead d w x 8 32 with
  | .wait => none
  | .bad a c => some (lost a c)
  | .ok bs =>
    if recordBad bs then some (Device.setRay d u l (o.blankRay.finish 3 0))
    else match Device.claim d w x (fieldAt bs 0 4) with
      | .error c => some (lost x c)
      | .ok (d, false) => some (Device.setRay d u l (o.blankRay.finish 3 0))
      | .ok (d, true) => some (Device.setRay d u l { Ray.ofRecord bs o.id o.rsb with st := .resuming })

/-- The second half (R374): the snapshots are read in full and judged, and the action is applied; none while a line that it reads is absent. -/
def Device.resumeLoad (d : Device) (o : EngOp) (l : Nat) (r : Ray) : Option Device :=
  let u := o.wave
  let v := o.laneRow l
  let r := { r with st := .running }
  match Device.snaps d (Device.wave d u) r.lay.addr r.code.addr with
  | .wait => none
  | .fault a c => some (Device.raySuspend d u l r 4 c.toNat a)
  | .malformed => some (Device.setRay d u l (r.finish 8 7))
  | .ok lay code =>
    let r := { r with lay := lay, code := code }
    let b := o.scal.getD 2 0
    let r := if b != 0 then { r with budget := b, lim := true } else r
    some (Device.setRay d u l (r.act (v.getD 2 0) v))

/-- The slot of a lane that an operation has filled. -/
def Device.slotOf (d : Device) (o : EngOp) (l : Nat) : Option Ray :=
  match Tbl.get? (Device.wave d o.wave).rays l with
  | some r => if r.op == o.id then some r else none
  | none => none

/-- Has `tresume` still to do something in a lane (R374). -/
def Device.toResume (d : Device) (o : EngOp) (l : Nat) : Bool :=
  match Device.slotOf d o l with
  | some r => r.st == .resuming
  | none => true

/-- A step of `tresume` on a lane (R374): the device after it; none while a line that it reads is absent. -/
def Device.resumeLane (d : Device) (o : EngOp) (l : Nat) : Option Device :=
  match Device.slotOf d o l with
  | some r => Device.resumeLoad d o l r
  | none => Device.resumeClaim d o l

/-- The lanes that an operation's rays use: helper lanes are left empty (R357, R374, R377). -/
def EngOp.rayLanes (o : EngOp) : List Nat := lanesOf (o.mask &&& ~~~o.helpers)

/-- Empties the slots of an operation's helper lanes. -/
def Device.emptyHelpers (d : Device) (o : EngOp) : Device :=
  let w := Device.wave d o.wave
  Device.setWave d o.wave { w with rays := w.rays.filter (fun e => !(o.mask &&& o.helpers).getLsbD e.1) }

/-- The wave's part of `tlayout` and `tcode` (R337, R395): the binding, the status, the first-poison record; a wave that has ended since takes none of them (R93, R94). -/
def Device.bindDone (d : Device) (o : EngOp) (status : Nat) (b : Option TBind) (err : Option (DWord × BitVec 8)) : Device :=
  let d := match err with
    | some (a, c) => Device.notePoison d o.wave a c
    | none => d
  let d := if o.ctl == 1 && status != 0 then Device.launchErr d o.launch else d
  let w := Device.wave d o.wave
  if Wave.outlived w o then d
  else
    let w := if o.kind == .tlayout then { w with tlay := b } else { w with tcode := b }
    Device.setWave d o.wave (if o.ctl == 1 then w else Wave.setSc w (o.reg + 2) ⟨BitVec.ofNat 32 status, false⟩)

/-- `tlayout` or `tcode` at the engine (R337); none while a line it reads is absent. -/
def Device.bindStep (d : Device) (o : EngOp) : Option Device :=
  let a := o.rsb
  let w := Device.wave d o.wave
  let unit := if o.kind == .tlayout then 128 else 16
  if !canonical a || a.toNat % unit != 0 then some (Device.bindDone d o 3 none (some (a, 0x07)))
  else match (if o.kind == .tlayout then Device.readLayout d w a else Device.readCode d w a) with
    | .wait => none
    | .bad x c => some (Device.bindDone d o 3 none (some (x, c)))
    | .ok bs =>
      if (if o.kind == .tlayout then layoutBad bs else codeBad bs) then some (Device.bindDone d o 4 none none)
      else some (Device.bindDone d o 0 (some ⟨a, bs⟩) none)

/-- A wave that has ended runs no ray (R360): what an operation that it had issued starts now stops as by `tabort`. -/
def Device.stopLate (d : Device) (o : EngOp) : Device :=
  let w := Device.wave d o.wave
  if w.ended then Device.setWave d o.wave (Wave.abortRays w o.mask) else d

/-- Starts a dispatched operation of the engine (R333, R357, R374, R377). -/
def Device.travStart (d : Device) (o : EngOp) : Device :=
  let u := o.wave
  let go (d : Device) : Device := Device.setOp (Device.stopLate d o) { o with phase := 1 }
  match o.kind with
    | .trace => go (o.rayLanes.foldl (fun d l => Device.setRay d u l (o.traceRay l)) (Device.emptyHelpers d o))
    | .tstamp => go (o.rayLanes.foldl (fun d l => Device.setRay d u l (o.stampRay l)) (Device.emptyHelpers d o))
    | .tresume =>
      match o.rayLanes.filter (Device.toResume d o) with
      | [] => go (Device.emptyHelpers d o)
      | l :: _ => (Device.resumeLane (Device.emptyHelpers d o) o l).getD d
    | .tabort => go (Device.setWave d u (Wave.abortRays (Device.wave d u) o.mask))
    | .tlayout =>
      match Device.bindStep d o with
      | none => d
      | some d => go d
    | .tcode =>
      match Device.bindStep d o with
      | none => d
      | some d => go d
    | _ => d

/-- Are all rays of a started operation finished, and for `tabort` those of its lanes (R359). -/
def Device.raysDone (d : Device) (o : EngOp) : Bool :=
  !(Device.wave d o.wave).rays.any (fun e => e.2.st != .finished && (e.2.op == o.id || (o.kind == .tabort && e.2.op < o.id && o.mask.getLsbD e.1)))

/-- One step of the engine for a wave (R333, R357, R359): its oldest operation that has not started starts, when no earlier one of the core that its fences let start (R234) has still to; else its oldest one whose rays are finished completes. -/
def Device.travStep (d : Device) (u : Nat) : Device :=
  let mine := d.ops.filter (fun o => o.wave == u && o.kind.engine == .trav)
  match mine.find? (fun o => o.phase == 0) with
  | some o =>
    if !Device.mayAct d o || d.ops.any (fun x => x.core == o.core && x.kind.engine == .trav && x.phase == 0 && x.id < o.id && Device.mayAct d x) then d
    else Device.travStart d o
  | none =>
    match mine.find? (fun o => Device.raysDone d o) with
    | some o => Device.endOp d o
    | none => d

/-- Is the ray slot of some lane of a set being filled or running (R334): an operation that fills it has not started, or the ray runs. -/
def Device.slotBusy (d : Device) (u : Nat) (L : Mask) : Bool :=
  (Device.engineOps d).any (fun o => o.wave == u && o.phase == 0 && (o.kind == .trace || o.kind == .tresume || o.kind == .tstamp) && (o.mask &&& L) != 0)
  || (Device.wave d u).rays.any (fun e => e.2.st != .finished && L.getLsbD e.1)

/-- Checks 4 and 5 of R336. -/
def State.travAddr (s : State) (a : DWord) (n : Nat) (k : State) : Res :=
  if !canonical a then .next (State.trap s 0x07 s.ctx.lanes a)
  else if a.toNat % n != 0 then .next (State.trap s 0x08 s.ctx.lanes a)
  else .next k

/-- Has the wave a word outstanding that writes a binding: the binding counts as a register for R82 (R334). -/
def State.boundNow (s : State) (k : Nat) : Bool := (State.src s).outs.any (fun o => !o.done && o.dests.contains (.bind k))

/-- Is a `tlayout` or `tcode` of the wave outstanding (R334). -/
def State.travBinding (s : State) : Bool := State.boundNow s 1 || State.boundNow s 2

/-- A word that binds (R337); one that writes the same binding holds it back (R82, R334). -/
def State.bindWord (s : State) (o : E1) (kind : EngKind) (k n : Nat) : Res :=
  let r := o.s.toNat
  if State.boundNow s k then .next (State.hold s .long)
  else if State.scPois s r 2 then .next (State.trap s 0x05 s.ctx.lanes 0)
  else State.travAddr s (State.sc64 s r) n (State.enqueue s { State.engOp s kind 5 with
    reg := r, scal := [(State.sc s r).v, (State.sc s (r + 1)).v], dests := [.scal (r + 2), .bind k] })

/-- TLAYOUT (R337). -/
def execTlayout (o : E1) (s : State) : Res := State.bindWord s o .tlayout 1 128
/-- TCODE (R337). -/
def execTcode (o : E1) (s : State) : Res := State.bindWord s o .tcode 2 16

/-- `trace` and `tstamp` (R336, R357, R377): k per-lane names from P. -/
def State.traceWord (s : State) (o : E2) (kind : EngKind) (k : Nat) : Res :=
  let w := State.src s
  let n := o.s.toNat
  let p := o.p.toNat
  let L := s.ctx.lanes
  let bad := State.poisLanes s p k &&& ~~~(Wave.helpers w)
  if State.travBinding s || Device.slotBusy s.dev s.ctx.wave L then .next (State.hold s .long)
  else if w.tlay.isNone || w.tcode.isNone then .next (State.trap s 0x03 L 0)
  else if State.scPois s n 4 then .next (State.trap s 0x05 L 0)
  else if bad != 0 then .next (State.trap s 0x05 bad 0)
  else State.travAddr s (State.sc64 s n) 256 (State.enqueue s { State.engOp s kind 5 with
    scal := (List.range 4).map (fun i => (State.sc s (n + i)).v), rows := State.captureRows s p k, tlay := w.tlay, tcode := w.tcode })

/-- TRACE (R357). -/
def execTrace (o : E2) (s : State) : Res := State.traceWord s o .trace 10
/-- TSTAMP (R377). -/
def execTstamp (o : E2) (s : State) : Res := State.traceWord s o .tstamp 2

/-- The status word of a ray (R358). -/
def Ray.status (r : Ray) : Nat :=
  r.res + 16 * r.slost.toNat + 32 * r.hit.valid.toNat + 64 * (if r.hit.valid then r.hit.kind else 0) + 256 * r.detail + 65536 * (r.rmpc % 4096)
  + 2 ^ 28 * r.qerr.toNat

/-- Name D + i of `tget` for a lane (R358). -/
def tgetWord (r : Option Ray) (l i : Nat) : Word :=
  match r with
  | none => 0
  | some r =>
    match i with
    | 0 => if r.hit.valid then r.hit.t else 0x7F800000
    | 1 => if r.hit.valid then r.hit.prim else 0
    | 2 => if r.hit.valid then r.hit.inst else 0
    | 3 => if r.hit.valid then r.hit.u else 0
    | 4 => if r.hit.valid then r.hit.v else 0
    | 5 => BitVec.ofNat 32 r.status
    | 6 => lo32 (r.slot l)
    | _ => hi32 (r.slot l)

/-- TGET (R358). -/
def execTget (o : EV) (s : State) : Res :=
  if Device.slotBusy s.dev s.ctx.wave s.ctx.lanes then .next (State.hold s .long)
  else .next ((List.range 8).foldl (fun t i =>
    State.writeV t (o.d.toNat + i) (fun l => ⟨tgetWord (Tbl.get? (State.src s).rays l) l i, false⟩) false) s)

/-- TABORT (R359). -/
def execTabort (_ : C0) (s : State) : Res := .next (State.enqueue s (State.engOp s .tabort 5))

/-- TRESUME (R372 to R374). -/
def execTresume (o : E2) (s : State) : Res :=
  let w := State.src s
  let n := o.s.toNat
  let p := o.p.toNat
  let L := s.ctx.lanes
  let live := L &&& ~~~(Wave.helpers w)
  let act (l : Nat) : Word := (State.elem s (p + 2) l).v
  let bad := live &&& (State.poisLanes s p 3 ||| (State.poisLanes s (p + 3) 4 &&& maskOf (fun l => (act l).toNat % 4 == 3)))
  let badAct := live &&& maskOf (fun l => (act l).toNat ≥ 1024)
  let x (l : Nat) : DWord := pair64 (State.elem s p l).v (State.elem s (p + 1) l).v
  let nc := live &&& maskOf (fun l => !canonical (x l))
  let mis := live &&& maskOf (fun l => (x l).toNat % 256 != 0)
  let rsb := State.sc64 s n
  if Device.slotBusy s.dev s.ctx.wave L then .next (State.hold s .long)
  else if State.scPois s n 3 then .next (State.trap s 0x05 L 0)
  else if bad != 0 then .next (State.trap s 0x05 bad 0)
  else if badAct != 0 then .next (State.trap s 0x03 badAct 0)
  else if !canonical rsb then .next (State.trap s 0x07 L rsb)
  else if rsb.toNat % 256 != 0 then .next (State.trap s 0x08 L rsb)
  else if nc != 0 then .next (State.trap s 0x07 nc (x ((lanesOf nc).headD 0)))
  else if mis != 0 then .next (State.trap s 0x08 mis (x ((lanesOf mis).headD 0)))
  else .next (State.enqueue s { State.engOp s .tresume 5 with
    scal := (List.range 3).map (fun i => (State.sc s (n + i)).v), rows := State.captureRows s p 7 })

end Sys2Proof.Machine
end

