-- ==== Sys2Proof/Machine/Rays.lean ====
section
/-! DEFINITION. The micro-operations of traversal programs (R344 to R355) and the completion of operations (R240). -/

namespace Sys2Proof.Machine

/-- What a micro-operation does to its ray: goes on at the next index or at another one, finishes it, faults, waits for an absent line; with the device where it writes memory or draws a free value. -/
inductive MRes where
  | next (r : Ray)
  | jump (r : Ray) (t : Nat)
  | fin (r : Ray) (code detail : Nat)
  | fault (a : DWord) (c : BitVec 8)
  | yield (reason : Nat)
  | wait
  deriving DecidableEq, Repr

/-- Reads a micro-register: x0 is 0 (R343). -/
def Ray.x (r : Ray) (i : BitVec 4) : Word := if i == 0 then 0 else r.regs.getD i.toNat 0

/-- Writes a micro-register: a write to x0 is discarded (R343). -/
def Ray.setX (r : Ray) (i : Nat) (v : Word) : Ray := if i == 0 then r else { r with regs := putAt r.regs i v 0 }

/-- The running ray of the current wave and lane. -/
def State.ray? (s : State) : Option Ray :=
  match Tbl.get? (Device.wave s.dev s.ctx.wave).rays s.ctx.lane with
  | some r => if r.st == .running then some r else none
  | none => none

/-- Is the ray's budget exhausted (R345). -/
def Ray.spent (r : Ray) : Bool := r.lim && r.budget == 0

/-- Counts an executed micro-operation against the budget and clears a resumption's FETCH (R345, R373). -/
def Ray.counted (r : Ray) : Ray := { r with budget := if r.lim then r.budget - 1 else r.budget, rf := none }

/-- Runs a micro-operation on the ray of the current lane (R345, R355, R356): MPC goes on, except after a resumption's FETCH. -/
def State.micro (s : State) (f : Device → Wave → Ray → Device × MRes) : Res :=
  let u := s.ctx.wave
  let l := s.ctx.lane
  match State.ray? s with
  | none => .next s
  | some r =>
    if r.spent then .next (State.mapDev s (fun d => Device.raySuspend d u l r 5 0 0))
    else
      let step := if r.rf.isSome then 0 else 1
      match f s.dev (Device.wave s.dev u) r with
      | (d, .next r') => .next { s with dev := Device.setRay d u l { r'.counted with mpc := r.mpc + step } }
      | (d, .jump r' t) => .next { s with dev := Device.setRay d u l { r'.counted with mpc := t } }
      | (d, .fin r' c n) => .next { s with dev := Device.setRay d u l (r'.counted.finish c n) }
      | (_, .fault a c) => .next (State.mapDev s (fun d => Device.raySuspend d u l r 4 c.toNat a))
      | (_, .yield n) => .next (State.mapDev s (fun d => Device.raySuspend d u l { r.counted with mpc := r.mpc + 1 } 6 n 0))
      | (_, .wait) => .next s

/-- A micro-operation that only changes its ray. -/
def State.microR (s : State) (f : Ray → MRes) : Res := State.micro s (fun d _ r => (d, f r))

/-- The current level's node base (R338, R350). -/
def Ray.nbase (r : Ray) : DWord := if r.inInst then r.inb else BitVec.ofNat 64 (fieldAt r.lay.image 0 8)
/-- The current level's primitive base. -/
def Ray.pbase (r : Ray) : DWord := if r.inInst then r.ipb else BitVec.ofNat 64 (fieldAt r.lay.image 8 8)
/-- The current level's origin. -/
def Ray.o (r : Ray) : List Word := if r.inInst then r.iorg else r.org
/-- The current level's direction. -/
def Ray.d (r : Ray) : List Word := if r.inInst then r.idir else r.dir

/-- The address of a handle (R338). -/
def handleAt (base : DWord) (h : Word) : DWord := base + BitVec.ofNat 64 (16 * h.toNat)

/-- NOP (R344). -/
def execMiNop (s : State) : Res := State.microR s .next

/-- FETCH (R346). -/
def execMiFetch (o : UAK) (s : State) : Res :=
  State.micro s (fun d w r =>
    let n := laySize r.lay.image o.k.toNat
    let a := handleAt r.nbase (r.x o.a)
    if n == 0 then (d, .fin r 8 5)
    else match Device.rayRead d w a 16 (n / 16) with
      | .ok bs => (d, .next { r with node := bs, nodeClass := o.k.toNat, nodeAddr := a })
      | .bad a c => (d, .fault a c)
      | .wait => (d, .wait))

/-- Bits of the node buffer: w bits from bit off (R339), none outside the buffered class. -/
def nodeBits (node : List Byte) (off w : Nat) : Option Nat :=
  if off + w ≤ 8 * node.length then
    some (ofLeBytes ((node.drop (off / 8)).take (w / 8 + 2)) / 2 ^ (off % 8) % 2 ^ w)
  else none

/-- An exact value as an f32 pattern; NaN is canonical (R340). -/
def asF32 (v : Fv) : Word := BitVec.ofNat 32 (Fmt.round f32 0 false false 0 v)

/-- The bits of field f, element e. -/
def Ray.fieldBits (r : Ray) (f e : Nat) : Option Nat :=
  let n := layEntry r.lay.image f
  nodeBits r.node (entOff n e) (entWid n)

/-- The pattern of a field of KIND 1 to 6 (R340). -/
def Ray.plainField (r : Ray) (f e : Nat) : Option Word :=
  let n := layEntry r.lay.image f
  match r.fieldBits f e with
  | none => none
  | some b =>
    match entKind n with
    | 1 => some (BitVec.ofNat 32 b)
    | 2 => some (wrap32 (sext b (entWid n)))
    | 3 => some (BitVec.ofNat 32 b)
    | 4 => some (asF32 (Fmt.value f16 b))
    | 5 => some (asF32 (Fmt.value bf16 b))
    | 6 => some (asF32 (e8Value b))
    | _ => none

/-- Field f, element e (R340); none is program error 1. -/
def Ray.field (r : Ray) (f e : Nat) : Option Word :=
  let n := layEntry r.lay.image f
  let k := entKind n
  if f ≥ 12 then none
  else if k == 7 || k == 8 then
    match r.fieldBits f e, r.plainField (entQo n) e, r.fieldBits (entQs n) e with
    | some q, some ov, some sv =>
      if nanW ov || sv == 255 then some 0x7FC00000
      else
        let x := Fv.sum (k == 7) [Fmt.value f32 ov.toNat, .fin false q ((sv : Int) - 127)]
        some (BitVec.ofNat 32 (Fmt.round f32 (if k == 7 then 2 else 3) false false 0 x))
    | _, _, _ => none
  else r.plainField f e

/-- FIELD (R344). -/
def execMiField (o : UDAF) (s : State) : Res :=
  State.microR s (fun r => match r.field o.f.toNat (r.x o.a).toNat with
    | some v => .next (r.setX o.d.toNat v)
    | none => .fin r 8 1)

/-- The six bounds of a node's element (R338, R347). -/
def Ray.bounds (r : Ray) (e : Nat) : Option (List Word) :=
  (List.range 6).foldr (fun j acc => match acc, r.field (boxField r.lay.image j) e with
    | some l, some v => some (v :: l)
    | _, _ => none) (some [])

/-- BOX on six bounds (R347, R363): x[D], and H. -/
def Ray.boxTest (r : Ray) (b : List Word) : Word × Bool :=
  if b.any nanW || (r.o ++ r.d).any (fun x => !finW x) || nanW r.tmin || nanW r.tmax then (0x7F800000, false)
  else
    let ts := (List.range 3).map (fun a => slab (b.getD a 0) (b.getD (a + 3) 0) (r.o.getD a 0) (r.d.getD a 0))
    let tn := ts.foldl (fun m t => if fltW m t.1 then t.1 else m) r.tmin
    let tf := ts.foldl (fun m t => if fltW t.2 m then t.2 else m) r.tmax
    if fleW tn tf then (tn, true) else (0x7F800000, false)

/-- BOX (R347). -/
def execMiBox (o : UDA) (s : State) : Res :=
  State.microR s (fun r => match r.bounds (r.x o.a).toNat with
    | none => .fin r 8 1
    | some b =>
      let t := r.boxTest b
      .next ({ r with h := t.2 }.setX o.d.toNat t.1))

/-- A sort key: NaN counts as +inf (R347). -/
def sortKey (x : Word) : Word := if nanW x then 0x7F800000 else x

/-- Inserts an index into a list ordered by key, after its equals. -/
def sortIns (k : Nat → Word) (i : Nat) : List Nat → List Nat
  | [] => [i]
  | j :: r => if fltW (k i) (k j) then i :: j :: r else j :: sortIns k i r

/-- SORT (R347). -/
def execMiSort (o : UDAF) (s : State) : Res :=
  State.microR s (fun r =>
    let n := o.f.toNat
    let key (i : Nat) : Word := sortKey (r.x (BitVec.ofNat 4 (o.a.toNat + i)))
    let ord := (List.range n).foldl (fun l i => sortIns key i l) []
    let v := (List.range 8).foldl (fun a j => a + (if j < n then ord.getD j 0 else 15) * 16 ^ j) 0
    let below := ((List.range n).filter (fun i => fltW (key i) 0x7F800000)).length
    .next ((r.setX o.d.toNat (BitVec.ofNat 32 v)).setX (o.d.toNat + 1) (BitVec.ofNat 32 below)))

/-- SELECT (R347). -/
def execMiSelect (o : USel) (s : State) : Res :=
  State.microR s (fun r =>
    let v : Word := match o.m.toNat with
      | 0 => BitVec.ofNat 32 ((r.x o.a).toNat / 16 ^ ((r.x o.b).toNat % 8) % 16)
      | 1 => BitVec.ofNat 32 o.v.toNat
      | 2 => r.x o.a + o.v.signExtend 32
      | _ => r.x o.a + r.x o.b
    .next (r.setX o.d.toNat v))

/-- PUSH (R348). -/
def execMiPush (o : UA) (s : State) : Res :=
  State.microR s (fun r =>
    let v := r.x o.a
    if r.stack.length ≥ 12 then .next { r with stack := r.stack.drop 1 ++ [v], slost := true, xd := r.xd - 1 }
    else .next { r with stack := r.stack ++ [v] })

/-- POP (R348). -/
def execMiPop (o : UD) (s : State) : Res :=
  State.microR s (fun r => match r.stack.getLast? with
    | none => .fin r 8 2
    | some v => .next ({ r with stack := r.stack.dropLast }.setX o.d.toNat v))

/-- Does a ray have a NaN or infinite component at its level (R363). -/
def Ray.wild (r : Ray) : Bool := (r.o ++ r.d).any (fun x => !finW x)

/-- The outcome of a primitive test (R349): a hit within tmin to tmax becomes the candidate. -/
def Ray.tested (r : Ray) (kind : Nat) (prim : Word) (p : Option PHit) : Ray :=
  match p with
  | none => { r with h := false }
  | some p =>
    if fleW r.tmin p.t && fleW p.t r.tmax then { r with h := true, cand := ⟨true, p.t, p.u, p.v, prim, r.hitInst, kind⟩ }
    else { r with h := false }

/-- A primitive test (R349, R364): reads k units of 16 bytes and tests them. -/
def State.primTest (s : State) (a : BitVec 4) (k kind : Nat) (f : Ray → List Byte → Option PHit) : Res :=
  State.micro s (fun d w r =>
    match Device.rayRead d w (handleAt r.pbase (r.x a)) 16 k with
    | .ok bs => (d, .next (r.tested kind (r.x a) (if r.wild then none else f r bs)))
    | .bad a c => (d, .fault a c)
    | .wait => (d, .wait))

/-- TRI (R349, R365). -/
def execMiTri (o : UA) (s : State) : Res :=
  State.primTest s o.a 3 0 (fun r bs => triTest (wordsAt bs 0 9) r.o r.d ((r.x 14).toNat % 4))

/-- CAPS (R349, R366). -/
def execMiCaps (o : UA) (s : State) : Res :=
  State.primTest s o.a 3 1 (fun r bs =>
    let x := wordsAt bs 0 9
    capsTest (x.take 3) (x.getD 3 0) ((x.drop 4).take 3) (x.getD 7 0) (x.getD 8 0).toNat r.o r.d r.tmin)

/-- CURVE (R349, R367). -/
def execMiCurve (o : UA) (s : State) : Res :=
  State.primTest s o.a 5 2 (fun r bs =>
    let x := wordsAt bs 0 17
    curveTest (x.take 16) (x.getD 16 0).toNat r.o r.d r.tmin r.tmax)

/-- A component of a transformed vector (R350): the exact scalar product of a row with (v, 1) or (v, 0), all four products of it, rounded once. -/
def rowDot (m v : List Word) (last : Bool) : Word :=
  let x (w : Word) : Fv := Fmt.value f32 w.toNat
  let t := (List.range 3).map (fun i => Fv.mul (x (m.getD i 0)) (x (v.getD i 0)))
  asF32 (Fv.sum false (t ++ [Fv.mul (x (m.getD 3 0)) (.fin false (if last then 1 else 0) 0)]))

/-- XFORM (R350). -/
def execMiXform (o : UDA) (s : State) : Res :=
  State.micro s (fun d w r =>
    if r.inInst then (d, .fin r 8 3)
    else match Device.rayRead d w (handleAt r.pbase (r.x o.a)) 16 5 with
      | .bad a c => (d, .fault a c)
      | .wait => (d, .wait)
      | .ok bs =>
        let m (i : Nat) : List Word := wordsAt bs (16 * i) 4
        let org := (List.range 3).map (fun i => rowDot (m i) r.org true)
        let dir := (List.range 3).map (fun i => rowDot (m i) r.dir false)
        let nb := fieldAt bs 0x30 8
        let pb := fieldAt bs 0x38 8
        let x (off : Nat) : Word := BitVec.ofNat 32 (fieldAt bs off 4)
        if (org ++ dir).any (fun x => !finW x) || dir.all (fun x => x.toNat % 2 ^ 31 == 0) || nb % 16 != 0 || pb % 16 != 0 then
          (d, .next { r with h := false })
        else
          let r' := { r with inInst := true, iorg := org, idir := dir, inb := BitVec.ofNat 64 nb, ipb := BitVec.ofNat 64 pb,
                             iid := x 0x40, ihnd := r.x o.a, xd := r.stack.length, h := true }
          (d, .next ((r'.setX o.d.toNat (x 0x44)).setX (o.d.toNat + 1) (x 0x48))))

/-- POPX (R350). -/
def execMiPopx (s : State) : Res :=
  State.microR s (fun r => if r.inInst then .next { r with inInst := false, xd := 0 } else .fin r 8 3)

/-- ACCEPT (R349). -/
def execMiAccept (s : State) : Res := State.microR s (fun r => .next r.accept)

/-- TERM (R349). -/
def execMiTerm (s : State) : Res := State.microR s (fun r => .fin r (if r.hit.valid then 2 else 1) 0)

/-- A condition of BR (R351). -/
def Ray.cond (r : Ray) (c : Nat) (a b : Word) : Bool :=
  match c with
  | 0 => true
  | 1 => a == b
  | 2 => a != b
  | 3 => a.toNat < b.toNat
  | 4 => a.toNat ≥ b.toNat
  | 5 => fltW a b
  | 6 => fleW b a
  | 7 => r.h
  | 8 => !r.h
  | 9 => r.stack.isEmpty
  | 10 => !r.stack.isEmpty
  | 11 => r.inInst && r.stack.length == r.xd
  | 12 => r.slost
  | 13 => r.hit.valid
  | 14 => (a &&& b) == 0
  | _ => (a &&& b) != 0

/-- BR (R351). -/
def execMiBr (o : UBr) (s : State) : Res :=
  State.microR s (fun r => if r.cond o.d.toNat (r.x o.a) (r.x o.b) then .jump r o.t.toNat else .next r)

/-- LOOP (R351). -/
def execMiLoop (o : ULoop) (s : State) : Res :=
  State.microR s (fun r =>
    let v := r.x o.a - 1
    let r' := r.setX o.a.toNat v
    if (if o.a == 0 then 0xFFFFFFFF else v) != 0 then .jump r' o.t.toNat else .next r')

/-- The union of an axis with bounds (R352): NaN makes the axis (-inf, +inf). -/
def uniteAxis (nan : Bool) (lo hi l h : Word) : Word × Word :=
  if nan then (0xFF800000, 0x7F800000) else (if fltW l lo then l else lo, if fltW hi h then h else hi)

/-- The bounds of a ball (R352): p - r rounded down, p + r rounded up. -/
def ballBounds (p r : Word) : Word × Word :=
  let x (w : Word) : Fv := Fmt.value f32 w.toNat
  (BitVec.ofNat 32 (Fmt.round f32 2 false false 0 (Fv.sum true [x p, Fv.opp (x r)])),
   BitVec.ofNat 32 (Fmt.round f32 3 false false 0 (Fv.sum false [x p, x r])))

/-- The least and the greatest of some bounds, NaN when one of them is. -/
def boundsOf (bs : List (Word × Word)) : Word × Word :=
  (if bs.any (fun b => nanW b.1) then 0x7FC00000 else bs.foldl (fun m b => if fltW b.1 m then b.1 else m) 0x7F800000,
   if bs.any (fun b => nanW b.2) then 0x7FC00000 else bs.foldl (fun m b => if fltW m b.2 then b.2 else m) 0xFF800000)

/-- The bounds of a primitive's axis (R352): points as lists of x, y, z and a radius; NaN anywhere on the axis is reported. -/
def primAxis (pts : List (List Word)) (tri : Bool) (a : Nat) : Bool × Word × Word :=
  (pts.any (fun p => nanW (p.getD a 0) || (!tri && nanW (p.getD 3 0))),
   boundsOf (pts.map (fun p => if tri then (p.getD a 0, p.getD a 0) else ballBounds (p.getD a 0) (p.getD 3 0))))

/-- The points of a primitive's record (R341). -/
def primPoints (kind : Nat) (bs : List Byte) : List (List Word) :=
  match kind with
  | 0 => (List.range 3).map (fun i => wordsAt bs (12 * i) 3)
  | 1 => (List.range 2).map (fun i => wordsAt bs (16 * i) 4)
  | _ => (List.range 4).map (fun i => wordsAt bs (16 * i) 4)

/-- Unites the accumulator with bounds of each axis. -/
def Ray.unite (r : Ray) (b : Nat → Bool × Word × Word) : Ray :=
  let u (a : Nat) : Word × Word := uniteAxis (b a).1 (r.org.getD a 0) (r.dir.getD a 0) (b a).2.1 (b a).2.2
  { r with org := (List.range 3).map (fun a => (u a).1), dir := (List.range 3).map (fun a => (u a).2) }

/-- SETB's union (R352). With a bound that is NaN, of a box read in mode 1 or of an infinite centre and radius, the manual states no minimum or maximum: that bound alone is a free value (DESIGN CHOICE 31). -/
def Device.setbUnite (d : Device) (r : Ray) (b : Nat → Bool × Word × Word) : Device × Ray :=
  let r' := r.unite b
  let bad (x : Nat → Word) (a : Nat) : Bool := !(b a).1 && nanW (x a)
  let lo (a : Nat) : Word := (b a).2.1
  let hi (a : Nat) : Word := (b a).2.2
  if [0, 1, 2].any (bad lo) || [0, 1, 2].any (bad hi) then
    ({ d with freeCtr := d.freeCtr + 6 },
     { r' with
       org := (List.range 3).map (fun a => if bad lo a then Config.freeWord (d.freeCtr + a) else r'.org.getD a 0)
       dir := (List.range 3).map (fun a => if bad hi a then Config.freeWord (d.freeCtr + 3 + a) else r'.dir.getD a 0) })
  else (d, r')

/-- SETB (R352). -/
def execMiSetb (o : USetb) (s : State) : Res :=
  State.micro s (fun d w r =>
    let put (b : Nat → Bool × Word × Word) : Device × MRes :=
      let (d, r) := Device.setbUnite d r b
      (d, .next r)
    if !r.stamp then (d, .fin r 8 4)
    else match o.m.toNat with
      | 0 => (d, .next { r with org := List.replicate 3 0x7F800000, dir := List.replicate 3 0xFF800000 })
      | 1 =>
        match r.bounds (r.x o.a).toNat with
        | none => (d, .fin r 8 1)
        | some b => put (fun a => (false, b.getD a 0, b.getD (a + 3) 0))
      | _ =>
        let k := o.k.toNat
        match Device.rayRead d w (handleAt r.pbase (r.x o.a)) 16 (if k == 2 then 5 else 3) with
        | .ok bs => put (primAxis (primPoints k bs) (k == 0))
        | .bad a c => (d, .fault a c)
        | .wait => (d, .wait))

/-- Writes w bits into a node's bytes. -/
def putBits (node : List Byte) (off w v : Nat) : List Byte :=
  let n := ofLeBytes node
  leBytes node.length (n - n / 2 ^ off % 2 ^ w * 2 ^ off + v % 2 ^ w * 2 ^ off)

/-- A stamped bound's code (R353), with whether it was clamped, and whether the manual states it. -/
def Ray.stampCode (r : Ray) (f e : Nat) (low : Bool) (v : Word) : Option (Nat × Bool × Bool) :=
  let n := layEntry r.lay.image f
  let x := Fmt.value f32 v.toNat
  let rm := if low then 2 else 3
  match entKind n with
  | 3 => some (v.toNat, false, true)
  | 4 => some (Fmt.round f16 rm false false 0 x, false, true)
  | 5 => some (Fmt.round bf16 rm false false 0 x, false, true)
  | _ =>
    match r.plainField (entQo n) e, r.fieldBits (entQs n) e with
    | some ov, some sv =>
      let top : Int := (2 ^ entWid n : Nat) - 1
      let q := Fv.scale (127 - (sv : Int)) (Fv.sum false [x, Fv.opp (Fmt.value f32 ov.toNat)])
      if sv == 255 then some (0, false, false)
      else match q with
        | .nan => some (0, false, false)
        | .inf neg => some (if neg then 0 else top.toNat, true, true)
        | .fin _ _ _ =>
          let i := Fv.toInt rm 0 q
          some ((min (max i 0) top).toNat, i < 0 || i > top, true)
    | _, _ => none

/-- The bytes of a node that hold bits of the given ranges, as aligned 4-byte units of its address. -/
def touched (a : DWord) (node : List Byte) (rs : List (Nat × Nat)) : List (DWord × List Byte) :=
  let hit (i : Nat) : Bool := rs.any (fun r => 8 * i < r.1 + r.2 && r.1 < 8 * i + 8)
  (List.range (node.length / 4)).flatMap (fun k =>
    let is := (List.range 4).map (fun i => 4 * k + i)
    if is.all hit then [(a + BitVec.ofNat 64 (4 * k), (node.drop (4 * k)).take 4)]
    else (is.filter hit).map (fun i => (a + BitVec.ofNat 64 i, (node.drop i).take 1)))

/-- STB's state as it goes from axis to axis: the node, the ranges written, QERR, the free values drawn; none is a misuse. -/
abbrev StbAcc := Option (Ray × List (Nat × Nat) × Nat)

/-- STB mode 0 on one field (R353). -/
def stbField (base : Nat) (e : Nat) (j : Nat) (acc : StbAcc) : StbAcc :=
  match acc with
  | none => none
  | some (r, rs, k) =>
    let f := boxField r.lay.image j
    let n := layEntry r.lay.image f
    let low := j < 3
    let v := if low then r.org.getD j 0 else r.dir.getD (j - 3) 0
    let empty := r.org.getD (j % 3) 0 == 0x7F800000 && r.dir.getD (j % 3) 0 == 0xFF800000
    let off := entOff n e
    match r.stampCode f e low v, nodeBits r.node off (entWid n) with
    | some (c, cl, known), some _ =>
      let code := if known then c else (Config.freeWord (base + k)).toNat
      some ({ r with node := putBits r.node off (entWid n) code, qerr := r.qerr || (cl && !empty) }, (off, entWid n) :: rs, if known then k else k + 1)
    | _, _ => none

/-- STB mode 1 on one axis (R353): the origin, then the least exponent that covers the bound. -/
def stbAxis (e : Nat) (j : Nat) (acc : StbAcc) : StbAcc :=
  match acc with
  | none => none
  | some (r, rs, k) =>
    let lo := layEntry r.lay.image (boxField r.lay.image j)
    let hi := layEntry r.lay.image (boxField r.lay.image (j + 3))
    let quant (n : Nat) : Bool := entKind n == 7 || entKind n == 8
    if !quant lo || !quant hi then none
    else
      let qo := layEntry r.lay.image (entQo lo)
      let qs := layEntry r.lay.image (entQs lo)
      let x := r.org.getD j 0
      let code := match entKind qo with
        | 3 => x.toNat
        | 4 => Fmt.round f16 2 false false 0 (Fmt.value f32 x.toNat)
        | _ => Fmt.round bf16 2 false false 0 (Fmt.value f32 x.toNat)
      match nodeBits r.node (entOff qo e) (entWid qo), nodeBits r.node (entOff qs e) 8 with
      | some _, some _ =>
        let r' := { r with node := putBits r.node (entOff qo e) (entWid qo) code }
        let ov := Fmt.value f32 ((r'.plainField (entQo lo) e).getD 0).toNat
        let h := Fmt.value f32 (r.dir.getD j 0).toNat
        let fits (s : Nat) : Bool :=
          let y := Fv.sum false [ov, .fin false (2 ^ entWid hi - 1) ((s : Int) - 127)]
          !Fv.isNan y && !Fv.isNan h && !Fv.lt y h
        let (sv, bad) := match (List.range 255).find? fits with
          | some s => (s, false)
          | none => (254, true)
        some ({ r' with node := putBits r'.node (entOff qs e) 8 sv, qerr := r'.qerr || bad },
              (entOff qs e, 8) :: (entOff qo e, entWid qo) :: rs, k)
      | _, _ => none

/-- STB (R353). -/
def execMiStb (o : UStb) (s : State) : Res :=
  State.micro s (fun d w r =>
    if !r.stamp || r.node.isEmpty then (d, .fin r 8 4)
    else
      let e := (r.x o.a).toNat
      let acc : StbAcc := some (r, [], 0)
      let out := if o.m == 0 then (List.range 6).foldl (fun a j => stbField d.freeCtr e j a) acc
        else (List.range 3).foldl (fun a j => stbAxis e j a) acc
      match out with
      | none => (d, .fin r 8 4)
      | some (r', rs, k) =>
        match Device.rayWrite d w (touched r.nodeAddr r'.node rs) with
        | .error (a, c) => (d, .fault a c)
        | .ok d => ({ d with freeCtr := d.freeCtr + k }, .next r'))

/-- YIELD (R354). -/
def execMiYield (o : UYield) (s : State) : Res := State.microR s (fun _ => .yield o.r.toNat)

/-- BUDGET_EXHAUSTED (R345): a ray without budget suspends before its next micro-operation. -/
def execEvBudgetExhausted (wave : Nat) (lane : Nat) (s : State) : Res :=
  match Tbl.get? (Device.wave s.dev wave).rays lane with
  | none => .next s
  | some r =>
    if r.st == .running && r.spent then .next (State.mapDev s (fun d => Device.raySuspend d wave lane r 5 0 0)) else .next s

/-- A ray that runs past its last micro-operation (R344, R355). -/
def Device.rayPast (d : Device) (u l : Nat) (r : Ray) : Device :=
  if r.spent then Device.raySuspend d u l r 5 0 0 else Device.setRay d u l (r.finish 8 6)

/-- The word of the micro-operation that a ray runs (R342): that of its snapshot or, where software has changed the image since, by a free choice the one that stands there now; one that is no legal micro-operation of the program has no effect that the manual states, and is not chosen (DESIGN CHOICE 64). -/
def Device.rayWord (d : Device) (w : Wave) (r : Ray) : Device × Nat :=
  let old := codeWord r.code.image r.mpc
  match Device.rayRead d w (r.code.addr + BitVec.ofNat 64 (16 + 4 * r.mpc)) 4 1 with
  | .ok bs =>
    let now := ofLeBytes bs
    if now == old || !microOk now (codeLen r.code.image) then (d, old)
    else ({ d with freeCtr := d.freeCtr + 1 }, if (Config.freeByte d.freeCtr).getLsbD 0 then now else old)
  | _ => (d, old)

/-- The operation of a wave's hash class that the engine performs next. -/
def Device.hashNext (d : Device) (u : Nat) : Option EngOp :=
  d.ops.find? (fun o => o.wave == u && o.cls == 4 && (o.kind == .hxq || o.kind == .hxg))

/-- OPERATION_COMPLETE (R240): classes 0 and 1 by their oldest unfinished operation; classes 4 and 5 by a step of their engine; an operation of another class completes with the event that ends it. -/
def execEvOperationComplete (wave cls : Nat) (s : State) : Res :=
  match Tbl.get? s.dev.waves wave with
  | none => .next s
  | some w =>
    match cls with
    | 4 =>
      match Device.hashNext s.dev wave with
      | some o => .next (State.mapDev s (fun d => Device.hashPerform d o))
      | none => .next s
    | 5 => .next (State.mapDev s (fun d => Device.travStep d wave))
    | _ =>
      match w.outs.find? (fun o => o.cls == cls && !o.done) with
      | none => .next s
      | some o => if cls ≤ 1 then .next (State.mapDev s (fun d => Device.completeOp d wave o)) else .next s

end Sys2Proof.Machine
end

