-- ==== Sys2Proof/Machine/Peloton.lean ====
section
/-! DEFINITION. The Peloton collective engine (R405 to R424): `coll`, the start of a program, its steps one by one, messages, aborts, the stop of a link, the registers. -/

namespace Sys2Proof.Machine

/-- COLL (R407): releases at die scope, takes a queue entry, counts in class 6; s[A+2] receives the status. -/
def execColl (o : E1) (s : State) : Res :=
  let n := o.s.toNat
  let a := State.sc64 s n
  let L := s.ctx.lanes
  if State.scPois s n 2 then .next (State.trap s 0x05 L 0)
  else if !canonical a then .next (State.trap s 0x07 L a)
  else if a.toNat % 256 != 0 then .next (State.trap s 0x08 L a)
  else .next (State.release s 3 (fun s =>
    State.enqueue s { State.engOp s .coll 6 with scal := [lo32 a, hi32 a], dests := [.scal (n + 2)] }))

/-- A die's Peloton. -/
def Device.pel (d : Device) (die : Nat) : Peloton := (Device.die d die).pel

/-- Replaces a die's Peloton. -/
def Device.setPel (d : Device) (die : Nat) (p : Peloton) : Device := Device.setDie d die { Device.die d die with pel := p }

/-- The global rank of a die (R405). -/
def Device.rankOf (d : Device) (die : Nat) : Nat := 4 * d.sys.modnum + die

/-- The status word (R407). -/
def collStatus (hdr : Bool) (idx detail code : Nat) : Word :=
  BitVec.ofNat 32 ((if hdr then 2 ^ 28 else 0) + (if hdr then 0 else idx % 4096 * 65536) + detail % 256 * 256 + code)

/-- Ends the running program (R407, R423): its wave's s[A+2] receives the status, unless the wave has ended or was restarted since (R94), and the operation completes. The L1 of the wave's cluster holds no byte older than the program's writes, which happen before what follows (R237, R424). -/
def Device.pelFinish (d : Device) (die : Nat) (p : PProg) (status : Word) : Device :=
  let d := Device.setPel d die { Device.pel d die with running := none }
  let d := match Tbl.get? d.waves p.wave with
    | none => d
    | some w =>
      let d := Device.l1Drop d (w.core / 8) everyLine
      match w.outs.find? (fun o => o.id == p.op) with
      | some o => match o.dests with
        | .scal n :: _ => if w.ended || p.op < w.born then d else Device.setWave d p.wave (Wave.setSc w n ⟨status, false⟩)
        | _ => d
      | none => d
  Device.finish (Device.dropOp d p.op) p.wave p.op

/-- An abort flit reaches a die (R421): the running program of that TAG ends with code 5; where it is moving data, at its next step boundary, and where none runs, the abort waits in staging. -/
def Device.abortAt (d : Device) (die : Nat) (tag : BitVec 16) : Device :=
  let x := Device.pel d die
  match x.running with
  | some p =>
    if p.started && p.tag == tag && p.taken.isNone then Device.pelFinish d die p (collStatus false p.pc 0 5)
    else Device.setPel d die { x with aborts := x.aborts ++ [tag] }
  | none => Device.setPel d die { x with aborts := x.aborts ++ [tag] }

/-- Sends an abort flit to every other rank of a program's group (R421); a module that is not reached receives none. -/
def Device.sendAborts (d : Device) (die : Nat) (p : PProg) : Device :=
  let me := Device.rankOf d die
  (List.range p.n).foldl (fun d i =>
    let g := p.gbase + i
    if g == me then d
    else if g / 4 == d.sys.modnum then Device.abortAt d (g % 4) p.tag
    else if d.reach.contains (g / 4) then { d with outbox := d.outbox ++ [.abort g p.tag] }
    else d) d

/-- Is the workgroup of a program's wave killed: its program stops at its next step boundary and aborts no group (R423). -/
def Device.pelKilled (d : Device) (p : PProg) : Bool := (Device.wg d (Device.wave d p.wave).wg).killed

/-- Ends the running program with a code at its present step (R407, R421): codes 2, 3, 4 and 6 abort the group. -/
def Device.pelEnd (d : Device) (die : Nat) (p : PProg) (code detail : Nat) : Device :=
  let live := !Device.pelKilled d p
  let d := Device.pelFinish d die p (collStatus false p.pc detail code)
  if !live then d
  else if code == 2 || code == 3 || code == 4 || code == 6 then Device.sendAborts d die p else d

/-- Ends the running program on a fault of a step (R421): the wave's first-poison record, code 4. -/
def Device.pelFault (d : Device) (die : Nat) (p : PProg) (a : DWord) (c : BitVec 8) : Device :=
  Device.pelEnd (Device.notePoison d p.wave a c) die p 4 c.toNat

/-- Goes on at step i, whose hop is still 0, or ends the program: past its last step (R410), for an abort that has come meanwhile (R421), or because its workgroup was killed (R423). -/
def Device.pelGo (d : Device) (die : Nat) (p : PProg) (i : Nat) : Device :=
  let p := { p with pc := i, hop := 0, taken := none }
  let x := Device.pel d die
  if Device.pelKilled d p then Device.pelFinish d die p 0
  else if i ≥ p.len then Device.pelFinish d die p (collStatus false 0 0 0)
  else if x.aborts.contains p.tag then
    Device.pelFinish (Device.setPel d die { x with aborts := x.aborts.erase p.tag }) die p (collStatus false i 0 5)
  else Device.setPel d die { x with running := some p }

/-- A 64-bit number of an image. -/
def img64 (bs : List Byte) (off : Nat) : Nat := ofLeBytes ((bs.drop off).take 8)

/-- Step i of a program's image (R408). -/
def PProg.stepAt (p : PProg) (i : Nat) : Nat := img64 p.image (256 + 8 * i)

/-- BASE[b] (R408). -/
def PProg.base (p : PProg) (b : Nat) : DWord := BitVec.ofNat 64 (img64 p.image (16 + 16 * b))
/-- CSTR[b] (R408). -/
def PProg.cstr (p : PProg) (b : Nat) : Nat := img64 p.image (24 + 16 * b)

/-- Is a header malformed for a rank (R409). -/
def pelHeaderBad (h : List Byte) (me : Nat) : Bool :=
  let l := ofLeBytes (h.take 4)
  let n := ofLeBytes ((h.drop 4).take 2)
  let g := ofLeBytes ((h.drop 6).take 2)
  l == 0 || l > 4096 || n == 0 || n > 1024 || g > 1023 || g + n > 1024 || me < g || g + n ≤ me
  || ofLeBytes ((h.drop 10).take 6) != 0 || ofLeBytes ((h.drop 0xF0).take 16) != 0
  || (List.range 14).any (fun b =>
      let base := img64 h (16 + 16 * b)
      base % 16 != 0 || img64 h (24 + 16 * b) % 16 != 0 || !canonical (BitVec.ofNat 64 base))

/-- Is a step malformed (R409, R411, R412, R416 to R418). -/
def pelStepBad (w : Nat) : Bool :=
  let op := bitsOf w 63 58
  let ty := bitsOf w 57 55
  let sb := bitsOf w 54 51
  let db := bitsOf w 49 46
  let b := bitsOf w 55 52
  let noSrc := sb == 0 && bitsOf w 50 50 == 0 && bitsOf w 23 12 == 0
  let noDst := db == 0 && bitsOf w 45 45 == 0 && bitsOf w 11 0 == 0
  let data := bitsOf w 44 24 != 0
  match op with
  | 1 => !(data && ty == 0 && sb ≤ 13 && noDst)
  | 2 => !(data && ty == 0 && db ≤ 13 && noSrc)
  | 3 => !(data && ty ≤ 5 && sb ≤ 13 && noDst)
  | 4 => !(data && ty ≤ 5 && sb ≤ 13 && db ≤ 13)
  | 5 => !(data && ty == 0 && sb ≤ 13 && db ≤ 13)
  | 6 => bitsOf w 57 56 == 3 || b > 13
  | 7 => bitsOf w 55 32 != 0
  | 8 => bitsOf w 55 0 != 0
  | 9 => bitsOf w 57 56 == 3 || bitsOf w 54 53 == 3 || bitsOf w 50 32 != 0
  | 10 => bitsOf w 57 32 != 0
  | 11 => bitsOf w 57 56 != 0 || b > 13
  | 12 => bitsOf w 57 56 != 0 || b > 13 || bitsOf w 31 0 != 0
  | _ => true

/-- The agent that a program is (R423): its die's unit, for the launch of its wave. -/
def Device.pelAgent (d : Device) (die : Nat) (p : PProg) : Agent := (dieAgent die).workFor (Device.launchOf d (Device.wave d p.wave)).lnch

/-- Reads n bytes within one page for a program (R412, R421): place 0x2 is no buffer, and a poisoned element is a fault. -/
def Device.pelRead (d : Device) (die : Nat) (p : PProg) (va : DWord) (n : Nat) : Except (BitVec 8) (List Byte) :=
  match Device.translate d (dieAgent die).unit p.asid .r va n with
  | .error c => .error c
  | .ok t =>
    if placeOf t.pa == 2 then .error 0x07
    else if Device.memBad d (replicaPa t die) n then .error 0x0F
    else if placeOf t.pa == 1 && (List.range ((n + 3) / 4)).any (fun i => Device.sramPois d (sramCl t.pa) (sramOff t.pa + 4 * i)) then
      .error 0x05
    else .ok (Device.readBytes d (dieAgent die) t 0 n)

/-- Writes bytes within one page for a program (R412). -/
def Device.pelWrite (d : Device) (die : Nat) (p : PProg) (va : DWord) (bs : List Byte) : Except (BitVec 8) Device :=
  match Device.translate d (dieAgent die).unit p.asid .w va bs.length with
  | .error c => .error c
  | .ok t =>
    if placeOf t.pa == 2 then .error 0x07
    else if placeOf t.pa == 1 then .ok (Device.stlLane d (sramCl t.pa) (sramOff t.pa) bs.length bs)
    else .ok (Device.writeBytes d (Device.pelAgent d die p) p.asid false t bs)

/-- Reads k units of 16 bytes: the bytes, or the first fault. -/
def Device.pelReadN (d : Device) (die : Nat) (p : PProg) (va : DWord) : Nat → Except (DWord × BitVec 8) (List Byte)
  | 0 => .ok []
  | k + 1 =>
    match Device.pelRead d die p va 16 with
    | .error c => .error (va, c)
    | .ok b =>
      match Device.pelReadN d die p (va + 16) k with
      | .error e => .error e
      | .ok r => .ok (b ++ r)

/-- What a data step that writes reads (R414): nothing; its source as it stood before the step; or, for each byte of it that the step has itself written, by a free choice, the old or the new value. -/
inductive PelSrc where
  | none
  | before
  | either
  deriving DecidableEq, Repr

/-- The unit of 16 bytes at an address as a step reads it; `d0` is the device before the step. -/
def Device.pelUnit (d0 d : Device) (die : Nat) (p : PProg) (va : DWord) : PelSrc → Except (BitVec 8) (Device × List Byte)
  | .none => .ok (d, [])
  | .before =>
    match Device.pelRead d0 die p va 16 with
    | .error c => .error c
    | .ok y => .ok (d, y)
  | .either =>
    match Device.pelRead d0 die p va 16, Device.pelRead d die p va 16 with
    | .error c, _ => .error c
    | .ok _, .error c => .error c
    | .ok y, .ok z =>
      if y == z then .ok (d, y)
      else .ok ({ d with freeCtr := d.freeCtr + 16 },
        (List.range 16).map (fun i => if (Config.freeByte (d.freeCtr + i)).getLsbD 0 then z.getD i 0 else y.getD i 0))

/-- Writes k units of 16 bytes from unit i on, each made from the unit that the step reads; with the first fault, where bytes already written stay written (R421). -/
def Device.pelMap (d0 d : Device) (die : Nat) (p : PProg) (src dst : DWord) (k i : Nat) (s : PelSrc) (f : Nat → List Byte → List Byte) :
    Device × Option (DWord × BitVec 8) :=
  match k with
  | 0 => (d, none)
  | k + 1 =>
    let off := BitVec.ofNat 64 (16 * i)
    match Device.pelUnit d0 d die p (src + off) s with
    | .error c => (d, some (src + off, c))
    | .ok (d, y) =>
      match Device.pelWrite d die p (dst + off) (f i y) with
      | .error c => (d, some (dst + off, c))
      | .ok d => Device.pelMap d0 d die p src dst k (i + 1) s f

/-- The width of an element (R415). -/
def pelWidth (ty : Nat) : Nat := if ty == 1 then 2 else 4

/-- A reduction of two elements (R415), with KEY, hop and element index. -/
def pelOp (ty : Nat) (key : Word) (h i x y : Nat) : Nat :=
  let add (t : Fmt) : Nat := Fmt.round f32 0 false false 0 (Fv.sum false [Fmt.value t x, Fmt.value t y])
  match ty with
  | 0 => add f32
  | 1 =>
    let draw := (mix32 key (BitVec.ofNat 32 (h * 2 ^ 24 + bitsOf i 55 32)) (BitVec.ofNat 32 i)).toNat
    Fmt.round bf16 4 false false draw (Fmt.value f32 (add bf16))
  | 2 => fmaxBits f32 false x y
  | 3 => fminBits f32 false x y
  | 4 => (x + y) % 2 ^ 32
  | _ => max x y

/-- The reduction of k elements of two byte lists; `i0` is the index of the first (R414). -/
def pelReduce (ty : Nat) (key : Word) (h : Nat) (i0 : Nat) (k : Nat) (x y : List Byte) : List Byte :=
  let w := pelWidth ty
  (List.range k).flatMap (fun j =>
    leBytes w (pelOp ty key h ((i0 + j) % 2 ^ 64) (ofLeBytes ((x.drop (w * j)).take w)) (ofLeBytes ((y.drop (w * j)).take w))))

/-- The encoding of a data step (R412). -/
def PData.word (op : Nat) (f : PData) : Nat :=
  op * 2 ^ 58 + f.ty.toNat * 2 ^ 55 + f.sb.toNat * 2 ^ 51 + f.sc.toNat * 2 ^ 50 + f.db.toNat * 2 ^ 46 + f.dc.toNat * 2 ^ 45
    + f.len.toNat * 2 ^ 24 + f.soff.toNat * 2 ^ 12 + f.doff.toNat

/-- The address of a data step's buffer (R412). -/
def PProg.bufAt (p : PProg) (b c off : Nat) : DWord :=
  BitVec.ofNat 64 ((p.base b).toNat + 4096 * off + c * p.ch * p.cstr b)

/-- The source of a data step. -/
def PProg.srcAt (p : PProg) (f : PData) : DWord := p.bufAt f.sb.toNat f.sc.toNat f.soff.toNat
/-- The destination of a data step. -/
def PProg.dstAt (p : PProg) (f : PData) : DWord := p.bufAt f.db.toNat f.dc.toNat f.doff.toNat

/-- The two dies beside a die (R10, R12): those that differ from it in row or in column alone. -/
def diesBeside (die : Nat) : List Nat := [Nat.xor die 1, Nat.xor die 2]

/-- Does a stop hold what a die sends to another die of the module (R12, R422): that of the direct link, or, between diagonal dies, one on each of the two routes. -/
def Device.dieHeld (d : Device) (die dst : Nat) : Bool :=
  let stop (i j : Nat) : Bool := (Device.pel d i).stops.contains j
  if dst == die then false
  else if (diesBeside die).contains dst then stop die dst
  else (diesBeside die).all (fun m => stop die m || stop m dst)

/-- Does a link stop hold what a die sends to a rank (R12, R422): links 0 to 3 are those to the dies, 4 + k is Spoke link k, which is attached to die k / 4 and carries what other dies send as well. -/
def Device.linkHeld (d : Device) (die rank : Nat) : Bool :=
  if rank / 4 == d.sys.modnum then Device.dieHeld d die (rank % 4)
  else d.sys.linkst.toNat % 65536 != 0
    && (List.range 16).all (fun k => !bitOf d.sys.linkst.toNat k || (Device.pel d (k / 4)).stops.contains (4 + k) || Device.dieHeld d die (k / 4))

/-- The staging SRAM of a Peloton in bytes (R11, R13). -/
def stagingSize : Nat := 8 * 2 ^ 20

/-- The bytes that wait in staging (R413, R421): messages, and aborts of a flit each. -/
def Peloton.staged (x : Peloton) : Nat := (x.msgs.map (fun m => m.data.length)).sum + 256 * x.aborts.length

/-- Does the running program of a die wait for a message from a rank (R413): the flits of one that comes then go through staging into the step. -/
def Device.awaits (d : Device) (die src : Nat) : Bool :=
  let x := Device.pel d die
  match x.running with
  | none => false
  | some p =>
    let op := bitsOf (p.stepAt p.pc) 63 58
    p.started && 2 ≤ op && op ≤ 4 && p.gbase + p.fromR == src && !x.msgs.any (fun m => m.src == src)

/-- Has a die's staging room for a message of n bytes from a rank (R413, R422). -/
def Device.stagingRoom (d : Device) (die src n : Nat) : Bool := (Device.pel d die).staged + n ≤ stagingSize || Device.awaits d die src

/-- Must a message of n bytes wait at its sender (R406, R422): for a stopped link, or for room in the receiver's staging. -/
def Device.sendHeld (d : Device) (die rank n : Nat) : Bool :=
  Device.linkHeld d die rank || (rank / 4 == d.sys.modnum && !Device.stagingRoom d (rank % 4) (Device.rankOf d die) n)

/-- Emits a message to rank `to` of the group (R413): none where the module is not reached. -/
def Device.emitTo (d : Device) (die to_ : Nat) (m : PMsg) : Option Device :=
  if to_ / 4 == d.sys.modnum then
    let x := Device.pel d (to_ % 4)
    some (Device.setPel d (to_ % 4) { x with msgs := x.msgs ++ [m] })
  else if d.reach.contains (to_ / 4) && die < 4 then some { d with outbox := d.outbox ++ [.msg to_ m] }
  else none

/-- The oldest message from a rank, and the others (R413). -/
def takeMsg (src : Nat) : List PMsg → Option (PMsg × List PMsg)
  | [] => none
  | m :: r =>
    if m.src == src then some (m, r)
    else match takeMsg src r with
      | none => none
      | some (x, r') => some (x, m :: r')

/-- What the running step of a program reads: the source of a data step, the word of WAIT, DONE and STEPX (R412, R416, R418). -/
def PProg.reads (p : PProg) : Option (DWord × Nat) :=
  let w := p.stepAt p.pc
  let word (k n : Nat) : Option (DWord × Nat) := some (p.base (bitsOf w 55 52) + BitVec.ofNat 64 (k * bitsOf w 51 32), n)
  match bitsOf w 63 58 with
  | 1 | 3 | 4 | 5 => some (p.bufAt (bitsOf w 54 51) (bitsOf w 50 50) (bitsOf w 23 12), 16 * bitsOf w 44 24)
  | 6 => word 8 8
  | 11 => word 8 8
  | 12 => word 4 4
  | _ => none

/-- Does one of n bytes that a program reads stand in an absent line of cluster SRAM (R184, R197). -/
def Device.pelAbsent (d : Device) (die : Nat) (p : PProg) (a : DWord) (n : Nat) : Bool :=
  (List.range ((n + 15) / 16)).any (fun i =>
    match Device.translate d (dieAgent die).unit p.asid .r (a + BitVec.ofNat 64 (16 * i)) (min 16 n) with
    | .error _ => false
    | .ok t => placeOf t.pa == 1 && Device.lineAbsent d (sramCl t.pa) (sramOff t.pa))

/-- Does the running step wait for an absent line of cluster SRAM that it reads (R184, R197). -/
def Device.pelParks (d : Device) (die : Nat) (p : PProg) : Bool :=
  match p.reads with
  | none => false
  | some (a, n) => Device.pelAbsent d die p a n

/-- Runs a step of a die when it is the next step of the running program (R410) and waits for no absent line: the event takes place for no other step. -/
def State.pelStep (s : State) (die w : Nat) (k : PProg → Device → Device) : Res :=
  match (Device.pel s.dev die).running with
  | none => .next s
  | some p => if p.stepAt p.pc == w && !Device.pelParks s.dev die p then .next { s with dev := k p s.dev } else .next s

/-- SEND (R413, R414). -/
def Device.pelSend (d : Device) (die : Nat) (f : PData) (p : PProg) : Device :=
  let dst := p.gbase + p.toR
  if Device.sendHeld d die dst (16 * f.len.toNat) then d
  else match Device.pelReadN d die p (p.srcAt f) f.len.toNat with
    | .error (a, c) => Device.pelFault d die p a c
    | .ok y =>
      let p := { p with cover := none }
      match Device.emitTo d die dst ⟨Device.rankOf d die, p.tag, f.len.toNat, 0, y⟩ with
      | none => Device.pelEnd d die p 6 0
      | some d => Device.pelGo d die p (p.pc + 1)

/-- SEND (R414). -/
def execEvSend (die : Nat) (f : PData) (s : State) : Res := State.pelStep s die (PData.word 1 f) (fun p d => Device.pelSend d die f p)

/-- Consumes the message that a step waits for (R413): a wait while none is there; a mismatch ends the program. -/
def Device.pelConsume (d : Device) (die : Nat) (f : PData) (p : PProg) (k : Device → PMsg → Device) : Device :=
  let x := Device.pel d die
  match takeMsg (p.gbase + p.fromR) x.msgs with
  | none => d
  | some (m, r) =>
    let d := Device.setPel d die { x with msgs := r }
    if m.tag != p.tag || m.len != f.len.toNat then Device.pelEnd d die p 3 0 else k d m

/-- RECV (R414). -/
def execEvRecv (die : Nat) (f : PData) (s : State) : Res :=
  State.pelStep s die (PData.word 2 f) (fun p d => Device.pelConsume d die f p (fun d m =>
    let p := { p with cover := none }
    match Device.pelMap d d die p 0 (p.dstAt f) f.len.toNat 0 .none (fun i _ => (m.data.drop (16 * i)).take 16) with
    | (d, some (a, c)) => Device.pelFault d die p a c
    | (d, none) => Device.pelGo d die p (p.pc + 1)))

/-- The index of a step's first element (R414). -/
def PProg.elem0 (p : PProg) (f : PData) : Nat := (p.srcAt f - p.base f.sb.toNat).toNat / pelWidth f.ty.toNat

/-- The outcome of an RRS, of the message that it has consumed (R414): it waits for room at the receiver with the message consumed (R422). -/
def Device.pelForward (d : Device) (die : Nat) (f : PData) (p : PProg) (m : PMsg) : Device :=
  let dst := p.gbase + p.toR
  if p.hop > 255 then Device.pelEnd d die p 2 5
  else if Device.sendHeld d die dst (16 * f.len.toNat) then Device.setPel d die { Device.pel d die with running := some p }
  else match Device.pelReadN d die p (p.srcAt f) f.len.toNat with
    | .error (a, c) => Device.pelFault d die p a c
    | .ok y =>
      let ty := f.ty.toNat
      let out := pelReduce ty p.key p.hop (p.elem0 f) (16 * f.len.toNat / pelWidth ty) m.data y
      match Device.emitTo d die dst ⟨Device.rankOf d die, p.tag, f.len.toNat, p.hop, out⟩ with
      | none => Device.pelEnd d die p 6 0
      | some d => Device.pelGo d die p (p.pc + 1)

/-- RRS (R414): it consumes, then it emits. -/
def execEvRrs (die : Nat) (f : PData) (s : State) : Res :=
  State.pelStep s die (PData.word 3 f) (fun p d =>
    match p.taken with
    | some m => Device.pelForward d die f p m
    | none => Device.pelConsume d die f p (fun d m => Device.pelForward d die f { p with hop := m.hop + 1, cover := none, taken := some m } m))

/-- RRW (R414): each element is read before it is written. -/
def execEvRrw (die : Nat) (f : PData) (s : State) : Res :=
  State.pelStep s die (PData.word 4 f) (fun p d => Device.pelConsume d die f p (fun d m =>
    let h := m.hop + 1
    let ty := f.ty.toNat
    let n := 16 / pelWidth ty
    let p := { p with cover := if ty == 5 then some (p.dstAt f, 16 * f.len.toNat) else none }
    if h > 255 then Device.pelEnd d die p 2 5
    else
      match Device.pelMap d d die p (p.srcAt f) (p.dstAt f) f.len.toNat 0 .before
          (fun i y => pelReduce ty p.key h (p.elem0 f + n * i) n ((m.data.drop (16 * i)).take 16) y) with
      | (d, some (a, c)) => Device.pelFault d die p a c
      | (d, none) => Device.pelGo d die p (p.pc + 1)))

/-- COPY (R414): of overlapping ranges each byte is the old or the new one. -/
def execEvCopy (die : Nat) (f : PData) (s : State) : Res :=
  State.pelStep s die (PData.word 5 f) (fun p d =>
    let p := { p with cover := none }
    match Device.pelMap d d die p (p.srcAt f) (p.dstAt f) f.len.toNat 0 .either (fun _ y => y) with
    | (d, some (a, c)) => Device.pelFault d die p a c
    | (d, none) => Device.pelGo d die p (p.pc + 1))

/-- The word of WAIT and DONE (R416). -/
def PProg.wordAt (p : PProg) (b : BitVec 4) (off : BitVec 20) (scale : Nat) : DWord :=
  p.base b.toNat + BitVec.ofNat 64 (scale * off.toNat)

/-- WAIT (R416): the step ends once the condition holds on the word at its point of coherence. -/
def execEvWait (die : Nat) (cond : BitVec 2) (b : BitVec 4) (off : BitVec 20) (thr : BitVec 32) (s : State) : Res :=
  State.pelStep s die (6 * 2 ^ 58 + cond.toNat * 2 ^ 56 + b.toNat * 2 ^ 52 + off.toNat * 2 ^ 32 + thr.toNat) (fun p d =>
    let a := p.wordAt b off 8
    match Device.pelRead d die p a 8 with
    | .error c => Device.pelFault d die p a c
    | .ok bs =>
      if mwaitHolds cond (ofLeBytes bs) thr.toNat then Device.pelGo d die { p with cover := none } (p.pc + 1) else d)

/-- LOOP (R417). -/
def execEvPelotonLoop (die : Nat) (j : BitVec 2) (count : BitVec 32) (s : State) : Res :=
  State.pelStep s die (7 * 2 ^ 58 + j.toNat * 2 ^ 56 + count.toNat) (fun p d =>
    let p := { p with cover := none }
    if count == 0 then Device.pelEnd d die p 2 1
    else Device.pelGo d die { p with cs := putAt p.cs j.toNat count 0, ls := putAt p.ls j.toNat (some (p.pc + 1)) none } (p.pc + 1))

/-- ENDL (R417). -/
def execEvEndl (die : Nat) (j : BitVec 2) (s : State) : Res :=
  State.pelStep s die (8 * 2 ^ 58 + j.toNat * 2 ^ 56) (fun p d =>
    let p := { p with cover := none }
    match p.ls.getD j.toNat none with
    | none => Device.pelEnd d die p 2 2
    | some t =>
      let c := p.cs.getD j.toNat 0 - 1
      Device.pelGo d die { p with cs := putAt p.cs j.toNat c 0 } (if c != 0 then t else p.pc + 1))

/-- The value of PEER (R417): none where XOR mode leaves the group. -/
def PProg.peerValue (p : PProg) (x : BitVec 1) (m j : BitVec 2) (imm : BitVec 32) : Option Nat :=
  let c : Int := ((p.cs.getD j.toNat 0).toNat : Int)
  let a : Int := imm.toInt + (if m == 1 then c else if m == 2 then -c else 0)
  if x == 0 then some (((p.rank : Int) + a) % (p.n : Int)).toNat
  else
    let v := p.rank ^^^ (a % 4294967296).toNat
    if v ≥ p.n then none else some v

/-- PEER (R417). -/
def execEvPeer (die : Nat) (dst : BitVec 2) (x : BitVec 1) (m j : BitVec 2) (imm : BitVec 32) (s : State) : Res :=
  State.pelStep s die (9 * 2 ^ 58 + dst.toNat * 2 ^ 56 + x.toNat * 2 ^ 55 + m.toNat * 2 ^ 53 + j.toNat * 2 ^ 51 + imm.toNat) (fun p d =>
    let p := { p with cover := none }
    match p.peerValue x m j imm with
    | none => Device.pelEnd d die p 2 3
    | some v =>
      let p := if dst == 0 then { p with toR := v } else if dst == 1 then { p with fromR := v } else { p with ch := v }
      Device.pelGo d die p (p.pc + 1))

/-- SRK (R417). -/
def execEvSrk (die : Nat) (key : BitVec 32) (s : State) : Res :=
  State.pelStep s die (10 * 2 ^ 58 + key.toNat) (fun p d =>
    Device.pelGo d die { p with cover := none, key := key } (p.pc + 1))

/-- `add.i64` at a word by a die's unit, as one atomic operation (R215, R416, R386): the device, or a fault code. -/
def Device.dieAdd64 (d : Device) (ag : Agent) (asid : Nat) (a : DWord) (inc : Nat) : Except (BitVec 8) Device :=
  match Device.translate d ag.unit asid .rw a 8 with
  | .error c => .error c
  | .ok t =>
    if placeOf t.pa == 2 then .error 0x07
    else if Device.memBad d (atomPa t) 8 then .error 0x0F
    else if placeOf t.pa == 1 then
      let old := ofLeBytes (Device.sramRead d (sramCl t.pa) (sramOff t.pa) 8)
      .ok (Device.stlLane d (sramCl t.pa) (sramOff t.pa) 8 (leBytes 8 ((old + inc) % 2 ^ 64)))
    else
      let old := ofLeBytes ((List.range 8).map (fun i => Device.memByte d t.key (atomPa t + i)))
      .ok (Device.writeBytes d ag asid false t (leBytes 8 ((old + inc) % 2 ^ 64)))

/-- DONE (R416). -/
def execEvDone (die : Nat) (b : BitVec 4) (off : BitVec 20) (inc : BitVec 32) (s : State) : Res :=
  State.pelStep s die (11 * 2 ^ 58 + b.toNat * 2 ^ 52 + off.toNat * 2 ^ 32 + inc.toNat) (fun p d =>
    let p := { p with cover := none }
    let a := p.wordAt b off 8
    match Device.dieAdd64 d (Device.pelAgent d die p) p.asid a inc.toNat with
    | .error c => Device.pelFault d die p a c
    | .ok d => Device.pelGo d die p (p.pc + 1))

/-- STEPX (R418): the step before must be an RRW of TY 5 whose destination covers the flag. -/
def execEvStepx (die : Nat) (b : BitVec 4) (off : BitVec 20) (s : State) : Res :=
  State.pelStep s die (12 * 2 ^ 58 + b.toNat * 2 ^ 52 + off.toNat * 2 ^ 32) (fun p d =>
    let a := p.wordAt b off 4
    let covered := match p.cover with
      | some (c, n) => (a - c).toNat + 4 ≤ n
      | none => false
    let p := { p with cover := none }
    if !covered then Device.pelEnd d die p 2 4
    else match Device.pelRead d die p a 4 with
      | .error c => Device.pelFault d die p a c
      | .ok bs =>
        let x := Device.pel d die
        let d := if ofLeBytes bs == 0 then Device.setPel d die { x with step := x.step + 1 } else d
        Device.pelGo d die p (p.pc + 1))

/-- Reads a program's image (R409): the header and its steps; a fault code; a malformed header or step; or a wait for an absent line of cluster SRAM that holds it (R184, R197). -/
inductive PImage where
  | ok (bytes : List Byte)
  | fault (c : BitVec 8) (known : Option (Nat × Nat × BitVec 16))
  | badHeader
  | badStep (i : Nat)
  | wait
  deriving DecidableEq, Repr

/-- The image at a program's address, for a rank (R408, R409). -/
def Device.pelImage (d : Device) (die : Nat) (p : PProg) : PImage :=
  if Device.pelAbsent d die p p.addr 256 then .wait
  else match Device.pelReadN d die p p.addr 16 with
  | .error (_, c) => .fault c none
  | .ok h =>
    if pelHeaderBad h (Device.rankOf d die) then .badHeader
    else
      let l := ofLeBytes (h.take 4)
      let grp := (ofLeBytes ((h.drop 4).take 2), ofLeBytes ((h.drop 6).take 2), BitVec.ofNat 16 (ofLeBytes ((h.drop 8).take 2)))
      let steps : Except (BitVec 8) (List Byte) := (List.range l).foldl (fun a i => match a with
        | .error c => .error c
        | .ok r => match Device.pelRead d die p (p.addr + BitVec.ofNat 64 (256 + 8 * i)) 8 with
          | .error c => .error c
          | .ok b => .ok (r ++ b)) (.ok [])
      if Device.pelAbsent d die p (p.addr + 256) (8 * l) then .wait
      else match steps with
      | .error c => .fault c (some grp)
      | .ok bs =>
        match (List.range l).find? (fun i => pelStepBad (img64 bs (8 * i))) with
        | some i => .badStep i
        | none => .ok (h ++ bs)

/-- Makes a program the running one (R410): a program restored by R423 goes on where it was; a new one starts from its image; a waiting abort of its TAG ends it (R421). One whose image waits for a line stays at the head of the queue. -/
def Device.pelStart (d : Device) (die : Nat) (p : PProg) : Device :=
  let run (p : PProg) : Device :=
    let x := Device.pel d die
    let d := Device.setPel d die { x with running := some p }
    if x.aborts.contains p.tag then
      let d := Device.setPel d die { Device.pel d die with aborts := x.aborts.erase p.tag }
      Device.pelFinish d die p (collStatus false p.pc 0 5)
    else d
  if p.started then run p
  else
    let start : Device := Device.setPel d die { Device.pel d die with running := some p }
    match Device.pelImage d die p with
    | .wait => Device.setPel d die { Device.pel d die with queue := p :: (Device.pel d die).queue }
    | .badHeader => Device.pelFinish start die p (collStatus true 0 0 1)
    | .badStep i => Device.pelFinish start die p (collStatus false i 0 1)
    | .fault c grp =>
      let d := Device.pelFinish start die p (collStatus true 0 c.toNat 4)
      match grp with
      | some (n, g, t) => Device.sendAborts d die { p with n := n, gbase := g, tag := t }
      | none => d
    | .ok bs =>
      let g := ofLeBytes ((bs.drop 6).take 2)
      let r := Device.rankOf d die - g
      run { p with started := true, rank := r, n := ofLeBytes ((bs.drop 4).take 2), gbase := g, tag := BitVec.ofNat 16 (ofLeBytes ((bs.drop 8).take 2)),
                   len := ofLeBytes (bs.take 4), image := bs, pc := 0, toR := r, fromR := r, ch := 0 }

/-- May a queued program start, as its wave's fences order it (R234, R424). -/
def Device.pelMay (d : Device) (p : PProg) : Bool :=
  match Device.op? d p.op with
  | some o => Device.mayAct d o
  | none => true

/-- PROGRAM_START (R406, R408 to R410): the oldest queued program starts when none runs. -/
def execEvProgramStart (die : Nat) (s : State) : Res :=
  let x := Device.pel s.dev die
  match x.running, x.queue with
  | none, p :: r =>
    if Device.pelMay s.dev p then .next { s with dev := Device.pelStart (Device.setPel s.dev die { x with queue := r }) die p } else .next s
  | _, _ => .next s

/-- MESSAGE_ARRIVAL (R413): a message from a rank of another module waits in the die's staging; its sender stops while there is no room (R422). -/
def execEvMessageArrival (die : Nat) (msg : PMsg) (s : State) : Res :=
  if die ≥ 4 || msg.src / 4 == s.dev.sys.modnum || !Device.stagingRoom s.dev die msg.src msg.data.length then .next s
  else
    let x := Device.pel s.dev die
    .next { s with dev := Device.setPel s.dev die { x with msgs := x.msgs ++ [msg] } }

/-- ABORT_FLIT (R421). -/
def execEvAbortFlit (die : Nat) (tag : BitVec 16) (s : State) : Res := .next { s with dev := Device.abortAt s.dev die tag }

/-- May a link of a die take a stop, or its release (R12, R422): the die has the link; a receiver in the module asserts stop with fewer than 1 MiB of its staging free and releases it with 2 MiB free. -/
def Device.stopFits (d : Device) (die link : Nat) (on : Bool) : Bool :=
  if link < 4 then
    let free := stagingSize - (Device.pel d link).staged
    die < 4 && (diesBeside die).contains link && (if on then free < 2 ^ 20 else free ≥ 2 ^ 21)
  else link < 20 && (link - 4) / 4 == die

/-- LINK_STOP (R422): a receiver asserts or releases stop on a link of the die; it changes time only. -/
def execEvLinkStop (die : Nat) (link : Nat) (on : Bool) (s : State) : Res :=
  if Device.stopFits s.dev die link on then
    let x := Device.pel s.dev die
    .next { s with dev := Device.setPel s.dev die { x with stops := if on then NSet.ins x.stops link else NSet.rem x.stops link } }
  else .next s

/-- The source byte of an error record (R452) for a source of a write. -/
def srcByte (src : Nat) : Nat := if src < 3 then src else 3

/-- The LNCH of an error record (R452) for a source of a write: that of the launch that made it, 0 for a host. -/
def srcLnch (src : Nat) : Word := BitVec.ofNat 32 ((src - 4) / 64)

/-- PFLUSH (R420, R421): GO = 1 discards the messages and aborts of a TAG that wait in staging. A write with a zero bit set is ignored; `State.regWrite` records it (R448). -/
def execEvPflush (die : Nat) (v : BitVec 64) (s : State) : Res :=
  let x := Device.pel s.dev die
  let tag : BitVec 16 := v.extractLsb' 0 16
  if bitsOf v.toNat 62 16 != 0 || !bitOf v.toNat 63 then .next s
  else
    let y : Peloton := { x with msgs := x.msgs.filter (fun m => m.tag != tag), aborts := x.aborts.filter (fun t => t != tag) }
    .next { s with dev := Device.setPel s.dev die y }

/-- PSTEP_WRITE (R420): accepted only while no program is queued or runs; otherwise ignored and recorded. -/
def execEvPstepWrite (die : Nat) (v : BitVec 64) (src : Nat) (s : State) : Res :=
  let x := Device.pel s.dev die
  if x.queue.isEmpty && x.running.isNone then .next { s with dev := Device.setPel s.dev die { x with step := v } }
  else .next { s with dev := Device.logError s.dev 7 die (srcByte src) 0x5000 0 (srcLnch src) 0 }

end Sys2Proof.Machine
end

