-- ==== Sys2Proof/Machine/Preempt.lean ====
section
/-! DEFINITION. Pre-emption: the save slots (R440, R443, R444), the save of a gang (R441, R442, R146), its restore (R445, R446). -/

namespace Sys2Proof.Machine

/-- The size of a save slot (R440). -/
def slotSize : Nat := 2 ^ 22

/-- The first byte of a save slot. -/
def Device.slotBase (d : Device) (die slot : Nat) : Nat := (Device.die d die).svbase.toNat + slotSize * slot

/-- Bytes of memory that the device reads for itself, at their point of coherence. -/
def Device.physRead (d : Device) (pa n : Nat) : List Byte := (List.range n).map (fun i => Device.memByte d 0 (pa + i))

/-- Zeroes n bytes of memory at their point of coherence; HBM still holds what it held (R11). -/
def Device.physZero (d : Device) (pa n : Nat) : Device :=
  let out (a : Nat) : Bool := a < pa || pa + n ≤ a
  { d with mem := d.mem.filter (fun c => out c.1), mkeys := d.mkeys.filter (fun c => out c.1),
           hbm := (d.mem.filter (fun c => !out c.1)).foldl (fun h c => if Tbl.has h c.1 then h else Tbl.put h c.1 c.2) d.hbm }

/-- Writes pieces of a slot at their offsets. -/
def Device.putPieces (d : Device) (base : Nat) (ps : List (Nat × List Byte)) : Device :=
  ps.foldl (fun d p => Device.memWrite d (base + p.1) p.2) d

/-- Bits of a list as bytes, eight to a byte from bit 0 up. -/
def bitBytes (n : Nat) (f : Nat → Bool) : List Byte :=
  (List.range n).map (fun i => BitVec.ofNat 8 ((List.range 8).foldl (fun a j => a + (if f (8 * i + j) then 2 ^ j else 0)) 0))

/-- A word list as bytes. -/
def wordBytes (l : List Word) : List Byte := l.flatMap (fun x => leBytes 4 x.toNat)

/-- A record brought to n bytes. -/
def fitTo (n : Nat) (bs : List Byte) : List Byte := bs.take n ++ zeros (n - bs.length)

/-- The frame that a save writes (R444): TRC 0x12, no trap described. -/
def Wave.saveFrame (w : Wave) : List Byte :=
  Wave.frameImage { w with trwb := 0, trnum := 0, trlm := 0, tram := 0, trpc := 0, trpa := 0 } 0x12 (if w.handler then 1 else 0)

/-- The ray records, `tget` images, slot states and last fetches of a wave (R444). -/
def Wave.rayPieces (w : Wave) : List (Nat × List Byte) :=
  w.rays.flatMap (fun e =>
    let r := e.2
    (0xF800 + e.1, [if r.st == .finished then 2 else 1]) :: (0xF840 + 16 * e.1, leBytes 8 r.nodeAddr.toNat ++ leBytes 1 r.nodeClass)
      :: (if r.st == .finished then [(0xF000 + 32 * e.1, wordBytes ((List.range 8).map (fun i => tgetWord (some r) e.1 i)))]
          else [(0xB000 + 256 * e.1, r.recordBytes 0 0)]))

/-- A vector register's image (R444): values, live mask, poison mask. -/
def optReg (r : Option VReg) : VReg := r.getD VReg.blank

/-- The pieces of a register group's image: values from `at_`, masks from `m`. -/
def regPieces (at_ m : Nat) (rs : List (Option VReg)) : List (Nat × List Byte) :=
  (List.range rs.length).flatMap (fun i =>
    let r := optReg (rs.getD i none)
    [(at_ + 256 * i, wordBytes (mkLanes (fun l => (VReg.elem r l).v))), (m + 8 * i, leBytes 8 r.live.toNat),
     (m + 8 * rs.length + 8 * i, leBytes 8 r.pois.toNat)])

/-- The counters of a wave, in class order (R444). -/
def Wave.counterImage (w : Wave) : List Byte := (List.range 8).map (fun c => BitVec.ofNat 8 (Wave.counter w c))

/-- The version, layout and program bindings of a wave (R444): the field of the first and its size, the address fields of the others. -/
def Wave.bindImage (w : Wave) : List (Nat × List Byte) :=
  [(0x4458, match w.vbind with
    | some b => leBytes 8 b.header.toNat ++ leBytes 4 b.ver
    | none => zeros 12),
   (0x4468, (match w.tlay with | some b => leBytes 8 b.addr.toNat | none => zeros 8)
      ++ (match w.tcode with | some b => leBytes 8 b.addr.toNat | none => zeros 8))]

/-- A Peloton program's record of 64 bytes (R444, device-internal): where it stands in R410. -/
def PProg.record (p : PProg) : List Byte :=
  fitTo 64 (leBytes 8 p.addr.toNat ++ leBytes 4 p.op ++ leBytes 1 p.started.toNat ++ leBytes 1 p.hop ++ leBytes 2 p.tag.toNat ++ leBytes 2 p.rank
    ++ leBytes 2 p.n ++ leBytes 2 p.gbase ++ leBytes 2 p.len ++ leBytes 2 p.pc ++ leBytes 2 p.toR ++ leBytes 2 p.fromR ++ leBytes 4 p.ch
    ++ leBytes 4 p.key.toNat ++ wordBytes p.cs ++ p.ls.flatMap (fun x => leBytes 2 ((x.map (fun n => n + 1)).getD 0)))

/-- A program as its record gives it back (R443): the state of R410; none when the record is not that program's, or a value of it out of its range. -/
def PProg.load (p : PProg) (bs : List Byte) : Option PProg :=
  let ls := (List.range 4).map (fun j => fieldAt bs (54 + 2 * j) 2)
  let x : PProg := { p with pc := fieldAt bs 24 2, toR := fieldAt bs 26 2, fromR := fieldAt bs 28 2, ch := fieldAt bs 30 4, key := BitVec.ofNat 32 (fieldAt bs 34 4),
                            cs := (List.range 4).map (fun j => BitVec.ofNat 32 (fieldAt bs (38 + 4 * j) 4)),
                            ls := ls.map (fun i => if i == 0 then none else some (i - 1)) }
  if x.record == bs && (x == p || (p.started && x.pc < x.len && x.toR < x.n && x.fromR < x.n && x.ch < x.n && ls.all (fun i => i ≤ x.len))) then some x
  else none

/-- The records of a wave's programs (R444). -/
def progImage (progs : List (Nat × PProg)) (u : Nat) : List Byte :=
  fitTo 1024 ((progs.filter (fun p => p.2.wave == u)).flatMap (fun p => PProg.record p.2))

/-- The per-wave block (R444), as pieces. -/
def Wave.block (w : Wave) (progs : List Byte) : List (Nat × List Byte) :=
  [(0, Wave.saveFrame w),
   (0x4000, wordBytes ((List.range 256).map (fun n => (Wave.sc w n).v))),
   (0x4400, bitBytes 32 (fun n => (Wave.sc w n).p)),
   (0x4420, leBytes 2 w.wlim ++ leBytes 2 w.quota ++ leBytes 4 w.wdog.toNat ++ leBytes 8 w.wsp.toNat),
   (0x4430, leBytes 4 w.fpm.toNat ++ leBytes 4 w.fmt.toNat ++ leBytes 1 w.shape.toNat ++ zeros 7),
   (0x4440, wordBytes [w.tokw, w.scount, w.cycLatch, w.stepLatch]),
   (0x4450, Wave.counterImage w), (0x4600, progs),
   (0x4480, (List.range 7).flatMap (fun i => let p := Wave.pred w (i + 1); leBytes 8 p.v.toNat ++ leBytes 8 p.p.toNat)),
   (0x4500, w.launches.flatMap (fun p => leBytes 8 p.record.toNat ++ leBytes 4 p.queue ++ leBytes 4 p.depth)),
   (0xFC40, leBytes 8 w.tbas.toNat ++ leBytes 8 w.tfrm.toNat),
   (0xFC78, leBytes 4 (w.tbasLo.getD 0).toNat ++ leBytes 4 (w.tfrmLo.getD 0).toNat
      ++ leBytes 4 (w.tbasLo.isSome.toNat + 2 * w.tfrmLo.isSome.toNat))]
  ++ Wave.bindImage w ++ regPieces 0x5000 0x6000 ((List.range 16).map (fun n => Tbl.get? w.vfix n))
  ++ (if w.handler then
      (0xFC50, leBytes 1 w.trc.toNat ++ leBytes 1 w.trqn ++ leBytes 2 w.trwb ++ zeros 4 ++ leBytes 8 w.trlm.toNat ++ leBytes 8 w.tram.toNat
        ++ leBytes 8 w.trpc.toNat ++ leBytes 8 w.trpa.toNat)
      :: regPieces 0x7000 0xA000 ((List.range 48).map (fun i => Wave.reg? w (.pos (w.wlim + i))))
    else [])
  ++ Wave.rayPieces w

/-- Offset of the first byte of a slot's per-wave blocks (R443). -/
def waveOff (wid : Nat) : Nat := 0x40000 + 65536 * wid

/-- A barrier register's 16 bytes (R443): E, PEND, PH, ERR, ECODE, LERR, LCODE, in that order (DESIGN CHOICE 56). -/
def Bar.image (b : Bar) : List Byte :=
  leBytes 4 b.e ++ leBytes 4 b.pend ++ leBytes 1 b.ph.toNat ++ leBytes 1 b.err.toNat ++ leBytes 1 b.ecode.toNat ++ leBytes 1 b.lerr.toNat
    ++ leBytes 1 b.lcode.toNat ++ zeros 3

/-- A barrier register from its 16 bytes; none for a value that no register holds. -/
def Bar.ofImage (bs : List Byte) : Option Bar :=
  let n (o k : Nat) : Nat := ofLeBytes ((bs.drop o).take k)
  let b : Bar := ⟨n 0 4, n 4 4, n 8 1 == 1, n 9 1 == 1, BitVec.ofNat 8 (n 10 1), n 11 1 == 1, BitVec.ofNat 8 (n 12 1)⟩
  if n 0 4 < 65536 && n 4 4 ≤ 131071 && n 8 1 ≤ 1 && n 9 1 ≤ 1 && n 11 1 ≤ 1 then some b else none

/-- The header's successor choice (R443): 0 for an unset one; a choice without entry is kept by the device. -/
def Succ.image : Succ → Nat
  | .entry e => e.toNat
  | _ => 0

/-- A descriptor slot's image (R257, R443): a poisoned one is a record of zeros with bit 0 of its last byte set, which no other slot's image is. -/
def Desc.image (x : Desc) : List Byte :=
  if x.pois then zeros 255 ++ [1]
  else if (x.bytes.take 255).all (fun b => b == 0) then zeros 256
  else x.bytes

/-- A descriptor slot from its image. -/
def Desc.ofImage (bs : List Byte) : Desc :=
  if (bs.take 255).all (fun b => b == 0) && bitOf (bs.getD 255 0).toNat 0 then ⟨zeros 256, true⟩ else ⟨bs, false⟩

/-- A copy's remainder (R443, device-internal): which copy, and the tiles that it has written (R269). -/
def EngOp.copyImage (o : EngOp) : List Byte :=
  fitTo 64 (leBytes 4 o.id ++ leBytes 1 o.kind.ctorIdx ++ leBytes 1 o.reg ++ leBytes 1 ((o.bar.map (fun b => b + 1)).getD 0)
    ++ leBytes 1 o.err.isSome.toNat ++ leBytes 4 o.phase ++ leBytes 8 o.mask.toNat ++ wordBytes o.scal)

/-- A command queue entry (R443, device-internal): its captured operands (R441). -/
def EngOp.entryImage (o : EngOp) : List Byte :=
  fitTo 256 (leBytes 4 o.id ++ leBytes 1 o.kind.ctorIdx ++ leBytes 1 o.void.toNat ++ leBytes 2 o.reg ++ leBytes 2 o.ctl ++ leBytes 2 o.wb
    ++ leBytes 8 o.mask.toNat ++ leBytes 8 o.helpers.toNat ++ leBytes 4 o.fmt.toNat ++ leBytes 1 o.shape.toNat ++ zeros 3
    ++ (o.ins ++ o.outs).flatMap (fun r => leBytes 1 r.1 ++ leBytes 1 r.2) ++ wordBytes o.scal)
  ++ fitTo 8704 (o.rows.flatMap (fun r => fitTo 256 (wordBytes r))) ++ fitTo 256 o.desc

/-- A ring's record (R443, device-internal): descriptor, counters, open reservations in order. -/
def Ring.image (x : Ring) : List Byte :=
  fitTo 512 (leBytes 4 x.owner ++ leBytes 4 x.base ++ leBytes 4 x.esz ++ leBytes 4 x.cap ++ wordBytes [x.pres, x.pcom, x.cres, x.crel]
    ++ (x.prods ++ x.cons).flatMap (fun r => leBytes 4 r.holder ++ leBytes 2 r.n ++ leBytes 1 r.engine.toNat ++ leBytes 1 r.done.toNat))

/-- The bytes of a ring's entries. -/
def Ring.bytes (x : Ring) : Nat := x.cap * (128 * 2 ^ x.esz)

/-- A ring as its record gives it back (R443): its counters; none when the record is not that ring's, or breaks the rules of R192. -/
def Ring.load (x : Ring) (bs : List Byte) : Option Ring :=
  let n (o : Nat) : Word := BitVec.ofNat 32 (fieldAt bs o 4)
  let y : Ring := { x with pres := n 16, pcom := n 20, cres := n 24, crel := n 28 }
  if y.image == bs && (y.pres - y.pcom).toNat == (y.prods.map (fun r => r.n)).sum && (y.cres - y.crel).toNat == (y.cons.map (fun r => r.n)).sum
      && (y.pres - y.crel).toNat ≤ y.cap && (y.pcom - y.cres).toNat ≤ y.cap then some y
  else none

/-- A copy as its remainder gives it back (R443): its next tile; none when the remainder is not that copy's, or names no tile of it. -/
def EngOp.loadCopy (o : EngOp) (bs : List Byte) : Option EngOp :=
  let x : EngOp := { o with phase := fieldAt bs 8 4 }
  if x.copyImage == bs && (x.phase < o.tiles || x.phase == o.phase) then some x else none

/-- A queue entry as its record gives it back (R443): its captured vector operands; none when the record is not that entry's. -/
def EngOp.loadEntry (o : EngOp) (bs : List Byte) : Option EngOp :=
  let x : EngOp := { o with rows := (List.range o.rows.length).map (fun i => wordsAt bs (256 + 256 * i) 64) }
  if x.entryImage == bs then some x else none

/-- The copies of a saved workgroup that are not finished (R441). -/
def Saved.copies (sv : Saved) (g : Nat) : List EngOp := sv.ops.filter (fun o => o.wg == g && o.cls == 2)

/-- The engine work of a saved workgroup that stands in command queue entries (R277, R441): what has not been dispatched, and what had been but not begun. -/
def Saved.entries (sv : Saved) (g : Nat) : List EngOp :=
  sv.ops.filter (fun o => o.wg == g && o.cls != 2 && o.kind != .coll && !(o.kind.engine == .trav && o.phase != 0)) ++ sv.queue.filter (fun o => o.wg == g)

/-- Is a local byte address within the allocations of workgroups. -/
def inAllocs (wgs : List (Nat × Workgroup)) (a : Nat) : Bool :=
  wgs.any (fun e => e.2.allocs.any (fun x => x.base ≤ a && a < x.base + 4096 * x.blocks))

/-- Is a local byte address within the allocations or the rings of a gang that is saved. -/
def Saved.holds (sv : Saved) (a : Nat) : Bool :=
  inAllocs sv.wgs a || sv.rings.any (fun r => r.2.base ≤ a && a < r.2.base + Ring.bytes r.2)

/-- The bytes of the presence and of the poison of an allocation (R443): a bit for each line, a bit for each element. -/
def Alloc.tail (a : Alloc) : Nat := 132 * a.blocks

/-- Where the presence and the poison of an allocation stand in the slot (R443): at the end of its copy in the slice image. Where the workgroup has other bytes there, or the image ends, the slot has no room for them, and the device keeps them (DESIGN CHOICE 34). -/
def Saved.tailAt (sv : Saved) (e : Nat × Workgroup) (a : Alloc) : Option Nat :=
  let p := a.base % 2 ^ 20 + 4096 * a.blocks
  let busy (b n : Nat) : Bool := spansMeet (b % 2 ^ 20) n p a.tail
  if p + a.tail ≤ 2 ^ 20 && !e.2.allocs.any (fun x => busy x.base (4096 * x.blocks))
      && !sv.rings.any (fun r => r.2.owner == e.1 && busy r.2.base (Ring.bytes r.2)) then some (0x140000 + p)
  else none

/-- The presence and the poison of an allocation (R183, R443): bits set for absent lines and for poisoned elements. -/
def Saved.tailImage (sv : Saved) (a : Alloc) : List Byte :=
  bitBytes (4 * a.blocks) (fun i => Tbl.has sv.absent (a.base / 128 + i)) ++ bitBytes (128 * a.blocks) (fun i => sv.spois.contains (a.base / 4 + i))

/-- The pieces of a workgroup's slot outside the waves and the pair (R443), its SRAM as it stands in a cluster. -/
def Device.wgPieces (d : Device) (sv : Saved) (e : Nat × Workgroup) (pairFlags : Nat) : List (Nat × List Byte) :=
  let wg := e.2
  let g := Device.gang d wg.gang
  let l := Device.launch d g.launch
  let cl := wg.core / 8
  [(0, leBytes 4 l.lnch.toNat ++ leBytes 1 l.queue ++ leBytes 1 wg.index ++ leBytes 1 wg.waves.length ++ leBytes 1 (wg.group.getD 0xFF)
      ++ leBytes 4 g.gx ++ leBytes 4 g.gy ++ leBytes 4 g.gz ++ zeros 4 ++ leBytes 8 wg.succ.image ++ leBytes 4 pairFlags
      ++ leBytes 4 (sv.copies e.1).length ++ leBytes 4 (sv.entries e.1).length),
   (0x100, wg.bars.flatMap Bar.image),
   (0x200, wg.allocs.flatMap (fun a => leBytes 4 a.base ++ leBytes 4 a.blocks)),
   (0x1000, wg.descs.flatMap Desc.image),
   (0x2000, fitTo 65536 ((sv.copies e.1).flatMap EngOp.copyImage)),
   (0x12000, fitTo 147456 ((sv.entries e.1).flatMap EngOp.entryImage))]
  ++ (sv.rings.filter (fun r => r.2.owner == e.1)).map (fun r => (0x36000 + 512 * r.1, Ring.image r.2))
  ++ wg.allocs.map (fun a => (0x140000 + a.base % 2 ^ 20, Device.sramRead d cl a.base (4096 * a.blocks)))
  ++ wg.allocs.filterMap (fun a => (sv.tailAt e a).map (fun p => (p, sv.tailImage a)))
  ++ (sv.rings.filter (fun r => r.2.owner == e.1)).map (fun r => (0x140000 + r.2.base % 2 ^ 20, Device.sramRead d cl r.2.base (Ring.bytes r.2)))

/-- The pieces of a pair's state (R443): banks, slots, scale codes, poison; one poison bit stands for a cell's elements. -/
def Pair.pieces (p : Pair) : List (Nat × List Byte) :=
  [(0x240000, wordBytes ((List.range 32768).map (fun i => Tbl.getD p.banks i 0))),
   (0x260000, (List.range 16384).flatMap (fun i => leBytes 2 (Tbl.getD p.slots i 0).toNat)),
   (0x268000, (List.range 2048).map (fun i => BitVec.ofNat 8 (Tbl.getD p.scales i 127))),
   (0x268800, bitBytes 4096 (fun i => p.bankP.contains i)),
   (0x269800, bitBytes 2048 (fun i => (List.range 4).any (fun q => p.slotP.contains (4 * i + q))))]

/-- The flags of a pair in the header (R443): bit 0 present, bits 3:1 SAT, PERR, FLT. -/
def Pair.flagBits (p : Pair) : Nat := 1 + 2 * p.sat.toNat + 4 * p.perr.toNat + 8 * p.flt.toNat

/-- The members of a gang that have not retired (R392). -/
def Device.gangWgs (d : Device) (gid : Nat) : List Nat := (Device.gang d gid).wgs.filter (fun g => Tbl.has d.wgs g)

/-- The waves of a gang, with their identifiers. -/
def Device.gangWaves (d : Device) (gid : Nat) : List Nat := (Device.gang d gid).wgs.flatMap (fun g => (Device.wg d g).waves)

/-- The pairs that a gang owns (R17). -/
def Device.gangPairs (d : Device) (gid : Nat) : List Nat :=
  let g := Device.gang d gid
  ((List.range 4).map (fun j => 4 * (g.low / 8) + j)).filter (fun p => Device.pairOwner d p == some gid)

/-- The operations of a gang's waves. -/
def Device.gangOps (d : Device) (gid : Nat) : List EngOp := d.ops.filter (fun o => (Device.gangWaves d gid).contains o.wave)

/-- Is an operation one whose end a gang's save waits for (R268, R269): a copy of another gang into this one's allocations, but for one whose own gang is being saved too, which becomes a remainder (DESIGN CHOICE 66). -/
def Device.saveWaits (d : Device) (gid : Nat) (o : EngOp) : Bool :=
  (Device.wg d o.wg).gang != gid && !Device.opSaving d o && o.dstWgs.any (fun g => (Device.wg d g).gang == gid)

/-- Has a program of a gang's waves consumed a message whose outcome it has still to emit (R423): its step runs to its end. -/
def Device.pelMoving (d : Device) (ws : List Nat) : Bool :=
  [0, 1, 2, 3].any (fun i => match (Device.pel d i).running with
    | some p => ws.contains p.wave && p.taken.isSome
    | none => false)

/-- The pending trap that a wave takes at its next boundary (R427, R430): in its handler only one that the handler raised, a window fault aside (R436). -/
def Wave.duePending (w : Wave) : Option PTrap :=
  if w.handler then w.ptraps.find? (fun p => p.raised && p.code != 0x0A) else w.ptraps.head?

/-- Has every engine that holds state of a gang stopped (R441): no pair operation and no `hxg` word has begun (R277, R332), no zero-fill runs in its allocations, no copy of another gang into them is under way, no data step moves data (R423), no record of a ray is being written (R356), no handler word waits for its translation (R429), no wave has a trap to take first (R427), no spill or refill is in flight, but for a refill that waits for room, which the save itself gives it (R146). -/
def Device.saveReady (d : Device) (gid : Nat) : Bool :=
  let g := Device.gang d gid
  let cl := g.low / 8
  let mine := g.wgs.map (fun x => (x, Device.wg d x))
  (Device.gangOps d gid).all (fun o => !((o.kind.engine == .pair || o.kind == .hxg) && o.phase != 0))
  && !(Device.engineOps d).any (Device.saveWaits d gid) && !Device.pelMoving d (Device.gangWaves d gid)
  && (Device.gangWaves d gid).all (fun u =>
    let w := Device.wave d u
    (Wave.duePending w).isNone && !w.rays.any (fun e => e.2.writing) && !(w.handler && !w.pend.isEmpty) && !Wave.spillGoing w && (Wave.itemsIn w .refilling).all (fun e => Wave.refillOver w e.1 e.2))
  && d.fills.all (fun f => f.cl != cl || !inAllocs mine (128 * f.line))

/-- Completes the operations of classes 0 and 1 of a wave whose requests have left the core (R441). -/
def Device.drainLeft (d : Device) (u : Nat) : Device :=
  (Device.wave d u).outs.foldl (fun d o =>
    let w := Device.wave d u
    if o.cls ≤ 1 && !o.done && !((Wave.unfinished w).any (fun e => e.1 == o.id)) then Device.completeOp d u o else d) d

/-- Spills every resident position and frame of a wave, the reserve excluded (R146); a refill that waits for room finishes first, the residents being out. None when a write faults: then the wave's window fault is pending (R140, R441). -/
def Device.spillAll (d : Device) (u : Nat) : Except Device Device :=
  let w := Device.wave d u
  let inReserve (p : Nat) : Bool := w.handler && w.wlim ≤ p && p < w.wlim + 48
  let items (st : SlotSt) : List (Nat × Bool) := (Wave.itemsIn w st).filter (fun e => e.2 || !inReserve e.1)
  (items .resident ++ items .refilling).foldl (fun a i => match a with
    | .error d => .error d
    | .ok d =>
      let w := Device.wave d u
      let w := if Wave.itemSt? w i.1 i.2 == some .refilling then Wave.refilled w i.1 i.2 else w
      if (Wave.itemSt? w i.1 i.2).isNone then .ok (Device.setWave d u w)
      else
        let (d', f) := Device.cassWrites d (Device.agentOf d w) (Device.asidOf d w) (Wave.spillWrites w i.1 i.2) none
        (match f with
        | some (a, _) => .error (Device.setWave d u (Wave.windowFault w a))
        | none => .ok (Device.setWave d' u (Wave.nowSpilled w i.1 i.2)))) (.ok d)

/-- A wave without the operations that are complete (R442). -/
def Wave.onlyOpen (w : Wave) : Wave := { w with outs := w.outs.filter (fun o => !o.done) }

/-- Brings a wave to the state that is saved (R441, R446): nothing of it stands outside the core; unfinished words are replay entries; what is complete is not counted (R442). -/
def Device.stopWave (d : Device) (u : Nat) : Except Device Device :=
  let w := Device.wave d u
  let d := if w.handler then d else
    let w := Wave.toReplay w
    Device.setPend (Device.setWave d u w) u w.pend
  let d := Device.drainLeft d u
  Device.spillAll (Device.setWave d u (Wave.onlyOpen (Device.wave d u))) u

/-- Stops every wave of a list. -/
def Device.stopWaves (d : Device) : List Nat → Except Device Device
  | [] => .ok d
  | u :: r =>
    match Device.stopWave d u with
    | .error e => .error e
    | .ok d => Device.stopWaves d r

/-- Free save slots of a die, lowest first (R440). -/
def Device.freeSlots (d : Device) (die : Nat) : List Nat :=
  let x := Device.die d die
  (List.range x.svcnt).filter (fun i => !x.svused.contains i)

/-- Slots that the gangs being saved on a die still need (R440). -/
def Device.claimed (d : Device) (die : Nat) : Nat :=
  ((d.gangs.filter (fun e => e.2.st == .saving && e.2.low / 64 == die)).map (fun e => (Device.gangWgs d e.1).length)).sum

/-- A stopped gang as it is saved (R441): its waves, workgroups, pairs, rings, engine work and programs. -/
def Device.savedOf (d : Device) (gid : Nat) (slots : List (Nat × Nat)) : Saved :=
  let g := Device.gang d gid
  let ws := Device.gangWaves d gid
  let mine (o : EngOp) : Bool := ws.contains o.wave
  let c := Device.cluster d (g.low / 8)
  let wgs := (Device.gangWgs d gid).map (fun x => (x, Device.wg d x))
  let rings := c.rings.filter (fun r => g.wgs.contains r.2.owner)
  let progs := [0, 1, 2, 3].flatMap (fun i =>
    let x := Device.pel d i
    ((match x.running with | some p => [p] | none => []) ++ x.queue).filterMap (fun p => if ws.contains p.wave then some (i, p) else none))
  { gang := gid, die := g.low / 64, slots := slots, order := d.clock, off := (Device.queue d (Device.launch d g.launch).queue).susp, wgs := wgs,
    waves := ws.map (fun u => (u, Device.wave d u)), pairs := (Device.gangPairs d gid).map (fun p => (p % 4, Device.pair d p)),
    rings := rings,
    queue := (g.wgs.flatMap (fun x => (Device.core d (Device.wg d x).core).queue)).filter mine,
    ops := d.ops.filter mine, progs := progs, absent := c.absent.filter (fun e => inAllocs wgs (128 * e.1)),
    spois := c.spois.filter (fun e => inAllocs wgs (4 * e) || rings.any (fun r => r.2.base ≤ 4 * e && 4 * e < r.2.base + Ring.bytes r.2)) }

/-- Writes the slot of a saved workgroup (R443): zeroes, then its pieces. -/
def Device.writeSlot (d : Device) (sv : Saved) (slot : Nat) (e : Nat × Workgroup) : Device :=
  let base := Device.slotBase d sv.die slot
  let pair := if e.2.core % 2 == 0 then Tbl.get? sv.pairs (pairOf e.2.core % 4) else none
  let ps := Device.wgPieces d sv e (match pair with | some p => Pair.flagBits p | none => 0)
  let d' := Device.putPieces (Device.physZero d base slotSize) base ps
  let d' := match pair with
    | some p => Device.putPieces d' base (Pair.pieces p)
    | none => d'
  e.2.waves.foldl (fun d u =>
    let w := Tbl.getD sv.waves u Wave.blank
    Device.putPieces d (base + waveOff w.wid) (Wave.block w (progImage sv.progs u))) d'

/-- Takes a saved gang off its cores (R441): its resources are free; its pairs read as zero for the next owner (R277), and their bursts close (R303). -/
def Device.takeOff (d : Device) (sv : Saved) : Device :=
  let g := Device.gang d sv.gang
  let cl := g.low / 8
  let ws := sv.waves.map (fun e => e.1)
  let mine (o : EngOp) : Bool := ws.contains o.wave
  let owned (r : Nat × Ring) : Bool := g.wgs.contains r.2.owner
  let d := (Device.gangPairs d sv.gang).foldl (fun d p =>
    Device.setPair d p (Pair.stopped (Device.pair d p))) d
  let d := Device.dropPrograms d ws
  let d := g.wgs.foldl (fun d x =>
    let k := (Device.wg d x).core
    let q := Device.core d k
    Device.setCore d k { q with queue := q.queue.filter (fun o => !mine o) }) d
  let c := Device.cluster d cl
  let d := Device.setCluster d cl
    { c with rings := c.rings.filter (fun r => !owned r), absent := c.absent.filter (fun e => !inAllocs sv.wgs (128 * e.1)),
             spois := c.spois.filter (fun e => !sv.holds (4 * e)) }
  let x := Device.die d sv.die
  let d := Device.setDie d sv.die { x with svused := sv.slots.foldl (fun s e => NSet.ins s e.2) x.svused }
  let d := Device.setGang d sv.gang { g with st := .saved, tries := 0, drain := none }
  { d with waves := d.waves.filter (fun e => !ws.contains e.1), wgs := d.wgs.filter (fun e => !g.wgs.contains e.1),
           ops := d.ops.filter (fun o => !mine o), saved := d.saved ++ [sv], clock := d.clock + 1 }

/-- Lets a gang go on whose pre-emption is abandoned (R441): a failed attempt is counted for the gang that its cluster is drained for (R391, R392), where one is; a request of system software has none (DESIGN CHOICE 34). -/
def Device.abandon (d : Device) (gid : Nat) : Device :=
  let cl := (Device.gang d gid).low / 8
  let d := (Device.gangWaves d gid).foldl (fun d u => Device.setWave d u { Device.wave d u with preempt := false }) d
  let d := Device.setGang d gid { Device.gang d gid with st := .placed }
  let here (o : Option Nat) : Bool := o.any (fun k => k / 8 == cl)
  { d with gangs := d.gangs.map (fun e => if here e.2.drain then (e.1, { e.2 with tries := e.2.tries + 1 }) else e),
           queues := d.queues.map (fun e => if here e.2.drain then (e.1, { e.2 with tries := e.2.tries + 1 }) else e) }

/-- Saves a gang (R441 to R444): its waves stop, the L1 of their cluster is written back, so that nothing that they have seen stays behind (R229, R238), the slots are written, its resources are released; a Cassette fault abandons the pre-emption. -/
def Device.saveGang (d : Device) (gid : Nat) : Device :=
  let g := Device.gang d gid
  let slots := (Device.gangWgs d gid).zip (Device.freeSlots d (g.low / 64))
  match Device.stopWaves d (Device.gangWaves d gid) with
  | .error e =>
    let fault := (Device.gangWaves d gid).find? (fun u => (Device.wave e u).noSpill && !(Device.wave d u).noSpill)
    Device.abandon (match fault with
      | some u =>
        let w := Device.wave e u
        Device.setWave d u { Device.wave d u with noSpill := true, ptraps := w.ptraps }
      | none => d) gid
  | .ok d' =>
    let d' := Device.l1WriteBack d' (g.low / 8) everyLine
    let sv := Device.savedOf d' gid slots
    Device.takeOff (slots.foldl (fun x e => Device.writeSlot x sv e.2 (e.1, Device.wg d' e.1)) d') sv

/-- May a gang's pre-emption start (R440): a free slot of its die for each member, beside those that gangs being saved still need. -/
def Device.canPreempt (d : Device) (gid : Nat) : Bool :=
  let g := Device.gang d gid
  g.st == .placed && (Device.gangWgs d gid).length + Device.claimed d (g.low / 64) ≤ (Device.freeSlots d (g.low / 64)).length

/-- Starts a gang's pre-emption (R440): its waves stop at their next chain boundary, and none of their chains waits for anything more (R301, R427). -/
def Device.preemptGang (d : Device) (gid : Nat) : Device :=
  let d := (Device.gangWaves d gid).foldl (fun d u => Device.setWave d u { Device.wave d u with preempt := true, stalls := [] }) d
  Device.setGang d gid { Device.gang d gid with st := .saving }

/-- PREEMPTION_COMPLETE (R441). -/
def execEvPreemptionComplete (gang : Nat) (s : State) : Res :=
  match Tbl.get? s.dev.gangs gang with
  | none => .next s
  | some g =>
    if g.st == .saving && Device.saveReady s.dev gang && (Device.gangWgs s.dev gang).length ≤ (Device.freeSlots s.dev (g.low / 64)).length then
      .next { s with dev := Device.saveGang s.dev gang }
    else .next s

/-- A vector register read back from a block; none live, none allocated. Its uniformity is found as a refill finds it (R136). -/
def regOfImage (rd : Nat → Nat → List Byte) (at_ live pois : Nat) : Option VReg :=
  let L := BitVec.ofNat 64 (ofLeBytes (rd live 8))
  let P := BitVec.ofNat 64 (ofLeBytes (rd pois 8)) &&& L
  let bs := rd at_ 256
  let v (l : Nat) : Word := BitVec.ofNat 32 (fieldAt bs (4 * l) 4)
  if L == 0 then none
  else some ⟨L, P, allSame ((lanesOf L).map (fun l => (v l, P.getLsbD l))), mkLanes v⟩

/-- A held copy read back from its image (R433, R444). -/
def Replay.ofImage (bs : List Byte) : Replay :=
  let n (o k : Nat) : Nat := fieldAt bs o k
  let c := n 12 4
  { w0 := BitVec.ofNat 32 (n 0 4), w1 := BitVec.ofNat 32 (n 4 4), w2 := BitVec.ofNat 32 (n 8 4), valid := bitOf c 0, nlit := bitsOf c 2 1,
    cls := bitsOf c 6 4, faulted := bitOf c 8, fcode := BitVec.ofNat 8 (bitsOf c 23 16), mask := BitVec.ofNat 64 (n 0x10 8), subset := BitVec.ofNat 64 (n 0x10 8),
    pc := BitVec.ofNat 64 (n 0x18 8), wb := n 0x20 2, base := BitVec.ofNat 64 (n 0x28 8), offset := BitVec.ofNat 64 (n 0x30 8),
    sdata := (List.range 4).map (fun i => BitVec.ofNat 32 (n (0x38 + 4 * i) 4)), faddr := BitVec.ofNat 64 (n 0x48 8),
    ops := (List.range 5).map (fun j => mkLanes (fun l => BitVec.ofNat 32 (n (0x100 + 256 * j + 4 * l) 4))) }

/-- A lane's ray slot as its block gives it back (R444, R445), over what the device kept: the snapshots, the place of a claimed resumption, the node's bytes, and an MPC past the last micro-operation of the longest program, which CTRL has no room for (R360). -/
def rayOfBlock (kept : Option Ray) (rd : Nat → Nat → List Byte) (l : Nat) : Option Ray :=
  let n (o k : Nat) : Nat := ofLeBytes (rd o k)
  let k := kept.getD (Ray.start 0 TBind.none TBind.none 0 0)
  match n (0xF800 + l) 1 with
  | 0 => none
  | 1 =>
    let x := Ray.ofRecord (rd (0xB000 + 256 * l) 256) k.op k.rsb
    some { x with
      mpc := if x.mpc == k.mpc % 4096 then k.mpc else x.mpc, st := k.st, lay := k.lay, code := k.code, rf := k.rf, node := k.node,
      nodeAddr := BitVec.ofNat 64 (n (0xF840 + 16 * l) 8), nodeClass := n (0xF848 + 16 * l) 1 }
  | _ =>
    let x (i : Nat) : Word := BitVec.ofNat 32 (n (0xF000 + 32 * l + 4 * i) 4)
    let st := (x 5).toNat
    some { k with st := .finished, res := bitsOf st 3 0, slost := bitOf st 4, detail := bitsOf st 15 8, rmpc := bitsOf st 27 16, qerr := bitOf st 28,
                  hit := ⟨bitOf st 5, x 0, x 3, x 4, x 1, x 2, bitsOf st 7 6⟩, rsb := pair64 (x 6) (x 7) - BitVec.ofNat 64 (256 * l) }

/-- Does a lane's ray slot break its own rules (R443): no such state, a running ray where none ran or with another layout or program, a record or class that no ray has, a status that `tget` never gives. -/
def rayBlockBad (kept : Option Ray) (rd : Nat → Nat → List Byte) (l : Nat) : Bool :=
  let n (o k : Nat) : Nat := ofLeBytes (rd o k)
  match n (0xF800 + l) 1, kept with
  | 0, _ => false
  | 1, some k =>
    let bs := rd (0xB000 + 256 * l) 256
    k.st == .finished || n (0xF848 + 16 * l) 1 > 3 || fieldAt bs 0 4 != 0 || recordShapeBad bs
      || fieldAt bs 8 8 != k.lay.addr.toNat || fieldAt bs 0x10 8 != k.code.addr.toNat
  | 1, none => true
  | 2, _ =>
    let st := n (0xF014 + 32 * l) 4
    bitsOf st 31 29 != 0 || st % 16 == 0 || st % 16 > 9
  | _, _ => true

/-- Pending launch i of a block (R444). -/
def launchOfBlock (rd : Nat → Nat → List Byte) (i : Nat) : PLaunch :=
  let n (o k : Nat) : Nat := ofLeBytes (rd (0x4500 + 16 * i + o) k)
  ⟨BitVec.ofNat 64 (n 0 8), n 8 4, n 12 4⟩

/-- A wave as its block gives it back (R445, R446), over what the device kept: its work in flight, and its window positions and frames (all spilled). -/
def Wave.ofBlock (w : Wave) (rd : Nat → Nat → List Byte) : Wave :=
  let n (o k : Nat) : Nat := ofLeBytes (rd o k)
  let q (o : Nat) : DWord := BitVec.ofNat 64 (n o 8)
  let x (o : Nat) : Word := BitVec.ofNat 32 (n o 4)
  let wlim := n 0x4420 2
  let reserve : Tbl Slot := if w.handler then
      (List.range 48).filterMap (fun i => (regOfImage rd (0x7000 + 256 * i) (0xA000 + 8 * i) (0xA180 + 8 * i)).map (fun r => (wlim + i, ⟨.resident, r, 0⟩)))
    else []
  let sc := (List.range 256).map (fun i => (i, (⟨x (0x4000 + 4 * i), bitOf (n (0x4400 + i / 8) 1) (i % 8)⟩ : Elem)))
  let base := { w with
    pcs := mkLanes (fun l => q (0x100 + 8 * l)), wbs := mkLanes (fun l => n (0x300 + 2 * l) 2), ages := List.replicate 64 0,
    exited := q 0x38, helper := q 0x40, waiting := q 0x48, epmask := q 0x50,
    preds := ⟨0, 0⟩ :: (List.range 7).map (fun i => ⟨q (0x4480 + 16 * i), q (0x4488 + 16 * i)⟩),
    flags := (List.range 4).map (fun i => ⟨bitOf (n 5 1) i, bitOf (n 5 1) (4 + i)⟩),
    scal := sc.filter (fun e => e.2.v != 0 || e.2.p),
    vfix := (List.range 16).filterMap (fun i => (regOfImage rd (0x5000 + 256 * i) (0x6000 + 8 * i) (0x6080 + 8 * i)).map (fun r => (i, r))),
    win := reserve.foldl (fun t e => Tbl.put t e.1 e.2) (w.win.filter (fun e => e.2.st == .spilled)),
    wlim := wlim, quota := n 0x4422 2, wdog := x 0x4424, wsp := q 0x4428, fpm := x 0x4430 &&& 0xFFFF001F, fmt := x 0x4434,
    shape := BitVec.ofNat 6 (n 0x4438 1), tokw := x 0x4440, scount := x 0x4444, cycLatch := x 0x4448, stepLatch := x 0x444C,
    launches := (List.range w.launches.length).map (launchOfBlock rd),
    rays := (List.range 64).filterMap (fun l => (rayOfBlock (Tbl.get? w.rays l) rd l).map (fun r => (l, r))),
    tbas := q 0xFC40, tfrm := q 0xFC48,
    tbasLo := if bitOf (n 0xFC80 4) 0 then some (x 0xFC78) else none, tfrmLo := if bitOf (n 0xFC80 4) 1 then some (x 0xFC7C) else none,
    firstPoison := if n 0x30 1 == 0 then none else some (q 0x28, BitVec.ofNat 8 (n 0x30 1)),
    held := (List.range (min 6 (n 1 1))).map (fun e => Replay.ofImage (rd (0x600 + 0x600 * e) 1536)),
    preempt := false, stalls := [], active := none, fresh := false }
  let b : Wave := base
  if w.handler then
    { b with trc := BitVec.ofNat 8 (n 0xFC50 1), trqn := n 0xFC51 1, trwb := n 0xFC52 2, trlm := q 0xFC58, tram := q 0xFC60, trpc := q 0xFC68,
             trpa := q 0xFC70 }
  else b

/-- Does a held copy break the rules of a replay entry (R433, R437). -/
def Replay.bad (r : Replay) : Bool :=
  r.nlit > 2 || (r.valid && (match gopOfWord r.w0 with
    | some g => r.cls != g.cls || !litsOk r.w0 r.nlit
    | none => true))

/-- Does a block break its own rules (R443): a value that no wave can hold, a counter that does not equal its class's operations (R442), a binding that is not the one in force. -/
def blockBad (w : Wave) (rd : Nat → Nat → List Byte) : Bool :=
  let n (o k : Nat) : Nat := ofLeBytes (rd o k)
  let r := Wave.ofBlock w rd
  n 0 1 != 0x12 || n 1 1 != w.held.length || n 6 1 != w.handler.toNat || r.wlim < 48 || r.wlim > 65488 || r.quota < 16 || r.quota > w.quota
  || r.quota < Wave.heldUnits r || bitsOf r.fpm.toNat 2 0 ≥ 6
  || (r.fmt != 0 && !fmtOk r.fmt) || !shapeOk (BitVec.ofNat 32 (n 0x4438 1)) || !tbasOk r.tbas r.tfrm || n 0xFC80 4 > 3
  || (lanesOf (~~~r.exited)).any (fun l => r.wbs.getD l 0 + 48 > r.wlim)
  || r.pcs.any (fun p => p.toNat % 4 != 0) || r.held.any Replay.bad
  || rd 0x4450 8 != Wave.counterImage w || (Wave.bindImage w).any (fun p => rd p.1 p.2.length != p.2)
  || r.launches.any (fun p => !canonical p.record || p.record.toNat % 256 != 0 || p.queue ≥ 64 || p.depth > 16)
  || (List.range 64).any (fun l => rayBlockBad (Tbl.get? w.rays l) rd l)

/-- Records of n bytes in a row, each loaded over what the device kept of it; none for one that breaks its own rules. -/
def loadRecs {α : Type} (rd : Nat → Nat → List Byte) (at_ n : Nat) (load : α → List Byte → Option α) (xs : List α) : List (Option α) :=
  xs.zipIdx.map (fun e => load e.1 (rd (at_ + n * e.2) n))

/-- The bytes of a saved workgroup's slot. -/
def Device.slotRd (d : Device) (sv : Saved) (slot : Nat) : Nat → Nat → List Byte := fun o k => Device.physRead d (Device.slotBase d sv.die slot + o) k

/-- The engine work of a workgroup as its slot gives it back (R443): the copies and the entries that their areas hold. -/
def Saved.slotWork (sv : Saved) (g : Nat) (rd : Nat → Nat → List Byte) : List (Option EngOp) :=
  loadRecs rd 0x2000 64 EngOp.loadCopy ((sv.copies g).take 1024) ++ loadRecs rd 0x12000 9216 EngOp.loadEntry ((sv.entries g).take 16)

/-- The rings of a workgroup as its slot gives them back (R443). -/
def Saved.slotRings (sv : Saved) (g : Nat) (rd : Nat → Nat → List Byte) : List (Option (Nat × Ring)) :=
  (sv.rings.filter (fun r => r.2.owner == g)).map (fun r => (Ring.load r.2 (rd (0x36000 + 512 * r.1) 512)).map (fun x => (r.1, x)))

/-- The programs of a workgroup's waves as its slot gives them back (R443, R444). -/
def Saved.slotProgs (sv : Saved) (wg : Workgroup) (rd : Nat → Nat → List Byte) : List (Option PProg) :=
  wg.waves.flatMap (fun u => loadRecs rd (waveOff (Tbl.getD sv.waves u Wave.blank).wid + 0x4600) 64 PProg.load
    (((sv.progs.map (fun p => p.2)).filter (fun p => p.wave == u)).take 16))

/-- Bit i of a slot's bytes from an offset. -/
def slotBit (rd : Nat → Nat → List Byte) (at_ i : Nat) : Bool := bitOf (ofLeBytes (rd (at_ + i / 8) 1)) (i % 8)

/-- The lines of an allocation that its slot gives back as absent (R443): those of the device's own record where the slot has no room for them. -/
def Saved.slotAbsent (sv : Saved) (e : Nat × Workgroup) (rd : Nat → Nat → List Byte) (a : Alloc) : List Nat :=
  match sv.tailAt e a with
  | some p => ((List.range (32 * a.blocks)).filter (slotBit rd p)).map (fun i => a.base / 128 + i)
  | none => ((List.range (32 * a.blocks)).map (fun i => a.base / 128 + i)).filter (Tbl.has sv.absent)

/-- The elements of an allocation that its slot gives back as poisoned (R443): those of the device's own record where the slot has no room for them. -/
def Saved.slotPois (sv : Saved) (e : Nat × Workgroup) (rd : Nat → Nat → List Byte) (a : Alloc) : List Nat :=
  match sv.tailAt e a with
  | some p => ((List.range (1024 * a.blocks)).filter (slotBit rd (p + 4 * a.blocks))).map (fun i => a.base / 4 + i)
  | none => ((List.range (1024 * a.blocks)).map (fun i => a.base / 4 + i)).filter (fun i => sv.spois.contains i)

/-- Does a device-internal record of a workgroup's slot break its own rules (R443): it is not that of what was saved, it holds a value out of its range, or it makes a line absent that nothing fills. -/
def Saved.recordsBad (sv : Saved) (e : Nat × Workgroup) (rd : Nat → Nat → List Byte) : Bool :=
  ofLeBytes (rd 0x24 4) != (sv.copies e.1).length || ofLeBytes (rd 0x28 4) != (sv.entries e.1).length
  || (sv.slotWork e.1 rd).any (fun x => x.isNone) || (sv.slotRings e.1 rd).any (fun x => x.isNone) || (sv.slotProgs e.2 rd).any (fun x => x.isNone)
  || e.2.allocs.any (fun a => (sv.slotAbsent e rd a).any (fun l => !Tbl.has sv.absent l))

/-- A saved gang with its device-internal records as the slots give them back (R443); where a record breaks its rules, and its workgroup is killed, as the device kept it. -/
def Device.loadRecords (d : Device) (sv : Saved) : Saved :=
  let at_ := sv.wgs.filterMap (fun e => (Tbl.get? sv.slots e.1).map (fun i => (e, Device.slotRd d sv i)))
  let ops := at_.flatMap (fun x => (sv.slotWork x.1.1 x.2).filterMap id)
  let op (o : EngOp) : EngOp := (ops.find? (fun y => y.id == o.id)).getD o
  let rings := at_.flatMap (fun x => (sv.slotRings x.1.1 x.2).filterMap id)
  let progs := at_.flatMap (fun x => (sv.slotProgs x.1.2 x.2).filterMap id)
  let gone := at_.flatMap (fun x => x.1.2.allocs.flatMap (fun a =>
    ((List.range (32 * a.blocks)).map (fun i => a.base / 128 + i)).filter (fun l => !(sv.slotAbsent x.1 x.2 a).contains l)))
  let pois := at_.flatMap (fun x => x.1.2.allocs.flatMap (sv.slotPois x.1 x.2))
  { sv with ops := sv.ops.map op, queue := sv.queue.map op, rings := sv.rings.map (fun r => (r.1, Tbl.getD rings r.1 r.2)),
            progs := sv.progs.map (fun p => (p.1, (progs.find? (fun y => y.op == p.2.op)).getD p.2)),
            absent := sv.absent.filter (fun x => !gone.contains x.1), spois := pois.foldl NSet.ins (sv.spois.filter (fun i => !inAllocs sv.wgs (4 * i))) }

/-- A workgroup as its slot gives it back (R443); none when a record breaks its own rules. -/
def Device.wgOfSlot (d : Device) (sv : Saved) (rd : Nat → Nat → List Byte) (e : Nat × Workgroup) : Option Workgroup :=
  let wg := e.2
  let n (o k : Nat) : Nat := ofLeBytes (rd o k)
  let g := Device.gang d wg.gang
  let l := Device.launch d g.launch
  let bars := (List.range 16).map (fun b => Bar.ofImage (rd (0x100 + 16 * b) 16))
  let allocs := (List.range wg.allocs.length).map (fun i => (⟨n (0x200 + 8 * i) 4, n (0x204 + 8 * i) 4⟩ : Alloc))
  let descs := (List.range 16).map (fun i => Desc.ofImage (rd (0x1000 + 256 * i) 256))
  let succ := if n 0x18 8 != 0 then Succ.entry (BitVec.ofNat 64 (n 0x18 8)) else match wg.succ with
    | .stop => Succ.stop
    | _ => Succ.unset
  if n 0 4 != l.lnch.toNat || n 4 1 != l.queue || n 5 1 != wg.index || n 6 1 != wg.waves.length || n 7 1 != wg.group.getD 0xFF
      || n 8 4 != g.gx || n 12 4 != g.gy || n 16 4 != g.gz || n 0x18 8 % 96 != 0 || bars.any (fun b => b.isNone) || allocs != wg.allocs
      || sv.recordsBad e rd then none
  else some { wg with bars := bars.map (fun b => b.getD Bar.zero), descs := descs, succ := succ }

/-- A pair's state as a slot gives it back (R443); the poison of a cell of w0, w1 is that of its elements as they were saved, or of all four where none was; that of the scale codes, for which the slot has no room, is the device's own record (DESIGN CHOICE 34). -/
def Device.pairOfSlot (d : Device) (base : Nat) (p : Pair) : Pair :=
  let n (o k : Nat) : Nat := ofLeBytes (Device.physRead d (base + o) k)
  let f := n 0x20 4
  let part (i : Nat) : List Nat :=
    let was := ((List.range 4).map (fun q => 4 * i + q)).filter (fun j => p.slotP.contains j)
    if was.isEmpty then (List.range 4).map (fun q => 4 * i + q) else was
  { p with
    banks := Tbl.block [] 0 32768 (fun i => BitVec.ofNat 32 (n (0x240000 + 4 * i) 4))
    slots := Tbl.block [] 0 16384 (fun i => BitVec.ofNat 16 (n (0x260000 + 2 * i) 2))
    scales := Tbl.block [] 0 2048 (fun i => n (0x268000 + i) 1)
    bankP := (List.range 32768).filter (fun i => bitOf (n (0x268800 + i / 8) 1) (i % 8))
    slotP := ((List.range 16384).filter (fun i => bitOf (n (0x269800 + i / 8) 1) (i % 8))).flatMap part ++ p.slotP.filter (fun j => 65536 ≤ j)
    sat := bitOf f 1, perr := bitOf f 2, flt := bitOf f 3 }

/-- A pair passes to a gang (R277, R290): at a launch boundary its origin turns. -/
def Pair.owned (p : Pair) (launch : Nat) : Pair :=
  let o := p.org.toNat
  if p.prev == some launch then p
  else { p with prev := some launch,
                org := BitVec.ofNat 32 ((bitsOf o 31 16 + 1) % 65536 * 65536 + (bitsOf o 13 8 + 41) % 64 * 256 + (bitsOf o 1 0 + 1) % 4) }

/-- A core takes a workgroup of a launch (R248): its instruction cache is invalidated after another launch's. -/
def Device.coreTakes (d : Device) (core launch : Nat) : Device :=
  let c := Device.core d core
  Device.setCore d core { c with icache := if c.lastLaunch == some launch then c.icache else [], lastLaunch := some launch }

/-- The lowest resident slot of a core that no wave has (R75). -/
def Device.freeRslot (d : Device) (core : Nat) : Nat :=
  ((List.range 64).find? (fun i => !d.waves.any (fun e => e.2.core == core && e.2.rslot == i))).getD 0

/-- Reads a running ray's last node again (R445): a fault suspends the ray as its FETCH would (R346, R356). -/
def Device.refetch (d : Device) (u l : Nat) (r : Ray) : Device :=
  if r.st != .running || r.node.isEmpty then d
  else match Device.rayRead d (Device.wave d u) r.nodeAddr 16 (laySize r.lay.image r.nodeClass / 16) with
    | .ok bs => Device.setRay d u l { r with node := bs }
    | .bad a c => Device.raySuspend d u l { r with node := [] } 4 c.toNat a
    | .wait => d

/-- Puts a saved workgroup back on a core, from its slot (R445 step 1), on the lowest free resident slots; a record that breaks its rules, or a slot that cannot be read, kills it. -/
def Device.restoreWg (d : Device) (sv : Saved) (e : Nat × Workgroup) (cl slot : Nat) : Device :=
  let rd := Device.slotRd d sv slot
  let core := 8 * cl + e.2.core % 8
  let ws := e.2.waves.map (fun u => (u, Tbl.getD sv.waves u Wave.blank))
  let block (wid : Nat) : Nat → Nat → List Byte := fun o k => rd (waveOff wid + o) k
  let bad := Device.memBad d (Device.slotBase d sv.die slot) slotSize || ws.any (fun w => blockBad w.2 (block w.2.wid))
  let wg := Device.wgOfSlot d sv rd e
  let image (a n : Nat) : List Byte := rd (0x140000 + a % 2 ^ 20) n
  let d := Device.setWg (Device.coreTakes d core (Device.gang d sv.gang).launch) e.1 { wg.getD e.2 with core := core }
  let d := ws.foldl (fun d w => Device.setWave d w.1
    { (if bad then w.2 else Wave.ofBlock w.2 (block w.2.wid)) with
      core := core, rslot := Device.freeRslot d core, since := Device.now d core, preempt := false }) d
  let d := e.2.allocs.foldl (fun d a => Device.sramWrite d cl a.base (image a.base (4096 * a.blocks))) d
  let d := (sv.rings.filter (fun r => r.2.owner == e.1)).foldl (fun d r => Device.sramWrite d cl r.2.base (image r.2.base (Ring.bytes r.2))) d
  if bad || wg.isNone then Device.killWg d e.1 else d

/-- An operation on its new core. -/
def EngOp.moved (o : EngOp) (cl : Nat) : EngOp := { o with core := 8 * cl + o.core % 8 }

/-- A saved pair on its new cluster (R443, R290): its own state, the origin, token and burst of the pair that the gang now owns. -/
def Device.restorePair (d : Device) (sv : Saved) (cl : Nat) (p : Nat × Pair) : Device :=
  let now := Pair.owned (Device.pair d (4 * cl + p.1)) (Device.gang d sv.gang).launch
  let wg := sv.wgs.find? (fun e => e.2.core % 8 == 2 * p.1)
  let x := match wg.bind (fun e => Tbl.get? sv.slots e.1) with
    | some i => Device.pairOfSlot d (Device.slotBase d sv.die i) p.2
    | none => p.2
  Device.setPair d (4 * cl + p.1)
    { x with org := now.org, prev := now.prev, token := now.token, accept := now.accept, quiet := now.quiet, age := now.age }

/-- Work of a saved gang re-enters its queues and engines in saved order (R445 step 3); that of a workgroup that was killed is dropped (R404). -/
def Device.reenter (d : Device) (sv : Saved) (cl : Nat) : Device :=
  let alive (g : Nat) : Bool := !(Device.wg d g).killed
  let ops := sv.ops.map (fun o => o.moved cl)
  let queue := sv.queue.map (fun o => o.moved cl)
  let dead := (ops ++ queue).filter (fun o => !alive o.wg)
  let d := { d with ops := d.ops ++ ops.filter (fun o => alive o.wg),
                    pairs := d.pairs.map (fun e => (e.1, { e.2 with stream := e.2.stream.filter (fun i => !dead.any (fun o => o.id == i)) })) }
  let d := (queue.filter (fun o => alive o.wg)).foldl (fun d o =>
    let q := Device.core d o.core
    Device.setCore d o.core { q with queue := q.queue ++ [o] }) d
  let d := (sv.progs.filter (fun p => alive (Device.wave d p.2.wave).wg)).reverse.foldl (fun d p =>
    let x := Device.pel d p.1
    Device.setPel d p.1 { x with queue := p.2 :: x.queue }) d
  dead.foldl Device.dropWork d

/-- A restored wave goes on (R445 steps 2 and 4): the last nodes of its rays are read again, its replay entries are re-injected; in handler mode they stay held. -/
def Device.resumeWave (d : Device) (u : Nat) : Device :=
  let w := Device.wave d u
  if w.ended then d
  else
    let d := w.rays.foldl (fun d r => Device.refetch d u r.1 r.2) d
    if w.handler then d
    else
      let w := Device.wave d u
      Device.reinjectAll (Device.setWave d u { w with held := [], carried := [] }) u 0 w.carried w.held

/-- Restores a gang on a cluster whose sets fit (R445): state is written back, engine work re-enters in saved order, waves resume, the slots are freed. The cluster's L1 keeps no byte older than what the waves have seen (R229). -/
def Device.restoreGang (d : Device) (was : Saved) (cl : Nat) : Device :=
  let d := Device.l1Drop d cl everyLine
  let sv := Device.loadRecords d was
  let g := Device.gang d sv.gang
  let d := { d with saved := d.saved.filter (fun x => x.gang != sv.gang) }
  let d := Device.setGang d sv.gang { g with st := .placed, low := 8 * cl + g.low % 8, order := d.clock, tries := 0, drain := none }
  let c := Device.cluster d cl
  let d := Device.setCluster d cl
    { c with rings := sv.rings.foldl (fun t r => Tbl.put t r.1 r.2) c.rings, absent := sv.absent.foldl (fun t e => Tbl.put t e.1 e.2) c.absent,
             spois := sv.spois.foldl NSet.ins c.spois }
  let d := sv.pairs.foldl (fun d p => Device.restorePair d sv cl p) d
  let d := sv.slots.foldl (fun d x =>
    match Tbl.get? sv.wgs x.1 with
    | some e => Device.restoreWg d was (x.1, e) cl x.2
    | none => d) d
  let d := (sv.waves.map (fun e => e.1)).foldl Device.resumeWave (Device.reenter d sv cl)
  let x := Device.die d sv.die
  Device.setDie d sv.die { x with svused := sv.slots.foldl (fun s e => NSet.rem s e.2) x.svused }

end Sys2Proof.Machine
end

