-- ==== Sys2Proof/Machine/Scheduler.lean ====
section
/-! DEFINITION. Launches, queues and placement (R379 to R404), the active set (R75, R77), the restart by a successor (R94). -/

namespace Sys2Proof.Machine

/-- LAUNCH (R396, R397): appends to the wave's pending launches, or writes q0 = 1; a release at module scope. -/
def execLaunchW (o : E1) (s : State) : Res :=
  let n := o.s.toNat
  let w := State.src s
  let L := s.ctx.lanes
  let a := State.sc64 s n
  let t := (State.sc s (n + 2)).v.toNat
  let x := Device.queue s.pre t
  let depth := (Device.launchOf s.pre w).depth + 1
  if t ≥ 64 then .next (State.trap s 0x03 L 0)
  else if State.scPois s n 3 then .next (State.trap s 0x05 L 0)
  else if !canonical a then .next (State.trap s 0x07 L a)
  else if a.toNat % 256 != 0 then .next (State.trap s 0x08 L a)
  else if depth > 16 || !x.en || !bitOf x.ctl 0 || x.asid != State.asid s then .next (State.setFlag s 0 true false)
  else if (State.cur s).launches.length ≥ 4 || State.classFull s 7 then .next (State.hold s .long)
  else .next (State.release s 4 (fun s =>
    State.doneOp (State.mapWave (State.setFlag s 0 false false) (fun w => { w with launches := w.launches ++ [⟨a, t, depth⟩] })) 7))

/-- Pushes an address on a queue's tape (R398): when the tape is full, or cannot be written, the push is dropped and the launch's error bit set. -/
def Device.tapePush (d : Device) (q launch : Nat) (a : DWord) : Device :=
  let x := Device.queue d q
  if x.ttop ≥ 4096 then Device.launchErr d launch
  else match Device.vwrite d ((dieAgent 0).workFor (Device.launch d launch).lnch) x.asid false (x.tbase + BitVec.ofNat 64 (8 * x.ttop)) (leBytes 8 a.toNat) with
    | .error _ => Device.launchErr d launch
    | .ok d => Device.queuePut d q { x with ttop := x.ttop + 1 }

/-- TAPE (R396, R398): one operation of class 7, complete once the push is applied. -/
def execTapeW (o : E1) (s : State) : Res :=
  let n := o.s.toNat
  let w := State.src s
  let L := s.ctx.lanes
  let a := State.sc64 s n
  let lid := Device.launchIdOf s.pre w
  if State.scPois s n 2 then .next (State.trap s 0x05 L 0)
  else if !canonical a then .next (State.trap s 0x07 L a)
  else if a.toNat % 256 != 0 then .next (State.trap s 0x08 L a)
  else if State.classFull s 7 then .next (State.hold s .long)
  else .next (State.release s 4 (fun s =>
    State.doneOp { s with dev := Device.tapePush s.dev (Device.launchOf s.pre w).queue lid a } 7))

/-- Entries that a ring holds (R379). -/
def Queue.cap (x : Queue) : Nat := 2 ^ x.rsz

/-- Halts a queue (R382): state 3, 4 or 5; RD stays at the entry. -/
def Device.haltQueue (d : Device) (q st : Nat) : Device := Device.queuePut d q { Device.queue d q with stat := st }

/-- Is a queue halted (R382). -/
def Queue.halted (x : Queue) : Bool := 3 ≤ x.stat && x.stat ≤ 5

/-- The source rights of a write (R448): does a source act as port p. -/
def Device.actsAs (d : Device) (src p : Nat) : Bool :=
  if src < 2 then src == p
  else if src ≥ 4 then
    let q := (src - 4) % 64
    let own := bitsOf (d.sys.qown.getD (q / 32) 0).toNat (2 * (q % 32) + 1) (2 * (q % 32))
    own == p || own == 2
  else false

/-- QOWN(q) (R448). -/
def Device.qowner (d : Device) (q : Nat) : Nat := bitsOf (d.sys.qown.getD (q / 32) 0).toNat (2 * (q % 32) + 1) (2 * (q % 32))

/-- Does QOWN(q) admit a source (R448, R449). -/
def Device.admits (d : Device) (q src : Nat) : Bool :=
  match Device.qowner d q with
  | 0 => src == 2 || Device.actsAs d src 0
  | 1 => src == 2 || Device.actsAs d src 1
  | 2 => src == 2 || Device.actsAs d src 0 || Device.actsAs d src 1
  | _ => src == 2

/-- DOORBELL (R381, R449): copies the new write index to WR; too many entries halt the queue; a device-fed queue ignores it, a source that QOWN does not allow is refused and recorded. -/
def execEvDoorbell (q : Nat) (v : BitVec 64) (src : Nat) (s : State) : Res :=
  let x := Device.queue s.dev q
  let wr := lo32 v
  if q ≥ 64 then .next s
  else if !Device.admits s.dev q src then .next { s with dev := Device.logError s.dev 3 0 (srcByte src) q 0 (srcLnch src) 0 }
  else if bitOf x.ctl 0 || !x.en then .next s
  else if (wr - x.rd).toNat > Queue.cap x then .next { s with dev := Device.haltQueue s.dev q 3 }
  else
    let st := if x.stat == 0 && wr != x.rd then 1 else if x.stat == 1 && wr == x.rd && x.head == .none then 0 else x.stat
    .next { s with dev := Device.queuePut s.dev q { x with wr := wr, stat := st } }

/-- A queue's entry (R380). -/
inductive Entry where
  | launch (a : DWord)
  | tape
  | mark (mask : DWord)
  | bad
  deriving DecidableEq, Repr

/-- Decodes 16 bytes of a ring (R380). -/
def entryOf (bs : List Byte) : Entry :=
  let c := fieldAt bs 0 8
  let v := BitVec.ofNat 64 (fieldAt bs 8 8)
  if c == 1 then (if canonical v && v.toNat % 256 == 0 then .launch v else .bad)
  else if c == 2 then (if v == 0 then .tape else .bad)
  else if c == 3 then .mark v
  else .bad

/-- Reads n bytes of one 16-byte unit for a queue (R379, R383). -/
def Device.queueRead (d : Device) (x : Queue) (a : DWord) (n : Nat) : Except (BitVec 8) (List Byte) :=
  Device.vread d (dieAgent 0) x.asid .r a n

/-- The head entry of a queue that is to be processed (R382): none while the queue is not enabled, is halted or suspended, has no entry, or processes one. -/
def Device.headEntry (d : Device) (q : Nat) : Option (Except (BitVec 8) Entry) :=
  let x := Device.queue d q
  if !x.en || x.susp || Queue.halted x || x.rd == x.wr || x.head != .none then none
  else some (match Device.queueRead d x (x.rbase + BitVec.ofNat 64 (16 * (x.rd.toNat % Queue.cap x))) 16 with
    | .error c => .error c
    | .ok bs => .ok (entryOf bs))

/-- Finishes the head entry (R382): RD advances. -/
def Queue.finished (x : Queue) : Queue :=
  let rd := x.rd + 1
  { x with rd := rd, head := .none, tries := 0, drain := none, stat := if rd == x.wr then 0 else 1,
           depths := x.depths.filter (fun e => e.1 != x.rd.toNat) }

/-- A record's 256 bytes at an address (R383). -/
def Device.recordRead (d : Device) (x : Queue) (a : DWord) : Except (BitVec 8) (List Byte) :=
  (List.range 16).foldl (fun r i => match r with
    | .error c => .error c
    | .ok bs => match Device.queueRead d x (a + BitVec.ofNat 64 (16 * i)) 16 with
      | .error c => .error c
      | .ok b => .ok (bs ++ b)) (.ok [])

/-- The fields of a launch record (R383). -/
def LRec.of (bs : List Byte) : LRec :=
  let q (o : Nat) : DWord := BitVec.ofNat 64 (fieldAt bs o 8)
  { entry := q 0, argp := q 8, gx := fieldAt bs 0x10 4, gy := fieldAt bs 0x14 4, gz := fieldAt bs 0x18 4, gsize := fieldAt bs 0x20 1,
    waves := fieldAt bs 0x21 1, flags := fieldAt bs 0x22 2, prio := fieldAt bs 0x24 1, depth := fieldAt bs 0x25 1, wlim := fieldAt bs 0x26 2,
    quota := fieldAt bs 0x28 2, spad := fieldAt bs 0x2C 4, spbase := q 0x30, spstr := fieldAt bs 0x38 4, wdog := BitVec.ofNat 32 (fieldAt bs 0x3C 4),
    cond0 := (q 0x40, q 0x48), cond1 := (q 0x50, q 0x58), done := (q 0x60, q 0x68), tbas := q 0x70, tfrb := q 0x78,
    user := (List.range 30).map (fun i => BitVec.ofNat 32 (fieldAt bs (0x88 + 4 * i) 4)) }

/-- PAIR of FLAGS (R384). -/
def LRec.pair (r : LRec) : Bool := bitOf r.flags 0
/-- HQ. -/
def LRec.hq (r : LRec) : Bool := bitOf r.flags 1
/-- BG. -/
def LRec.bg (r : LRec) : Bool := bitOf r.flags 2
/-- HASH. -/
def LRec.hash (r : LRec) : Bool := bitOf r.flags 3
/-- TRAV. -/
def LRec.trav (r : LRec) : Bool := bitOf r.flags 4
/-- NLAST. -/
def LRec.nlast (r : LRec) : Nat := bitsOf r.flags 15 10
/-- The number of gangs. -/
def LRec.gangs (r : LRec) : Nat := r.gx * r.gy * r.gz

/-- Is a record bad for a queue (R383 to R385, R428). -/
def LRec.bad (r : LRec) (x : Queue) : Bool :=
  let adr (a : DWord) : Bool := a != 0 && !(canonical a && a.toNat % 8 == 0)
  !(canonical r.entry && r.entry != 0 && r.entry.toNat % 96 == 0) || r.gsize == 0 || r.gsize > 8 || r.waves == 0 || r.waves > 16
  || bitsOf r.flags 9 5 != 0 || r.prio > 7 || (!bitOf x.ctl 0 && r.depth > 16) || r.wlim < 48 || r.wlim > 65488 || r.quota < 16
  || r.spad > 1048576 || r.spbase.toNat % 65536 != 0 || r.spstr % 65536 != 0
  || (r.pair && r.gsize % 2 == 1) || r.bg != bitOf x.ctl 1 || r.waves * r.quota > 65536
  || adr r.cond0.1 || adr r.cond1.1 || adr r.done.1 || !canonical r.spbase || !canonical r.tbas || !canonical r.tfrb
  || (r.tbas != 0 && (r.tbas.toNat % 96 != 0 || r.tfrb == 0 || r.tfrb.toNat % 16384 != 0))

/-- LNCH (R387). -/
def lnchOf (q seq : Nat) : Word := BitVec.ofNat 32 (q * 2 ^ 26 + seq % 2 ^ 26)

/-- Starts the launch that a record describes at the head of a queue (R383, R399): the queue halts on a bad record or a failing read. -/
def Device.startLaunch (d : Device) (q : Nat) (a : DWord) (tape : Bool) : Device :=
  let x := Device.queue d q
  match Device.recordRead d x a with
  | .error _ => Device.queuePut d q { x with stat := 5, head := .none }
  | .ok bs =>
    let r := LRec.of bs
    if r.bad x then Device.queuePut d q { x with stat := 4, head := .none }
    else
      let id := d.uid
      let depth := if bitOf x.ctl 0 then (match x.depths.find? (fun e => e.1 == x.rd.toNat) with | some e => e.2 | none => 0) else r.depth
      let c0 := r.cond0.1 == 0
      let c1 := r.cond1.1 == 0
      let l : Launch :=
        { lnch := lnchOf q x.seq, c0 := c0, c1 := c1, queue := q, asid := x.asid, lrec := r, depth := depth, err := false, next := 0, live := [],
          killed := false, tape := tape }
      let x := { x with head := if tape then .tape (some id) else .launch id, stat := if c0 && c1 then 1 else 2, tries := 0, drain := none }
      Device.queuePut (Device.setLaunch { d with uid := d.uid + 1 } id l) q x

/-- The launch at the head of a queue (R382, R399). -/
def Queue.headLaunch (x : Queue) : Option Nat :=
  match x.head with
  | .launch id => some id
  | .tape r => r
  | .none => none

/-- Are a launch's conditions met and its gangs all placed (R382); a killed launch places no further gang (R404). -/
def Launch.allPlaced (l : Launch) : Bool := l.killed || (l.c0 && l.c1 && l.next ≥ l.lrec.gangs)

/-- Ends the LAUNCH entry at the head once its launch is placed (R382): the sequence grows by 1 (R387). A halted queue stays at its entry until it is enabled again; a launch that has been killed and has retired meanwhile is then placed as far as it ever will be (DEDUCED 40). A tape's launch stays until it retires (R399). -/
def Device.headStep (d : Device) (q : Nat) : Device :=
  let x := Device.queue d q
  match x.head with
  | .launch id =>
    if (Tbl.get? d.launches id).all (fun l => l.allPlaced) && !Queue.halted x then Device.queuePut d q { Queue.finished x with seq := (x.seq + 1) % 2 ^ 26 } else d
  | _ => d

/-- LAUNCH_ENTRY (R380, R382, R383): the head entry is a LAUNCH, or is bad. -/
def execEvLaunchEntry (q : Nat) (s : State) : Res :=
  match Device.headEntry s.dev q with
  | none => .next s
  | some (.error _) => .next { s with dev := Device.haltQueue s.dev q 5 }
  | some (.ok .bad) => .next { s with dev := Device.haltQueue s.dev q 3 }
  | some (.ok (.launch a)) => .next { s with dev := Device.headStep (Device.startLaunch s.dev q a false) q }
  | some (.ok _) => .next s

/-- One turn of a TAPE-RUN (R399): it is finished when the tape is empty; else TTOP falls and the record above it runs. -/
def Device.tapeTurn (d : Device) (q : Nat) : Device :=
  let x := Device.queue d q
  if x.ttop == 0 then Device.queuePut d q (Queue.finished x)
  else
    let top := x.ttop - 1
    let r := Device.queueRead d x (x.tbase + BitVec.ofNat 64 (8 * top)) 8
    let d := Device.queuePut d q { x with ttop := top, head := .tape none }
    match r with
    | .error _ => Device.queuePut d q { Device.queue d q with stat := 5, head := .none }
    | .ok bs =>
      let a := BitVec.ofNat 64 (ofLeBytes bs)
      if canonical a && a.toNat % 256 == 0 then Device.startLaunch d q a true
      else Device.queuePut d q { Device.queue d q with stat := 3, head := .none }

/-- TAPE_RUN (R380, R399): the head entry is a TAPE-RUN, or its launch has retired. -/
def execEvTapeRun (q : Nat) (s : State) : Res :=
  let x := Device.queue s.dev q
  if x.en && !x.susp && !Queue.halted x && x.head == .tape none then .next { s with dev := Device.tapeTurn s.dev q }
  else match Device.headEntry s.dev q with
    | some (.ok .tape) => .next { s with dev := Device.tapeTurn (Device.queuePut s.dev q { x with head := .tape none, stat := 1 }) q }
    | _ => .next s

/-- FRAME_MARK (R380, R400): resets USED of the queues of its mask. -/
def execEvFrameMark (q : Nat) (s : State) : Res :=
  match Device.headEntry s.dev q with
  | some (.ok (.mark m)) =>
    let d := (lanesOf m).foldl (fun d i => Device.queuePut d i { Device.queue d i with used := 0 }) s.dev
    .next { s with dev := Device.queuePut d q (Queue.finished (Device.queue d q)) }
  | _ => .next s

/-- LAUNCH_CONDITIONS_HOLD (R386): condition i of the head launch is read at its point of coherence; once it holds it is not read again. -/
def execEvLaunchConditionsHold (q i : Nat) (s : State) : Res :=
  let x := Device.queue s.dev q
  match Queue.headLaunch x with
  | none => .next s
  | some id =>
    let l := Device.launch s.dev id
    let c := if i == 0 then l.lrec.cond0 else l.lrec.cond1
    if !x.en || x.stat != 2 || (if i == 0 then l.c0 else l.c1) then .next s
    else match Device.queueRead s.dev x c.1 8 with
      | .error _ =>
        let d := Device.queuePut s.dev q { x with stat := 5, head := .none }
        .next { s with dev := { d with launches := Tbl.del d.launches id } }
      | .ok bs =>
        if ofLeBytes bs < c.2.toNat then .next s
        else
          let l := if i == 0 then { l with c0 := true } else { l with c1 := true }
          let d := Device.setLaunch s.dev id l
          .next { s with dev := Device.headStep (if l.c0 && l.c1 then Device.queuePut d q { x with stat := 1 } else d) q }

/-- The workgroups that stand on a core. -/
def Device.wgsOn (d : Device) (core : Nat) : List (Nat × Workgroup) := d.wgs.filter (fun e => e.2.core == core)

/-- How many waves are resident on a core (R389): those of its workgroups. -/
def Device.waveCount (d : Device) (core : Nat) : Nat := ((Device.wgsOn d core).map (fun e => e.2.waves.length)).sum

/-- Units in use on a core (R105, R389). -/
def Device.unitsUsed (d : Device) (core : Nat) : Nat :=
  ((Device.wgsOn d core).flatMap (fun e => e.2.waves.map (fun u => (Device.wave d u).quota))).sum

/-- Switches banks of a core's slice to scratchpad mode (R176, R177). -/
def Device.banksToSpad (d : Device) (core : Nat) (js : List Nat) : Device :=
  if js.isEmpty then d
  else
    let cl := core / 8
    let d := Device.l1Clear d cl everyLine
    let c := Device.cluster d cl
    Device.setCluster d cl { c with banks := js.foldl (fun b j => putAt b (core % 8 * 8 + j) .spad .cache) c.banks }

/-- The banks that placement switches for a run of n blocks, from bank 7 downward (R177): none when no run is found. -/
def Device.spadPlan (d : Device) (core n : Nat) : Option (List Nat) :=
  let c := Device.cluster d (core / 8)
  let cache := [7, 6, 5, 4, 3, 2, 1, 0].filter (fun j => Cluster.modeOf c (core % 8 * 8 + j) == .cache)
  if n == 0 then some []
  else ((List.range (cache.length + 1)).map (fun k => cache.take k)).find? (fun js => (Device.findRun (Device.banksToSpad d core js) core n).isSome)

/-- Blocks that SPAD bytes take. -/
def LRec.blocks (r : LRec) : Nat := (r.spad + 4095) / 4096

/-- Is a core's cluster drained for a gang other than the one named (R391): q for a queue's head gang, 64 + g for gang g of the restore list. -/
def Device.drainedFor (d : Device) (cl who : Nat) : Bool :=
  d.queues.any (fun e => e.1 != who && (match e.2.drain with | some k => k / 8 == cl | none => false))
  || d.gangs.any (fun e => 64 + e.1 != who && (match e.2.drain with | some k => k / 8 == cl | none => false))

/-- Does a workgroup of a record fit a core (R389). -/
def Device.coreFits (d : Device) (r : LRec) (core : Nat) : Bool :=
  !(Device.core d core).fenced && Device.waveCount d core + r.waves ≤ 64 && Device.unitsUsed d core + r.waves * r.quota ≤ 65536
  && (Device.wgsOn d core).length < 16 && (Device.spadPlan d core r.blocks).isSome

/-- The lowest-numbered sharing group of a cluster with no member (R180). -/
def Device.freeGroup (d : Device) (cl : Nat) : Option Nat :=
  (List.range 8).find? (fun g => !d.wgs.any (fun e => e.2.core / 8 == cl && e.2.group == some g))

/-- The first cores of the aligned sets of a gang size in a cluster (R16). -/
def alignedSets (g : Nat) : List Nat :=
  if g == 1 then [0, 1, 2, 3, 4, 5, 6, 7] else if g == 2 then [0, 2, 4, 6] else if g ≤ 4 then [0, 4] else [0]

/-- Cores of a set. -/
def setCores (low g : Nat) : List Nat := (List.range g).map (fun i => low + i)

/-- The pairs that a set covers (R17). -/
def setPairs (low g : Nat) : List Nat :=
  ((List.range 4).filter (fun j => low % 8 ≤ 2 * j && 2 * j + 1 < low % 8 + g)).map (fun j => 4 * (low / 8) + j)

/-- Does no gang own a pair that a set covers (R17): a pair has one owner, so a set over an owned pair is not free (DESIGN CHOICE 65). -/
def Device.pairsFree (d : Device) (low g : Nat) : Bool := (setPairs low g).all (fun p => (Device.pairOwner d p).isNone)

/-- Does a record's gang fit a set (R389). -/
def Device.setFits (d : Device) (r : LRec) (low who : Nat) : Bool :=
  !Device.drainedFor d (low / 8) who && (setCores low r.gsize).all (fun k => Device.coreFits d r k)
  && (r.gsize == 1 || (Device.freeGroup d (low / 8)).isSome) && Device.pairsFree d low r.gsize

/-- The load of a set (R390). -/
def Device.load (d : Device) (low g : Nat) : Nat := ((setCores low g).map (fun k => Device.waveCount d k)).sum

/-- The set of least load, ties to the lower core (R390). -/
def Device.least (d : Device) (g : Nat) (sets : List Nat) : Option Nat :=
  sets.foldl (fun m k => match m with
    | none => some k
    | some x => if Device.load d k g < Device.load d x g then some k else some x) none

/-- All aligned sets of a gang size in the module, lower cores first. -/
def allSets (g : Nat) : List Nat := (List.range 32).flatMap (fun cl => (alignedSets g).map (fun k => 8 * cl + k))

/-- May a saved gang return to a cluster (R445): every workgroup to its core index, its blocks, rings and group free there. -/
def Device.savedFits (d : Device) (sv : Saved) (cl who : Nat) : Bool :=
  let r := (Device.launch d (Device.gang d sv.gang).launch).lrec
  let c := Device.cluster d cl
  let bankOk (want : BankMode) (b : Nat) : Bool :=
    Cluster.modeOf c b == want || (Cluster.modeOf c b == .cache) || (want == .ring && Cluster.modeOf c b == .spad && !Device.bankAllocated d cl b)
      || (want == .spad && Cluster.modeOf c b == .ring && !Cluster.bankBound c b)
  !Device.drainedFor d cl who && Device.pairsFree d (8 * cl + (Device.gang d sv.gang).low % 8) (Device.gang d sv.gang).size
  && sv.wgs.all (fun e =>
    let k := 8 * cl + e.2.core % 8
    let units := ((sv.waves.filter (fun w => e.2.waves.contains w.1)).map (fun w => w.2.quota)).sum
    !(Device.core d k).fenced && Device.waveCount d k + r.waves ≤ 64 && Device.unitsUsed d k + units ≤ 65536 && (Device.wgsOn d k).length < 16
    && e.2.allocs.all (fun a => !(Device.allocs d cl).any (fun x => x.2.1 < a.base + 4096 * a.blocks && a.base < x.2.1 + x.2.2)
      && (List.range (a.base % 131072 / 4096 + a.blocks + 31)).all (fun i =>
        let b := a.base / 131072 + i / 32
        b * 131072 ≥ a.base + 4096 * a.blocks || bankOk .spad b))
    && (match e.2.group with
      | some g => !d.wgs.any (fun x => x.2.core / 8 == cl && x.2.group == some g)
      | none => true))
  && sv.rings.all (fun x => !Tbl.has c.rings x.1 && (List.range (x.2.cap * 2 ^ x.2.esz / 1024)).all (fun i =>
    let b := x.2.base / 131072 + i
    bankOk .ring b && !Cluster.bankBound c b && !Device.bankAllocated d cl b))

/-- The modes that a saved gang's allocations and rings need (R445). -/
def Device.savedBanks (d : Device) (sv : Saved) (cl : Nat) : Device :=
  let d := Device.l1Clear d cl everyLine
  let c := Device.cluster d cl
  let spad := (List.range 64).filter (fun b => sv.wgs.any (fun e => e.2.allocs.any (fun a => a.base < (b + 1) * 131072 && b * 131072 < a.base + 4096 * a.blocks)))
  let ring := (List.range 64).filter (fun b => sv.rings.any (fun x => x.2.base ≤ b * 131072 && b * 131072 < x.2.base + x.2.cap * (128 * 2 ^ x.2.esz)))
  Device.setCluster d cl { c with banks := ring.foldl (fun m b => putAt m b .ring .cache) (spad.foldl (fun m b => putAt m b .spad .cache) c.banks) }

/-- HELPER and EXITED of a starting wave (R394): the masks, helper first. -/
def startMasks (r : LRec) (wid : Nat) : Mask × Mask :=
  let n := r.nlast
  if n == 0 || wid + 1 != r.waves then (0, 0)
  else
    let q := (n - 1) / 4 * 4 + 4
    let h := maskOf (fun l => r.hq && n ≤ l && l < q)
    (h, maskOf (fun l => n ≤ l) &&& ~~~h)

/-- A wave as it starts (R393, R394, R428): `g` is the workgroup linear index. -/
def startWave (r : LRec) (core wg g : Nat) (gx gy gz index wid : Nat) (base : Option Nat) (clock : Nat) : Wave :=
  let (h, e) := startMasks r wid
  let n := BitVec.ofNat 64 (g * r.waves + wid)
  let x (k : Nat) : Word := BitVec.ofNat 32 k
  let vals : List Word := [lo32 r.argp, hi32 r.argp, x gx, x gy, x gz, x index, x wid, match base with | some a => x a | none => 0xFFFFFFFF] ++ r.user
  { Wave.blank with
    wg := wg, wid := wid, core := core, since := clock, pcs := List.replicate 64 r.entry, helper := h, exited := e, exited0 := e, helper0 := h,
    scal := (((List.range 38).zip vals).map (fun p => (p.1, (⟨p.2, false⟩ : Elem)))).filter (fun p => p.2.v != 0),
    quota := r.quota, wlim := r.wlim, wdog := r.wdog, wsp := r.spbase + BitVec.ofNat 64 r.spstr * n,
    tbas := r.tbas, tfrm := r.tfrb + 16384 * n }

/-- Starts the binding operations that a launch asks for (R395): performed by the engines, uncounted, held for by R82. -/
def Device.startBinds (d : Device) (u : Nat) : Device :=
  let w := Device.wave d u
  let lid := Device.launchIdOf d w
  let r := (Device.launch d lid).lrec
  let bind (d : Device) (kind : EngKind) (cls n k : Nat) : Device :=
    let w := Device.wave d u
    let op : EngOp :=
      { EngOp.blank with id := d.uid, wave := u, wg := w.wg, core := w.core, launch := lid, asid := Device.asidOf d w, kind := kind, cls := cls,
                         scal := [(Wave.sc w n).v, (Wave.sc w (n + 1)).v], ctl := 1, dests := [.bind k] }
    Device.setWave { d with uid := d.uid + 1, ops := d.ops ++ [op] } u (Wave.addOut w ⟨op.id, 8, false, [.bind k], []⟩)
  let d := if r.hash then bind d .vbind 4 8 0 else d
  if r.trav then bind (bind d .tlayout 5 10 1) .tcode 5 12 2 else d

/-- Places a workgroup with its waves (R393, R181, R177), on the lowest free resident slots of its core. -/
def Device.placeWg (d : Device) (gid index core : Nat) (group : Option Nat) : Device :=
  let g := Device.gang d gid
  let r := (Device.launch d g.launch).lrec
  let id := d.uid
  let us := (List.range r.waves).map (fun i => id + 1 + i)
  let auto := (Device.spadPlan d core r.blocks).getD []
  let d := Device.banksToSpad { d with uid := d.uid + 1 + r.waves } core auto
  let d := Device.setWg d id
    { Workgroup.blank with gang := gid, index := index, core := core, waves := us, group := group, autoBanks := auto.map (fun j => core % 8 * 8 + j) }
  let d := Device.setGang d gid { g with wgs := g.wgs ++ [id] }
  let (d, base) := if r.blocks == 0 then (d, none) else Device.allocate d id r.blocks
  let lin := (g.gx + r.gx * (g.gy + r.gy * g.gz)) * r.gsize + index
  let d := (List.range r.waves).foldl (fun d i => Device.setWave d (id + 1 + i)
    { startWave r core id lin g.gx g.gy g.gz index i base (Device.now d core) with rslot := Device.freeRslot d core, born := id }) d
  us.foldl Device.startBinds (Device.coreTakes d core g.launch)

/-- Places the next gang of a queue's head launch on a set (R390, R180, R277, R17): every member in one step. -/
def Device.placeGang (d : Device) (q low : Nat) : Device :=
  match Queue.headLaunch (Device.queue d q) with
  | none => d
  | some lid =>
    let l := Device.launch d lid
    let r := l.lrec
    let i := l.next
    let gid := d.uid
    let group := if r.gsize == 1 then none else Device.freeGroup d (low / 8)
    let gang : Gang :=
      { Gang.blank with launch := lid, gx := i % r.gx, gy := i / r.gx % r.gy, gz := i / (r.gx * r.gy), size := r.gsize, low := low, autoGroup := group,
                        order := d.clock }
    let d := Device.setGang { d with uid := d.uid + 1, clock := d.clock + 1 } gid gang
    let d := Device.setLaunch d lid { l with next := i + 1, live := l.live ++ [gid] }
    let d := (setPairs low r.gsize).foldl (fun d p => Device.setPair d p ((Device.pair d p).owned lid)) d
    let d := (List.range r.gsize).foldl (fun d k => Device.placeWg d gid k (low + k) group) d
    let d := Device.fenceAct d (low / 8) true false 4
    let x := Device.queue d q
    Device.headStep (Device.queuePut d q { x with stat := 1, tries := 0, drain := none, seq := x.seq }) q

/-- A candidate of the distributor (R388). -/
inductive Cand where
  | head (q : Nat)
  | back (sv : Saved)
  deriving DecidableEq, Repr

/-- The record of a candidate's launch. -/
def Device.candRec (d : Device) : Cand → LRec
  | .head q => match Queue.headLaunch (Device.queue d q) with
    | some id => (Device.launch d id).lrec
    | none => LRec.blank
  | .back sv => (Device.launch d (Device.gang d sv.gang).launch).lrec

/-- The candidate's number for the drains of R391. -/
def Cand.who : Cand → Nat
  | .head q => q
  | .back sv => 64 + sv.gang

/-- Has a queue's head launch a gang to place (R388, R400): its conditions hold, the queue is enabled and neither halted, suspended nor out of its budget. -/
def Device.offers (d : Device) (q : Nat) : Bool :=
  let x := Device.queue d q
  match Queue.headLaunch x with
  | none => false
  | some id =>
    let l := Device.launch d id
    x.en && !x.susp && !Queue.halted x && !l.killed && l.c0 && l.c1 && l.next < l.lrec.gangs && !(bitOf x.ctl 1 && x.used.toNat ≥ x.budget.toNat)

/-- The candidates of a priority, in the order of R388: the restore list by age, then the queues after the one last served. -/
def Device.candidates (d : Device) (prio : Nat) : List Cand :=
  let back := (d.saved.filter (fun sv => !sv.off && (Device.candRec d (.back sv)).prio == prio)).map (fun sv => Cand.back sv)
  let from_ := d.served.getD prio 63 + 1
  let qs := (List.range 64).map (fun i => (from_ + i) % 64)
  back ++ (qs.filter (fun q => Device.offers d q && (Device.candRec d (.head q)).prio == prio)).map (fun q => Cand.head q)

/-- The distributor's choice (R388). -/
def Device.choose (d : Device) : Option Cand := [7, 6, 5, 4, 3, 2, 1, 0].findSome? (fun p => (Device.candidates d p).head?)

/-- The attempts and the drain of a candidate (R391). -/
def Device.attempts (d : Device) : Cand → Nat × Option Nat
  | .head q => ((Device.queue d q).tries, (Device.queue d q).drain)
  | .back sv => ((Device.gang d sv.gang).tries, (Device.gang d sv.gang).drain)

/-- Records the attempts and the drain of a candidate; `waits` shows state 6. -/
def Device.setAttempts (d : Device) (c : Cand) (tries : Nat) (drain : Option Nat) (waits : Bool) : Device :=
  match c with
  | .head q =>
    let x := Device.queue d q
    Device.queuePut d q { x with tries := tries, drain := drain, stat := if waits then 6 else x.stat }
  | .back sv => Device.setGang d sv.gang { Device.gang d sv.gang with tries := tries, drain := drain }

/-- A device without some gangs: what placement finds once they are saved (R392). -/
def Device.without (d : Device) (gs : List Nat) : Device :=
  let wgs := d.wgs.filter (fun e => !gs.contains e.2.gang)
  let keep (w : Nat) : Bool := wgs.any (fun e => e.1 == w)
  { d with wgs := wgs, gangs := d.gangs.filter (fun e => !gs.contains e.1),
           clusters := d.clusters.map (fun c => (c.1, { c.2 with rings := c.2.rings.filter (fun r => keep r.2.owner) })) }

/-- Does a candidate fit its drained set (R392). -/
def Device.fitsAt (d : Device) (c : Cand) (low : Nat) : Bool :=
  match c with
  | .head _ => Device.setFits d (Device.candRec d c) low c.who
  | .back sv => Device.savedFits d sv (low / 8) c.who

/-- The gangs on a set that a waiting gang may pre-empt (R392): lower PRIO, lowest first, then the most recently placed. -/
def Device.victims (d : Device) (low g prio : Nat) : List Nat :=
  let on (x : Gang) : Bool := x.st == .placed && x.low < low + g && low < x.low + x.size && (Device.launch d x.launch).lrec.prio < prio
  let vs := d.gangs.filter (fun e => on e.2)
  (List.range prio).flatMap (fun p =>
    let same := vs.filter (fun e => (Device.launch d e.2.launch).lrec.prio == p)
    (sortBy (fun a b => b.2.order ≤ a.2.order) same).map (fun e => e.1))

/-- The set that a candidate goes to (R390, R391): the one drained for it as soon as that fits, else the fitting set of least load; none when none fits. A saved gang's set has the core indices it had (R445). -/
def Device.target (d : Device) (c : Cand) : Option Nat :=
  match ((Device.attempts d c).2).filter (Device.fitsAt d c) with
  | some low => some low
  | none =>
    match c with
    | .head _ =>
      let r := Device.candRec d c
      Device.least d r.gsize ((allSets r.gsize).filter (fun k => Device.setFits d r k c.who))
    | .back sv =>
      let g := Device.gang d sv.gang
      Device.least d g.size (((List.range 32).filter (fun cl => Device.savedFits d sv cl c.who)).map (fun cl => 8 * cl + g.low % 8))

/-- Reads the BUDGET of the enabled background queues, which software may write at any time (R379, R400). -/
def Device.readBudgets (d : Device) : Device :=
  let now (q : Nat) (x : Queue) : Queue :=
    if x.en && bitOf x.ctl 1 then (match Device.read8 d (d.sys.qtb.toNat + 64 * q + 0x30) with
      | some v => { x with budget := BitVec.ofNat 64 v }
      | none => x)
    else x
  { d with queues := d.queues.map (fun e => (e.1, now e.1 e.2)) }

/-- Pre-empts victims in order until the waiting gang would fit (R392): whether any was started. -/
def Device.preemptFor (d : Device) (c : Cand) (low : Nat) (gone : List Nat) (started : Bool) : List Nat → Device × Bool
  | [] => (d, started)
  | v :: r =>
    if Device.fitsAt (Device.without d gone) c low then (d, started)
    else if Device.canPreempt d v then Device.preemptFor (Device.preemptGang d v) c low (v :: gone) true r
    else (d, started)

/-- PLACE_GANG (R388 to R393, R445): the distributor chooses a gang and places it, counts a failed attempt, or pre-empts for it. -/
def execEvPlaceGang (s : State) : Res :=
  let d := Device.readBudgets s.dev
  match Device.choose d with
  | none => .next s
  | some c =>
    let r := Device.candRec d c
    let d := match c with
      | .head q => { d with served := putAt d.served r.prio q 63 }
      | .back _ => d
    match Device.target d c with
    | some low =>
      match c with
      | .head q => .next { s with dev := Device.placeGang d q low }
      | .back sv => .next { s with dev := Device.restoreGang (Device.savedBanks { d with clock := d.clock + 1 } sv (low / 8)) sv (low / 8) }
    | none =>
      let (n, dr) := Device.attempts d c
      match dr with
      | none => .next { s with dev := Device.setAttempts d c (n + 1) none false }
      | some low =>
        let saving := (d.gangs.filter (fun e => e.2.st == .saving && e.2.low / 8 == low / 8)).map (fun e => e.1)
        let g := match c with
          | .head _ => r.gsize
          | .back sv => (Device.gang d sv.gang).size
        let (d, any) := Device.preemptFor d c low saving false (Device.victims d low g r.prio)
        .next { s with dev := Device.setAttempts d c (n + 1) dr (!any && saving.isEmpty) }

/-- The set whose cluster is drained for a candidate (R391): its least-loaded aligned set that is not fenced, in a cluster not drained for another. -/
def Device.drainSet (d : Device) (c : Cand) : Option Nat :=
  let r := Device.candRec d c
  let ok (k g : Nat) : Bool := !Device.drainedFor d (k / 8) c.who && (setCores k g).all (fun x => !(Device.core d x).fenced)
  match c with
  | .head _ => Device.least d r.gsize ((allSets r.gsize).filter (fun k => ok k r.gsize))
  | .back sv =>
    let g := Device.gang d sv.gang
    Device.least d g.size (((List.range 32).map (fun cl => 8 * cl + g.low % 8)).filter (fun k => ok k g.size))

/-- CLUSTER_DRAIN (R391): after 64 attempts a cluster is drained for the head gang of queue q, or for gang q - 64 of the restore list. -/
def execEvClusterDrain (q : Nat) (s : State) : Res :=
  let d := Device.readBudgets s.dev
  let c : Option Cand := if q < 64 then (if Device.offers d q then some (.head q) else none)
    else (d.saved.find? (fun sv => sv.gang == q - 64)).map (fun sv => Cand.back sv)
  match c with
  | none => .next s
  | some c =>
    let (n, dr) := Device.attempts d c
    if n < 64 || dr.isSome then .next s
    else match Device.drainSet d c with
      | none => .next s
      | some k => .next { s with dev := Device.setAttempts d c n (some k) false }

/-- The oldest pending launch of a wave, live or retired (R397). -/
def Device.firstLaunch (d : Device) (u : Nat) : Option PLaunch :=
  match Tbl.get? d.waves u with
  | some w => w.launches.head?
  | none => (d.orphans.find? (fun e => e.1 == u)).map (fun e => e.2)

/-- Removes the first pending launch of a retired wave. -/
def orphanDrop (u : Nat) : List (Nat × PLaunch) → List (Nat × PLaunch)
  | [] => []
  | e :: r => if e.1 == u then r else e :: orphanDrop u r

/-- Takes a wave's oldest pending launch out. -/
def Device.dropLaunch (d : Device) (u : Nat) : Device :=
  match Tbl.get? d.waves u with
  | some w => Device.setWave d u { w with launches := w.launches.drop 1 }
  | none => { d with orphans := orphanDrop u d.orphans }

/-- PENDING_LAUNCH_APPEND (R397): a wave's oldest pending launch enters its ring; it waits while the ring is full or the queue does not run; a fault on the write halts the queue. -/
def execEvPendingLaunchAppend (wave : Nat) (s : State) : Res :=
  let d := s.dev
  match Device.firstLaunch d wave with
  | none => .next s
  | some p =>
    let x := Device.queue d p.queue
    if !x.en || Queue.halted x || (x.wr - x.rd).toNat ≥ Queue.cap x then .next s
    else
      let a := x.rbase + BitVec.ofNat 64 (16 * (x.wr.toNat % Queue.cap x))
      match Device.vwrite d ((dieAgent 0).workFor (Device.launchOf d (Device.wave d wave)).lnch) x.asid false a (leBytes 8 1 ++ leBytes 8 p.record.toNat) with
      | .error _ => .next { s with dev := Device.haltQueue d p.queue 5 }
      | .ok d =>
        let x := Device.queue d p.queue
        let x := { x with wr := x.wr + 1, stat := if x.stat == 0 then 1 else x.stat, depths := x.depths ++ [(x.wr.toNat, p.depth)] }
        .next { s with dev := Device.dropLaunch (Device.queuePut d p.queue x) wave }

/-- BACKGROUND_BUDGET_REACHED (R400): USED has reached BUDGET; the queue places no gang while that holds, which `Device.offers` tests. Nothing else changes. -/
def execEvBackgroundBudgetReached (_ : Nat) (s : State) : Res := .next s

/-- Is a wave fit to have one of its keys issue: some live lane that does not wait and is not blocked. -/
def Wave.canRun (w : Wave) : Bool := !w.ended && (Wave.live w &&& ~~~(Wave.waits w) &&& ~~~w.blocked) != 0

/-- Waves of the pending set that may be ready, oldest first, ties to the lower resident slot (R75): those that had an issuable key when last examined. -/
def Device.readyPending (d : Device) (core : Nat) : List Nat :=
  let ws := (Device.wavesOn d core).filter (fun e => e.2.active.isNone && Wave.canRun e.2 && e.2.stalls.contains .ready && !e.2.preempt)
  let before (a b : Wave) : Bool := a.since < b.since || (a.since == b.since && a.rslot ≤ b.rslot)
  (sortBy (fun a b => before a.2 b.2) ws).map (fun e => e.1)

/-- The wave in an active slot (R75). -/
def Device.inSlot (d : Device) (core slot : Nat) : Option Nat :=
  ((Device.wavesOn d core).find? (fun e => e.2.active == some slot)).map (fun e => e.1)

/-- Puts a wave in an active slot; it takes part from the turn after the next (R75, R77). -/
def Device.activate (d : Device) (u slot : Nat) : Device :=
  Device.setWave d u { Device.wave d u with active := some slot, fresh := true }

/-- ACTIVE_SLOT_FILL (R75): the oldest ready pending wave fills an empty slot. -/
def execEvActiveSlotFill (core : Nat) (slot : Nat) (s : State) : Res :=
  match Device.inSlot s.dev core slot, Device.readyPending s.dev core with
  | none, u :: _ => if slot < 8 then .next { s with dev := Device.activate s.dev u slot } else .next s
  | _, _ => .next s

/-- Is a stall long (R76). -/
def Stall.isLong : Stall → Bool
  | .long => true
  | .barrier _ _ => true
  | .frame _ => true
  | _ => false

/-- Swaps the wave of a slot with the oldest ready pending wave; the wave swapped out enters the pending set in this cycle (R75, R77). -/
def Device.swapOut (d : Device) (u slot : Nat) : Device :=
  match Device.readyPending d (Device.wave d u).core with
  | [] => d
  | v :: _ =>
    let d := Device.setWave d u { Device.wave d u with active := none, since := Device.now d (Device.wave d u).core }
    Device.activate d v slot

/-- WAVE_SWAP (R77): an active wave that has no issuable key and a key held by a long stall gives its slot up, where a ready pending wave exists. -/
def execEvWaveSwap (core : Nat) (slot : Nat) (s : State) : Res :=
  match Device.inSlot s.dev core slot with
  | none => .next s
  | some u =>
    let st := (Device.wave s.dev u).stalls
    if st.any Stall.isLong && !st.contains .ready then .next { s with dev := Device.swapOut s.dev u slot } else .next s

/-- Have a workgroup's waves all ended. -/
def Device.allEnded (d : Device) (wg : Workgroup) : Bool := wg.waves.all (fun u => (Device.wave d u).ended)

/-- A wave as a successor restarts it (R94): its rays stand stopped (R360), its registers take no result of an operation numbered before `born`. -/
def Wave.restart (w : Wave) (e : DWord) (wdog : Word) (clock born : Nat) : Wave :=
  { Wave.blank with
    wg := w.wg, wid := w.wid, core := w.core, rslot := w.rslot, since := clock, born := born, pcs := List.replicate 64 e,
    exited := w.exited0, helper := w.helper0, exited0 := w.exited0, helper0 := w.helper0,
    scal := w.scal, flags := w.flags, wlim := w.wlim, wsp := w.wsp, quota := w.quota, wdog := wdog, fpm := w.fpm, fmt := w.fmt, shape := w.shape,
    tokw := w.tokw, scount := w.scount, tbas := w.tbas, tfrm := w.tfrm,
    trc := w.trc, trlm := w.trlm, tram := w.tram, trpc := w.trpc, trwb := w.trwb, trpa := w.trpa, trqn := 0, trnum := w.trnum,
    launches := w.launches, rays := w.rays,
    outs := (w.outs.filter (fun o => o.cls == 3 || o.cls == 6)).map (fun o => { o with dests := [] }) }

/-- SUCCESSOR_RESTART (R94): every wave of the workgroup has ended with a successor entry, and every operation of classes 0, 1, 2, 4, 5 and 7 has completed. -/
def execEvSuccessorRestart (wg : Nat) (s : State) : Res :=
  match Tbl.get? s.dev.wgs wg with
  | none => .next s
  | some x =>
    match x.succ with
    | .entry e =>
      let d := s.dev
      let busy := x.waves.any (fun u => (Device.wave d u).outs.any (fun o => !o.done && o.cls != 3 && o.cls != 6)
        || !(Device.wave d u).pend.isEmpty)
      if x.killed || !Device.allEnded d x || busy then .next s
      else
        let r := (Device.launch d (Device.gang d x.gang).launch).lrec
        let d := x.waves.foldl (fun d u => Device.setWave d u (Wave.restart (Device.wave d u) e r.wdog (Device.now d (Device.wave d u).core) d.uid)) d
        .next { s with dev := Device.setWg d wg { x with succ := .unset } }
    | _ => .next s

/-- Unbinds the rings of a workgroup that retires (R191): operations that name one and have not fired, queued or saved, fire without effect (R195). -/
def Device.unbindRings (d : Device) (wg : Nat) (cl : Nat) : Device :=
  let mine := (Device.cluster d cl).rings.filter (fun r => r.2.owner == wg)
  if mine.isEmpty then d
  else
    let names (o : EngOp) : Bool := o.core / 8 == cl && !o.fired && o.namesRing (mine.map (fun r => r.1))
    let off (o : EngOp) : EngOp := if names o then { o with void := true } else o
    let d := mine.foldl (fun d r => Device.unbindRing d cl r.1 r.2) d
    { d with cores := d.cores.map (fun e => (e.1, { e.2 with queue := e.2.queue.map off })),
             saved := d.saved.map (fun sv => { sv with queue := sv.queue.map off }) }

/-- Banks that placement switched return to cache mode when nothing of them is held (R177). -/
def Device.banksBack (d : Device) (cl : Nat) (bs : List Nat) : Device :=
  let c := Device.cluster d cl
  let free := bs.filter (fun b => !Device.bankAllocated d cl b && !Cluster.bankBound c b && c.banks.getD b .cache == .spad)
  Device.setCluster d cl { c with banks := free.foldl (fun m b => putAt m b .cache .cache) c.banks }

/-- Has another workgroup an access outstanding in a retiring one's allocations, or in its rings: one that is to fire without effect does not count (R182, R195). -/
def Device.retireUse (d : Device) (gid : Nat) : Bool :=
  let g := Device.wg d gid
  let cl := g.core / 8
  (Device.outstanding d).any (fun o => o.wg != gid && !o.void && o.core / 8 == cl && (o.meets g.ranges || (o.fired && o.namesRing (Device.ringsOf d cl gid))))

/-- Are the resources of a workgroup quiet (R182, R183, R402): no fill of its allocations runs, no line of them is absent, no other workgroup uses them. -/
def Device.quietWg (d : Device) (g : Nat) (wg : Workgroup) : Bool :=
  let cl := wg.core / 8
  let mine (a : Nat) : Bool := inAllocs [(g, wg)] a
  d.fills.all (fun f => f.cl != cl || !mine (128 * f.line)) && (Device.cluster d cl).absent.all (fun e => !mine (128 * e.1))
  && !Device.retireUse d g

/-- Has an operation of another workgroup that has fired taken entries of a retiring one's rings (R193, R195). -/
def Device.ringsUsed (d : Device) (gid : Nat) : Bool :=
  let cl := (Device.wg d gid).core / 8
  (Device.outstanding d).any (fun o => o.wg != gid && o.fired && !o.void && o.core / 8 == cl && o.namesRing (Device.ringsOf d cl gid))

/-- Has every operation of a workgroup's waves completed (R402 steps 1 and 2), with the records of their rays (R360), the steps of their programs (R423) and the release of their bindings (R324, R401). -/
def Device.workDone (d : Device) (wg : Workgroup) : Bool :=
  wg.waves.all (fun u => (Device.wave d u).outs.all (fun o => o.done) && (Device.wave d u).pend.isEmpty && !(Device.wave d u).rays.any (fun e => e.2.writing))
  && !(Device.engineOps d).any (fun o => wg.waves.contains o.wave) && !Device.pelMoving d wg.waves && !d.pins.any (fun r => wg.waves.contains r.wave)

/-- The gang retires with its last workgroup (R402): its pairs are cleared (R277). -/
def Device.gangRetire (d : Device) (gid : Nat) : Device :=
  let g := Device.gang d gid
  if d.wgs.any (fun e => e.2.gang == gid) then d
  else
    let d := (Device.gangPairs d gid).foldl (fun d p => Device.setPair d p (Pair.cleared (Device.pair d p))) d
    let l := Device.launch d g.launch
    { Device.setLaunch d g.launch { l with live := l.live.filter (fun x => x != gid) } with gangs := Tbl.del d.gangs gid }

/-- WORKGROUP_RETIRE (R401, R402): its last wave has ended and nothing of it is outstanding; its resources are released. Its rings are unbound first, which ends what waits on them (R191, R195); the rest waits until nothing uses it. What its waves have written or acquired leaves the cluster L1, so that the launch's completion covers it (R235, R247), a killed wave's stores as well (R404). -/
def execEvWorkgroupRetire (wg : Nat) (s : State) : Res :=
  match Tbl.get? s.dev.wgs wg with
  | none => .next s
  | some x =>
    let again := match x.succ with
      | .entry _ => !x.killed
      | _ => false
    if again || !Device.allEnded s.dev x || !Device.workDone s.dev x || Device.ringsUsed s.dev wg || (Device.gang s.dev x.gang).st == .saved then .next s
    else
      let cl := x.core / 8
      let d := Device.unbindRings s.dev wg cl
      if !Device.quietWg d wg x then .next { s with dev := d }
      else
        let d := Device.l1WriteBack d cl everyLine
        let left := x.waves.flatMap (fun u => (Device.wave d u).launches.map (fun p => (u, p)))
        let d := { d with wgs := Tbl.del d.wgs wg, waves := d.waves.filter (fun e => !x.waves.contains e.1), orphans := d.orphans ++ left }
        .next { s with dev := Device.gangRetire (Device.banksBack d cl x.autoBanks) x.gang }

/-- Records a launch's error in its queue (R379, R403). -/
def Device.countError (d : Device) (q : Nat) (lnch : Word) : Device :=
  let x := Device.queue d q
  Device.queuePut d q { x with errcnt := if x.errcnt == 0xFFFFFFFF then x.errcnt else x.errcnt + 1, lasterr := lnch }

/-- The message that signals a retired launch on each port whose link is up (R447). -/
def Device.signal (d : Device) (q : Nat) : Device :=
  { d with outbox := d.outbox ++ (([0, 1].filter (fun p => Device.portUp d p)).map (fun p => .msi p q)) }

/-- A launch retires (R225, R386, R403): its slots are discarded, its error is counted, its counter is incremented. -/
def Device.retireLaunch (d : Device) (id : Nat) (l : Launch) : Device :=
  let open_ := d.xslots.any (fun x => x.launch == id)
  let d := { d with xslots := d.xslots.filter (fun x => x.launch != id) }
  let err := l.err || open_
  let d := if err then Device.countError d l.queue l.lnch else d
  let d := if l.lrec.done.1 == 0 then d
    else match Device.dieAdd64 d ((dieAgent 0).workFor l.lnch) l.asid l.lrec.done.1 l.lrec.done.2.toNat with
      | .ok d => d
      | .error c =>
        let d := Device.logError d 11 0 3 c.toNat l.lrec.done.1 l.lnch 0
        if err then d else Device.countError d l.queue l.lnch
  let x := Device.queue d l.queue
  let d := if x.head == .tape (some id) then
      Device.queuePut d l.queue { x with head := .tape none, seq := (x.seq + 1) % 2 ^ 26 }
    else d
  Device.signal { d with launches := Tbl.del d.launches id } l.queue

/-- Does a queue still process a launch as its head entry (R382): not one that it has halted at, and that was killed. -/
def Queue.atHead (x : Queue) (launch : Nat) : Bool := x.head == .launch launch && !Queue.halted x

/-- LAUNCH_RETIRE (R403): every gang has been placed and has retired, and the bindings of its waves are released (R401). -/
def execEvLaunchRetire (launch : Nat) (s : State) : Res :=
  match Tbl.get? s.dev.launches launch with
  | none => .next s
  | some l =>
    if l.allPlaced && l.live.isEmpty && !Queue.atHead (Device.queue s.dev l.queue) launch && !s.dev.pins.any (fun r => r.lnch == l.lnch) then
      .next { s with dev := Device.retireLaunch s.dev launch l }
    else .next s

/-- A saved gang of a killed launch is dropped (R404): its slots are free, its engine work is dropped, its bindings are released, its pending launches run on. -/
def Device.dropSaved (d : Device) (sv : Saved) : Device :=
  let x := Device.die d sv.die
  let d := Device.setDie d sv.die { x with svused := sv.slots.foldl (fun s e => NSet.rem s e.2) x.svused }
  let d := (sv.queue ++ sv.ops).foldl Device.dropWork d
  let g := Device.gang d sv.gang
  let l := Device.launch d g.launch
  let rel := sv.waves.filterMap (fun w => w.2.vbind.map (fun b => (⟨b.header, b.ver, l.asid, w.2.core, w.1, d.uid, l.lnch⟩ : Release)))
  let d := Device.setLaunch d g.launch { l with live := l.live.filter (fun y => y != sv.gang), err := true }
  { d with saved := d.saved.filter (fun y => y.gang != sv.gang), gangs := Tbl.del d.gangs sv.gang, pins := d.pins ++ rel,
           orphans := d.orphans ++ sv.waves.flatMap (fun w => w.2.launches.map (fun p => (w.1, p))) }

/-- Kills a launch (R404): its workgroups are killed, its saved gangs dropped, its unplaced gangs never placed; its error bit is set. -/
def Device.killLaunch (d : Device) (id : Nat) : Device :=
  match Tbl.get? d.launches id with
  | none => d
  | some l =>
    let d := Device.setLaunch d id { l with err := true, killed := true }
    let gs := (d.wgs.filter (fun e => (Device.gang d e.2.gang).launch == id)).map (fun e => e.1)
    let d := gs.foldl Device.killWg d
    let f : Nat × Gang → Nat × Gang := fun e =>
      if e.2.launch == id && e.2.st == .saving then (e.1, { e.2 with st := .placed }) else e
    let d : Device := { d with gangs := d.gangs.map f }
    let gone : List Saved := d.saved.filter (fun sv => (Device.gang d sv.gang).launch == id)
    let d : Device := gone.foldl Device.dropSaved d
    Device.headStep d l.queue

end Sys2Proof.Machine
end

