-- ==== Sys2Proof/Machine/Host.lean ====
section
/-! DEFINITION. Device-register writes, queue control, keys, host ports and peers (R447 to R452), the management port, reset and bring-up, RESYNC, boot and attestation (R453 to R456), the splinter unit (R204), instruction-cache fills (R248). -/

namespace Sys2Proof.Machine

/-- Records a refused write (R452 TYPE 3): a register offset or a queue. -/
def Device.refuse (d : Device) (die src detail : Nat) : Device := Device.logError d 3 die (srcByte src) detail 0 (srcLnch src) 0

/-- Changes the system block. -/
def Device.setSys (d : Device) (f : SysBlock → SysBlock) : Device := { d with sys := f d.sys }

/-- May a source write a register marked C (R448): the management port, or a port whose HCFG bit is 1. -/
def Device.mayConfigure (d : Device) (src : Nat) : Bool := src == 2 || (src < 2 && bitOf d.sys.hcfg.toNat src)

/-- A write of an 8-byte register whose bits `zero` must be 0, where the source has the right: else it is ignored and recorded (R448). -/
def Device.regPut (d : Device) (die off src : Nat) (ok : Bool) (f : Device → Device) : Device :=
  if ok then f d else Device.refuse d die src off

/-- A physical address of a register, in place 0x0, with its low bits zero (R448). -/
def baseOk (v : DWord) (low : Nat) : Bool := v.toNat < 2 ^ 48 && v.toNat % 2 ^ low == 0

/-- Does a source control a queue: records the refusal in RES and in the error ring otherwise (R448, R449). -/
def Device.qcmd (d : Device) (q src : Nat) (f : Device → Device) : Device :=
  if q ≥ 64 then d
  else if Device.admits d q src then f d
  else Device.refuse (Device.setQueue d q { Device.queue d q with res := 1 }) 0 src (0x100 + 8 * q)

/-- Sets RES of a queue (R449). -/
def Device.setRes (d : Device) (q r : Nat) : Device := Device.setQueue d q { Device.queue d q with res := r }

/-- Is a queue descriptor acceptable (R379, R449): no reserved value, bases aligned and canonical, the owner that QOWN names. -/
def qdescOk (bs : List Byte) (owner : Nat) : Bool :=
  let f := fieldAt bs
  let rbase := BitVec.ofNat 64 (f 0 8)
  let tbase := BitVec.ofNat 64 (f 0x18 8)
  canonical rbase && rbase.toNat % 4096 == 0 && canonical tbase && tbase.toNat % 4096 == 0
  && 4 ≤ f 8 1 && f 8 1 ≤ 16 && f 9 1 < 16 && f 0xA 2 < 4096 && f 0x20 4 ≤ 4096 && f 9 1 / 4 == owner

/-- A head launch that software has moved past by rewriting RD: its unplaced gangs are never placed, and its error bit is set. -/
def Device.abandonHead (d : Device) (x : Queue) : Device :=
  match Queue.headLaunch x with
  | none => d
  | some id =>
    match Tbl.get? d.launches id with
    | some l => Device.setLaunch d id { l with killed := true, err := true }
    | none => d

/-- STAT of a queue as it is enabled (R382). -/
def Device.enableStat (d : Device) (x : Queue) : Nat :=
  match Queue.headLaunch x with
  | some id => if (Device.launch d id).c0 && (Device.launch d id).c1 then 1 else 2
  | none => if x.rd == x.wr && x.head == .none then 0 else 1

/-- Enables a queue (R379, R449). A halted queue that still stands at its entry goes on with its head launch, or finishes it where the launch has been killed meanwhile (DEDUCED 40). -/
def Device.queueEnable (d : Device) (q src : Nat) : Device :=
  let x := Device.queue d q
  let a := d.sys.qtb.toNat + 64 * q
  let bs := Device.plain d a 64
  if d.sys.bootst != 6 then Device.refuse d 0 src (0x100 + 8 * q)
  else if Device.memBad d a 64 || !qdescOk bs (Device.qowner d q) then
    Device.logError (Device.setQueue d q { x with en := false, res := 2 }) 2 0 (srcByte src) q (BitVec.ofNat 64 a) (srcLnch src) 0
  else
    let f := fieldAt bs
    let rd := BitVec.ofNat 32 (f 0x10 4)
    let keep := rd == x.rd && x.head != .none
    let left := !keep && (Queue.headLaunch x).isSome
    let d := if keep then d else Device.abandonHead d x
    let y : Queue :=
      { x with en := true, susp := false, res := 0, rbase := BitVec.ofNat 64 (f 0 8), rsz := f 8 1, ctl := f 9 1, asid := f 0xA 2,
               wr := BitVec.ofNat 32 (f 0xC 4), rd := rd, stat := f 0x14 4, tbase := BitVec.ofNat 64 (f 0x18 8), ttop := f 0x20 4,
               errcnt := BitVec.ofNat 32 (f 0x24 4), lasterr := BitVec.ofNat 32 (f 0x28 4), budget := BitVec.ofNat 64 (f 0x30 8),
               used := BitVec.ofNat 64 (f 0x38 8), seq := if !x.en then 0 else if left then (x.seq + 1) % 2 ^ 26 else x.seq, head := if keep then x.head else .none,
               depths := [] }
    let d := Device.setQueue d q y
    let d := Device.queuePut d q { y with stat := Device.enableStat d y }
    let f : Saved → Saved := fun sv => if (Device.launch d (Device.gang d sv.gang).launch).queue == q then { sv with off := false } else sv
    Device.headStep { d with saved := d.saved.map f } q

/-- Disables a queue (R449). -/
def Device.queueDisable (d : Device) (q : Nat) : Device := Device.setQueue d q { Device.queue d q with en := false, res := 0 }

/-- The placed gangs of a queue's launches. -/
def Device.queueGangs (d : Device) (q : Nat) : List Nat :=
  (d.gangs.filter (fun e => e.2.st == .placed && (Device.launch d e.2.launch).queue == q)).map (fun e => e.1)

/-- The members of a list of gangs on a die. -/
def Device.membersOn (d : Device) (gs : List Nat) (die : Nat) : Nat :=
  ((gs.filter (fun g => (Device.gang d g).low / 64 == die)).map (fun g => (Device.gangWgs d g).length)).sum

/-- Suspends a queue (R440, R449): every placed gang is pre-empted, or RES 3 where a die has too few save slots. -/
def Device.queueSuspend (d : Device) (q : Nat) : Device :=
  let gs := Device.queueGangs d q
  if [0, 1, 2, 3].all (fun die => Device.membersOn d gs die + Device.claimed d die ≤ (Device.freeSlots d die).length) then
    let d := gs.foldl Device.preemptGang d
    let d := { d with saved := d.saved.map (fun sv =>
      if (Device.launch d (Device.gang d sv.gang).launch).queue == q then { sv with off := true } else sv) }
    Device.setQueue d q { Device.queue d q with susp := true, res := 0 }
  else Device.setRes d q 3

/-- Kills the launches of a queue that have reached the head, then disables it (R449). -/
def Device.queueKill (d : Device) (q : Nat) : Device :=
  let ids := (d.launches.filter (fun e => e.2.queue == q)).map (fun e => e.1)
  Device.queueDisable (ids.foldl Device.killLaunch d) q

/-- QCMD_ENABLE (R449). -/
def execEvQcmdEnable (q src : Nat) (s : State) : Res := .next (State.mapDev s (fun d => Device.qcmd d q src (fun d => Device.queueEnable d q src)))

/-- QCMD_DISABLE (R449). -/
def execEvQcmdDisable (q src : Nat) (s : State) : Res := .next (State.mapDev s (fun d => Device.qcmd d q src (fun d => Device.queueDisable d q)))

/-- QCMD_SUSPEND (R449). -/
def execEvQcmdSuspend (q src : Nat) (s : State) : Res := .next (State.mapDev s (fun d => Device.qcmd d q src (fun d => Device.queueSuspend d q)))

/-- QCMD_KILL (R449). -/
def execEvQcmdKill (q src : Nat) (s : State) : Res := .next (State.mapDev s (fun d => Device.qcmd d q src (fun d => Device.queueKill d q)))

/-- A write of QCMD(q) (R449): a bad OP is rejected with RES 4, a non-zero bit 63:3 is ignored; both are recorded. -/
def Device.qcmdWrite (d : Device) (q src : Nat) (v : DWord) : Device :=
  Device.qcmd d q src (fun d =>
    if v.toNat ≥ 8 then Device.refuse d 0 src (0x100 + 8 * q)
    else match v.toNat with
      | 1 => Device.queueEnable d q src
      | 2 => Device.queueDisable d q
      | 3 => Device.queueSuspend d q
      | 4 => Device.queueKill d q
      | _ => Device.refuse (Device.setRes d q 4) 0 src (0x100 + 8 * q))

/-- Kills the launch that LNCH names (R404, R448): one whose queue, bits 31:26, QOWN does not open to the source is refused; one not in flight is recorded (TYPE 10). -/
def Device.killByName (d : Device) (lnch : Word) (src : Nat) : Device :=
  if !Device.admits d (lnch.toNat / 2 ^ 26) src then Device.refuse d 0 src 0x040
  else match d.launches.find? (fun e => e.2.lnch == lnch) with
    | none => Device.logError d 10 0 (srcByte src) lnch.toNat 0 lnch 0
    | some e => Device.killLaunch d e.1

/-- KILLL (R404, R448). -/
def execEvKilll (lnch : BitVec 32) (src : Nat) (s : State) : Res := .next (State.mapDev s (fun d => Device.killByName d lnch src))

/-- A write of KEYCMD (R451): with GO = 1 KEYBUF becomes the material of the index and then reads as zero. -/
def Device.keyWrite (d : Device) (die : Nat) (v : DWord) (src : Nat) : Device :=
  let k := v.toNat % 16
  Device.regPut d die 0x440 src (Device.mayConfigure d src && bitsOf v.toNat 62 4 == 0 && k != 0) (fun d =>
    Device.setSys d (fun x =>
      if bitOf v.toNat 63 then
        { x with keycmd := v, keys := Tbl.put x.keys k x.keybuf, keybuf := List.replicate 8 0,
                 keyMats := if x.keyMats.contains x.keybuf then x.keyMats else x.keyMats ++ [x.keybuf] }
      else { x with keycmd := v }))

/-- KEY_LOAD (R451). -/
def execEvKeyLoad (v : BitVec 64) (src : Nat) (s : State) : Res := .next (State.mapDev s (fun d => Device.keyWrite d 0 v src))

/-- A write of MODNUM (R448): accepted while BOOTST is 2 to 5. -/
def Device.modnumWrite (d : Device) (die : Nat) (v : DWord) (src : Nat) : Device :=
  Device.regPut d die 0x058 src (src == 2 && v.toNat < 256 && 2 ≤ d.sys.bootst && d.sys.bootst ≤ 5)
    (fun d => Device.setSys d (fun x => { x with modnum := v.toNat, modSet := true }))

/-- PEERACC after a write of its register i. -/
def peerPut (m : BitVec 256) (i : Nat) (v : DWord) : BitVec 256 :=
  let at_ := 2 ^ (64 * i)
  BitVec.ofNat 256 (m.toNat % at_ + v.toNat * at_ + m.toNat / (at_ * 2 ^ 64) * (at_ * 2 ^ 64))

/-- An 8-byte write of the system block (R448). Unlisted offsets ignore it. -/
def Device.sysWrite (d : Device) (die off : Nat) (v : DWord) (src : Nat) : Device :=
  let c := Device.mayConfigure d src
  let put (ok : Bool) (f : SysBlock → SysBlock) : Device := Device.regPut d die off src ok (fun d => Device.setSys d f)
  if off == 0x008 then put (c && baseOk v 18) (fun x => { x with astb := v })
  else if off == 0x010 then put (c && baseOk v 12) (fun x => { x with qtb := v })
  else if off == 0x018 then put (src == 2 && v.toNat < 4) (fun x => { x with hcfg := v })
  else if off == 0x020 || off == 0x028 then put (src == 2) (fun x => { x with qown := putAt x.qown ((off - 0x020) / 8) v 0 })
  else if off == 0x030 then
    put (c && v.toNat < 2 ^ 16 && v.toNat % 256 < 16 && v.toNat / 256 < 16) (fun x => { x with winb := v })
  else if off == 0x040 then
    if v.toNat < 2 ^ 32 then Device.killByName d (lo32 v) src else Device.refuse d die src off
  else if off == 0x048 then put (c && baseOk v 12) (fun x => { x with errbase := v })
  else if off == 0x058 then Device.modnumWrite d die v src
  else if 0x060 ≤ off && off < 0x080 then put c (fun x => { x with peeracc := peerPut x.peeracc ((off - 0x060) / 8) v })
  else if 0x100 ≤ off && off < 0x300 then Device.qcmdWrite d ((off - 0x100) / 8) src v
  else if 0x400 ≤ off && off < 0x440 then put c (fun x => { x with keybuf := putAt x.keybuf ((off - 0x400) / 8) v 0 })
  else if off == 0x440 then Device.keyWrite d die v src
  else if off == 0x000 || off == 0x050 || off == 0x080 || off == 0x500 then Device.refuse d die src off
  else d

/-- Where a splinter's walk ends (R204): the entry's address and its value, or the code of SPLST. -/
def Device.splinterWalk (d : Device) (va want : Nat) : List (Nat × Nat × Nat) → Nat → Except Nat (Nat × Nat)
  | [], _ => .error 4
  | (level, sh, w) :: rest, table =>
    let a := table + 8 * (va / 2 ^ sh % 2 ^ w)
    if table / 2 ^ 40 != 0 then .error 4
    else match Device.read8 d a with
    | none => .error 5
    | some pte =>
      if !bitOf pte 0 || pteBad level pte then .error 4
      else if bitOf pte 1 then Device.splinterWalk d va want rest (pbits pte 51 8 * 256)
      else if level == want then .ok (a, pte)
      else .error 4

/-- Is the record of an address space valid and well formed (R198). -/
def Device.recordOk (d : Device) (asid : Nat) : Bool :=
  let r := Device.asRecord d asid
  match Device.read8 d r, Device.read8 d (r + 8), Device.read8 d (r + 16), Device.read8 d (r + 24) with
  | some root, some pool, some w2, some moff =>
    r / 2 ^ 40 == 0 && bitOf root 0 && pbits root 63 52 == 0 && pbits root 11 1 == 0 && placeOf root == 0 && pbits w2 46 40 == 0
    && pool % 4096 == 0 && moff % 65536 == 0
  | _, _, _, _ => false

/-- Steps 1 and 2 of a splinter (R204): the leaf is found and a block is taken; a leaf that the unit of another die is at work on will be a table, and this unit reports 4. -/
def Device.splintStart (d : Device) (va : DWord) (asid : Nat) (big : Bool) : Device × Splint :=
  let r := Device.asRecord d asid
  let taken (a : Nat) : Bool := d.dies.any (fun e => match e.2.splint with
    | some (.work b _ _) => a == b
    | _ => false)
  if !Device.recordOk d asid then (d, .fails 5)
  else
    let root := ofLeBytes (Device.plain d r 8)
    let walk := if canonical va then Device.splinterWalk d va.toNat (if big then 2 else 1) walkLevels (pbits root 51 12 * 4096) else .error 4
    match walk with
    | .error c => (d, .fails c)
    | .ok (a, pte) =>
      let n := ofLeBytes (Device.plain d (r + 16) 4)
      if taken a then (d, .fails 4)
      else if n == 0 then (d, .fails 3)
      else (Device.memWrite d (r + 16) (leBytes 4 (n - 1)), .work a pte (ofLeBytes (Device.plain d (r + 8) 8) + 4096 * (n - 1)))

/-- Starts a splinter, or sets SPLCMD (R204): ignored while one runs. -/
def Device.splinterWrite (d : Device) (die : Nat) (v : DWord) (src : Nat) : Device :=
  let x := Device.die d die
  if x.splst == 1 then d
  else if bitsOf v.toNat 62 17 != 0 || bitsOf v.toNat 15 12 != 0 then Device.refuse d die src 0x1008
  else if bitOf v.toNat 63 then
    let (d, w) := Device.splintStart d x.splva (v.toNat % 4096) (bitOf v.toNat 16)
    Device.setDie d die { Device.die d die with splcmd := v, splst := 1, splint := some w }
  else Device.setDie d die { x with splcmd := v }

/-- SPLINTER (R204): a write of SPLCMD with GO = 1. -/
def execEvSplinter (die : Nat) (v : BitVec 64) (s : State) : Res :=
  if bitOf v.toNat 63 then .next (State.mapDev s (fun d => Device.splinterWrite d die v 2)) else .next s

/-- A write of the save pool's registers (R440): ignored while a slot holds a workgroup, or with a zero bit set. -/
def Device.saveWrite (d : Device) (die off : Nat) (v : DWord) (src : Nat) : Device :=
  let x := Device.die d die
  let put (ok : Bool) (y : Die) : Device :=
    if ok && x.svused.isEmpty then Device.setDie d die y else Device.logError d 7 die (srcByte src) off 0 (srcLnch src) 0
  if off == 0x6000 then put (baseOk v 22) { x with svbase := v }
  else if off == 0x6008 then put (v.toNat ≤ 65536) { x with svcnt := v.toNat }
  else Device.refuse d die src off

/-- Is an offset one of a listed register outside the power block (R448). -/
def regListed (off : Nat) : Bool :=
  let o := off / 8 * 8
  (o ≤ 0x30) || (0x40 ≤ o && o ≤ 0x80) || (0x100 ≤ o && o < 0x300) || (0x400 ≤ o && o ≤ 0x440) || o == 0x500
  || (0x1000 ≤ o && o ≤ 0x1010) || (0x4000 ≤ o && o < 0x4200) || (0x5000 ≤ o && o ≤ 0x5010) || (0x6000 ≤ o && o ≤ 0x6010)

/-- The state that an event's meaning leaves; every one answers a next state. -/
def devOf (s : State) (r : Res) : Device :=
  match r with
  | .next t => t.dev
  | .fault _ => s.dev
  | .refused _ => s.dev

/-- A write of a device register (R448): 8 bytes, or a half of the power block's; any other 4-byte write of a register is ignored and recorded. -/
def State.regWrite (s : State) (die off size : Nat) (v : DWord) (src : Nat) : Device :=
  let d := s.dev
  if 0x3000 ≤ off && off < 0x3400 then Device.powerWrite d die off size v
  else if size != 8 then (if regListed off then Device.refuse d die src (off / 8 * 8) else d)
  else if off < 0x1000 then Device.sysWrite d die off v src
  else if off == 0x1000 then
    let x := Device.die d die
    if x.splst == 1 then d else Device.setDie d die { x with splva := v }
  else if off == 0x1008 then Device.splinterWrite d die v src
  else if off == 0x1010 || off == 0x5010 then Device.refuse d die src off
  else if 0x4000 ≤ off && off < 0x4200 then devOf s (execEvDoorbell ((off - 0x4000) / 8) v src s)
  else if off == 0x5000 then devOf s (execEvPstepWrite die v src s)
  else if off == 0x5008 then (if bitsOf v.toNat 62 16 != 0 then Device.refuse d die src off else devOf s (execEvPflush die v s))
  else if off == 0x6000 || off == 0x6008 || off == 0x6010 then Device.saveWrite d die off v src
  else d

/-- REGISTER_WRITE (R448). -/
def execEvRegisterWrite (die off size : Nat) (v : BitVec 64) (src : Nat) (s : State) : Res :=
  .next { s with dev := State.regWrite s die off size v src }

/-- A write by an agent outside the module (R249), where a copy may have written too (R270). -/
def Device.extWrite (d : Device) (pa : Nat) (bs : List Byte) : Device :=
  let (d, bs) := Device.mixed d 0 pa (fun i => Device.memByteT d 0 (pa + i)) bs
  Device.memWrite d pa bs

/-- An answer of an atomic access: width, device after it, old value (R216). -/
def Device.busAtom (d : Device) (pa op x y : Nat) : Device × Option (List Byte) :=
  let n := atomWidth op
  if pa % n != 0 || Device.memBad d pa n then (d, none)
  else
    let old := ofLeBytes ((List.range n).map (fun i => Device.memByte d 0 (pa + i)))
    let d := if atomWrites op old x then Device.extWrite d pa (leBytes n (atomNew op old x y)) else d
    (d, some (leBytes n old))

/-- An access to HBM by an agent outside the module, at the point of coherence (R249, R450): its answer, or none where it fails. -/
def Device.busAccess (d : Device) (pa : Nat) (codes : List Nat) (acc : BusAccess) : Device × Option (List Byte) :=
  match acc with
  | .rd n => if pa + n > 2 ^ 40 || Device.memBad d pa n then (d, none) else (d, some (Device.physRead d pa n))
  | .wr bs => if pa + bs.length > 2 ^ 40 then (d, none) else (Device.extWrite d pa bs, some [])
  | .atom op x y => if pa ≥ 2 ^ 40 || !codes.contains op then (d, none) else Device.busAtom d pa op x y

/-- The atomic codes that a PCI Express port carries (R216): FetchAdd, Swap and CAS of 32 and 64 bits. -/
def portCodes : List Nat := [0, 12, 8, 13, 9, 14]

/-- A host's access to the device registers through BAR 0 (R447): 4 or 8 bytes, aligned. -/
def Device.bar0 (d : Device) (port off : Nat) (acc : BusAccess) : Device × Option (List Byte) :=
  let die := off / 2 ^ 24
  let o := off % 2 ^ 24
  let ok (n : Nat) : Bool := die < 4 && (n == 4 || n == 8) && o % n == 0
  match acc with
  | .rd n => if ok n then (let (d, v) := Device.regRead d die o n; (d, some (leBytes n v))) else (d, none)
  | .wr bs =>
    if ok bs.length then ({ d with inbox := d.inbox ++ [⟨port, die, o, bs.length, BitVec.ofNat 64 (ofLeBytes bs)⟩] }, some []) else (d, none)
  | .atom _ _ _ => (d, none)

/-- WINB of a port (R448). -/
def Device.window (d : Device) (port : Nat) : Nat := bitsOf d.sys.winb.toNat (8 * port + 7) (8 * port)

/-- HOST_BAR_ACCESS (R447): through a port whose link is up; the answer goes out on the port. -/
def execEvHostBarAccess (port bar off : Nat) (acc : BusAccess) (s : State) : Res :=
  let d := s.dev
  if port ≥ 2 || !Device.portUp d port || d.sys.held then .next s
  else
    let (d, r) :=
      if bar == 0 then Device.bar0 d port off acc
      else if bar == 2 && off < 2 ^ 36 then Device.busAccess d (Device.window d port * 2 ^ 36 + off) portCodes acc
      else (d, none)
    .next { s with dev := { d with outbox := d.outbox ++ [.host port r] } }

/-- PEER_ACCESS (R450): module m reaches this module's HBM where PEERACC admits it and bring-up is over; it is refused otherwise. -/
def execEvPeerAccess (module addr : Nat) (acc : BusAccess) (s : State) : Res :=
  let d := s.dev
  let ok := bitOf d.sys.peeracc.toNat module && d.sys.bootst == 6 && d.sys.linkst.toNat % 65536 != 0 && d.reach.contains module
  let (d, r) := if ok then Device.busAccess d addr (List.range 16) acc else (d, none)
  .next { s with dev := { d with outbox := d.outbox ++ [.peer module r] } }

/-- LINK_STATE_CHANGE (R447, R448): LINKST follows the link. -/
def execEvLinkStateChange (host : Bool) (idx : Nat) (up : Bool) (s : State) : Res :=
  let bit := if host then 16 + idx else idx
  if (host && idx ≥ 2) || (!host && idx ≥ 16) then .next s
  else
    let v := s.dev.sys.linkst
    let m : DWord := 1#64 <<< bit
    .next (State.mapDev s (fun d => Device.setSys d (fun x => { x with linkst := if up then v ||| m else v &&& ~~~m })))

/-- CRC-16/CCITT (R453) of bytes: polynomial 0x1021, initial value 0xFFFF. -/
def crc16 (bs : List Byte) : Nat :=
  bs.foldl (fun c b => (List.range 8).foldl (fun c _ => if c ≥ 0x8000 then Nat.xor (2 * c % 65536) 0x1021 else 2 * c) (Nat.xor c (256 * b.toNat))) 0xFFFF

/-- A response frame (R453): the opcode with bit 7 set, the length, the status and the result, the CRC, low byte first as in a request (DESIGN CHOICE 43). -/
def respFrame (op status : Nat) (data : List Byte) : List Byte :=
  let body := [BitVec.ofNat 8 op ||| 0x80] ++ leBytes 2 (data.length + 1) ++ [BitVec.ofNat 8 status] ++ data
  body ++ leBytes 2 (crc16 body)

/-- Answers a management request (R453). -/
def Device.respond (d : Device) (op : Nat) (status : Nat) (data : List Byte) : Device :=
  { d with outbox := d.outbox ++ [.resp (respFrame op status data)] }

/-- Serves a request in the boot states of its row, and answers status 3 in any other (R453). -/
def State.serve (s : State) (op : Nat) (states : List Nat) (f : Device → Device) : Device :=
  if states.contains s.dev.sys.bootst then f s.dev else Device.respond s.dev op 3 []

/-- READ (R453): every boot state. -/
def Device.mgmtRead (d : Device) (die : BitVec 8) (off : Word) : Device :=
  let (d, v) := if die.toNat < 4 && off.toNat % 8 == 0 then Device.regRead d die.toNat off.toNat 8 else (d, 0)
  Device.respond d 1 0 (leBytes 8 v)

/-- May a management WRITE reach an offset in a boot state (R453). -/
def mgmtWriteOk (bootst off : Nat) : Bool :=
  bootst == 6 || (2 ≤ bootst && bootst ≤ 5 && (off == 0x018 || off == 0x020 || off == 0x028 || off == 0x058))

/-- WRITE (R453): as the management port's own write. -/
def State.mgmtWrite (s : State) (die : BitVec 8) (off : Word) (v : DWord) : Device :=
  if mgmtWriteOk s.dev.sys.bootst off.toNat then
    Device.respond (if die.toNat < 4 && off.toNat % 8 == 0 then State.regWrite s die.toNat off.toNat 8 v 2 else s.dev) 2 0 []
  else Device.respond s.dev 2 3 []

/-- The boot states that serve RESYNC and QUOTE (R453). -/
def liveStates : List Nat := [2, 3, 4, 5, 6, 0x82, 0x90]

/-- The fields of the RESYNC entry of a queue (R455). -/
def Device.resyncQueue (d : Device) (q : Nat) : List (List Byte) :=
  let x := Device.queue d q
  [leBytes 1 (x.stat % 16), leBytes 1 (Device.qowner d q), leBytes 1 (x.en.toNat + 2 * x.susp.toNat), leBytes 1 0,
   leBytes 4 x.rd.toNat, leBytes 4 x.wr.toNat, leBytes 4 x.errcnt.toNat]

/-- The last 16 error records, oldest first (R455); fewer than 16 are followed by zeros. -/
def Device.resyncErrors (d : Device) : List Byte :=
  let n := min d.sys.errwr 16
  let first := d.sys.errwr - n
  ((List.range n).flatMap (fun i => Device.physRead d (d.sys.errbase.toNat + 32 * ((first + i) % 128)) 32)) ++ zeros (32 * (16 - n))

/-- A measurement as bytes: bit 0 is bit 0 of the first byte. -/
def measBytes (m : BitVec 256) : List Byte := leBytes 32 m.toNat

/-- M0 to M7 as bytes. -/
def Device.measAll (d : Device) : List Byte := (List.range 8).flatMap (fun i => measBytes (d.sys.meas.getD i 0))

/-- The fields of the RESYNC snapshot in offset order (R455), as the device would give each now: 4,240 bytes. The error records are one field (DESIGN CHOICE 43). -/
def Device.resyncFields (d : Device) : List (List Byte) :=
  let dies := [0, 1, 2, 3]
  [leBytes 8 (Device.idReg d).toNat, leBytes 8 d.sys.bootst, leBytes 8 (d.sys.errwr % 2 ^ 32), leBytes 8 d.sys.linkst.toNat]
  ++ (List.range 64).flatMap (fun q => Device.resyncQueue d q)
  ++ [leBytes 4 d.launches.length, leBytes 4 (d.gangs.filter (fun e => e.2.st != .saved)).length,
      leBytes 4 (d.saved.filter (fun sv => !sv.off)).length, leBytes 4 (dies.map (fun i => Device.svFree d i)).sum]
  ++ [Device.resyncErrors d]
  ++ dies.flatMap (fun i => leBytes 8 (Power.pstat (Device.powerOf d i)).toNat :: (List.range 8).map (fun c => leBytes 8 (Device.clustat d i c).toNat))
  ++ dies.flatMap (fun i => (List.range 44).map (fun k => leBytes 8 ((Device.powerOf d i).islstat.getD k 0).toNat))
  ++ dies.flatMap (fun i => (List.range 44).flatMap (fun k =>
      let p := (Device.powerOf d i).plans.getD k Plan.reset
      [leBytes 2 p.rev, leBytes 2 p.replans]))
  ++ (List.range 8).map (fun i => measBytes (d.sys.meas.getD i 0))

/-- RESYNC begins (R455): none of its fields has been read. -/
def Device.resyncStart (d : Device) : Device := Device.setSys d (fun x => { x with resync := some (0, []) })

/-- A RESYNC reads its next field (R455); with the last one it answers. -/
def Device.resyncStep (d : Device) (n : Nat) (bs : List Byte) : Device :=
  let fs := Device.resyncFields d
  let bs := bs ++ fs.getD n []
  if n + 1 < fs.length then Device.setSys d (fun x => { x with resync := some (n + 1, bs) })
  else Device.respond (Device.setSys d (fun x => { x with resync := none })) 3 0 bs

/-- A quote body (R456): 304 bytes. -/
def Device.quoteBody (d : Device) (nonce : BitVec 256) : List Byte :=
  leBytes 8 (Device.idReg d).toNat ++ leBytes 1 d.sys.modnum ++ leBytes 1 d.sys.bootst ++ zeros 6 ++ Device.measAll d ++ leBytes 32 nonce.toNat

/-- QUOTE (R456): the body and its 384-byte signature. -/
def Device.mgmtQuote (d : Device) (nonce : BitVec 256) : Device :=
  let body := Device.quoteBody d nonce
  let sig := Config.sign body
  Device.respond d 4 0 (body ++ (List.range 384).map (fun i => sig.getD i 0))

/-- Measurement i extended by a digest (R456). -/
def Device.extend (d : Device) (i : Nat) (digest : List Byte) : Device :=
  Device.setSys d (fun x =>
    { x with meas := putAt x.meas i (BitVec.ofNat 256 (ofLeBytes (sha256 (measBytes (x.meas.getD i 0) ++ digest)))) 0 })

/-- EXTEND (R456): index 3 to 7. -/
def Device.mgmtExtend (d : Device) (i : Nat) (digest : BitVec 256) : Device :=
  if 3 ≤ i && i ≤ 7 then Device.respond (Device.extend d i (measBytes digest)) 9 0 [] else Device.respond d 9 2 []

/-- The module with every unit in its reset state; what lies outside it (other modules' and hosts' memory, its surroundings), the fuses, the requests that wait at its management port (DESIGN CHOICE 43), the tables of its firmware (DESIGN CHOICE 63) and, with `keep`, what HBM holds stays: what only an L2 held is lost (R11, R454). -/
def Device.restart (d : Device) (keep : Bool) : Device :=
  let out (pa : Nat) : Bool := placeOf pa ≥ 4 || (keep && placeOf pa == 0)
  let mem := (d.hbm.filter (fun e => placeOf e.1 == 0)).foldl (fun m e => Memory.write m e.1 e.2) d.mem
  { Device.reset with
    dies := d.dies.map (fun e => (e.1, { Die.reset with power := { Power.reset with plans := e.2.power.plans } })),
    mem := mem.filter (fun c => out c.1), memErr := d.memErr.filter (fun u => out (8 * u)), mkeys := d.mkeys.filter (fun e => out e.1),
    sys := { SysBlock.reset with keyMats := d.sys.keyMats, fuseKey := d.sys.fuseKey, fuseVer := d.sys.fuseVer, reqs := d.sys.reqs }, peers := d.peers, reach := d.reach, outbox := d.outbox,
    uid := d.uid, clock := d.clock, freeCtr := d.freeCtr }

/-- RESET kind 2 or 3 (R454): the port's link goes down until it is up again; any other kind is bad. -/
def Device.mgmtRetrain (d : Device) (port : Nat) : Device :=
  if port ≥ 2 then Device.respond d 6 2 []
  else Device.respond (Device.setSys d (fun x => { x with linkst := x.linkst &&& ~~~(1#64 <<< (16 + port)) })) 6 0 []

/-- Does any sensor read 95 °C or more. -/
def Device.hot (d : Device) : Bool := [0, 1, 2, 3].any (fun i => (Device.powerOf d i).temps.any (fun t => t ≥ 95 * 8))

/-- RELEASE (R453, R454): ends a thermal hold with a warm reset. -/
def Device.mgmtRelease (d : Device) : Device :=
  if Device.hot d then Device.respond d 7 4 [] else Device.respond (Device.restart d true) 7 0 []

/-- The payload length that a request takes (R453). -/
def frameLen : Nat → Option Nat
  | 1 => some 5
  | 2 => some 13
  | 3 => some 0
  | 4 => some 32
  | 5 => some 0
  | 6 => some 1
  | 7 => some 0
  | 8 => some 4
  | 9 => some 33
  | _ => none

/-- Is a frame whose CRC holds bad (R453): an opcode or a length that no request has, a RESET kind above 3. -/
def frameBad (f : List Byte) : Bool :=
  let op := fieldAt f 0 1
  let n := fieldAt f 1 2
  frameLen op != some n || f.length != n + 5 || (op == 6 && fieldAt f 3 1 ≥ 4)

/-- Does the CRC of a frame fail (R453). -/
def crcBad (f : List Byte) : Bool := f.length < 5 || crc16 (f.take (f.length - 2)) != fieldAt f (f.length - 2) 2

/-- A bad frame is answered (R453): with status 1 where its CRC fails, else with status 2. -/
def Device.mgmtBad (d : Device) (frame : List Byte) : Device :=
  let op := fieldAt frame 0 1
  if crcBad frame then Device.respond d op 1 [] else if frameBad frame then Device.respond d op 2 [] else d

/-- Serves a request of the management port (R453). -/
def State.answer (s : State) (r : MReq) : Device :=
  match r with
  | .read die off => Device.mgmtRead s.dev die off
  | .write die off v => State.mgmtWrite s die off v
  | .resync => State.serve s 3 liveStates Device.resyncStart
  | .quote nonce => State.serve s 4 liveStates (fun d => Device.mgmtQuote d nonce)
  | .cert => State.serve s 5 [1, 2, 3, 4, 5, 6, 0x81, 0x82, 0x90] (fun d => Device.respond d 5 0 Config.cert)
  | .cold => Device.respond (Device.restart s.dev false) 6 0 []
  | .warm => Device.respond (Device.restart s.dev true) 6 0 []
  | .retrain port => Device.mgmtRetrain s.dev port
  | .release => State.serve s 7 [0x90] Device.mgmtRelease
  | .kill lnch => State.serve s 8 [6] (fun d => Device.respond (Device.killByName d lnch 2) 8 0 [])
  | .extend i digest => State.serve s 9 [2, 3, 4, 5, 6] (fun d => Device.mgmtExtend d i digest)
  | .bad frame => Device.mgmtBad s.dev frame

/-- A request arrives at the management port: it is served at once, or waits behind those that came before it (R453). -/
def State.request (s : State) (r : MReq) : Res :=
  .next { s with dev :=
    if s.dev.sys.resync.isNone && s.dev.sys.reqs.isEmpty then State.answer s r
    else Device.setSys s.dev (fun x => { x with reqs := x.reqs ++ [r] }) }

/-- The management port goes on: a RESYNC under way reads its next field (R455), else the next request that waits is served (R453). -/
def State.manage (s : State) : Device :=
  match s.dev.sys.resync, s.dev.sys.reqs with
  | some (n, bs), _ => Device.resyncStep s.dev n bs
  | none, [] => s.dev
  | none, r :: rs => State.answer { s with dev := Device.setSys s.dev (fun x => { x with reqs := rs }) } r

/-- READ (R453). -/
def execEvRead (die : BitVec 8) (off : BitVec 32) (s : State) : Res := State.request s (.read die off)

/-- WRITE (R453). -/
def execEvWrite (die : BitVec 8) (off : BitVec 32) (v : BitVec 64) (s : State) : Res := State.request s (.write die off v)

/-- RESYNC (R455). -/
def execEvResync (s : State) : Res := State.request s .resync

/-- QUOTE (R456). -/
def execEvQuote (nonce : BitVec 256) (s : State) : Res := State.request s (.quote nonce)

/-- CERT (R453, R456). -/
def execEvCert (s : State) : Res := State.request s .cert

/-- EXTEND (R456). -/
def execEvExtend (i : Nat) (digest : BitVec 256) (s : State) : Res := State.request s (.extend i digest)

/-- COLD_RESET (R454): RESET kind 0. -/
def execEvColdReset (s : State) : Res := State.request s .cold

/-- WARM_RESET (R454): RESET kind 1. -/
def execEvWarmReset (s : State) : Res := State.request s .warm

/-- MODULE_RESET (R454): power is applied; no request waits. -/
def execEvModuleReset (s : State) : Res :=
  .next (State.mapDev s (fun d => Device.setSys (Device.restart d false) (fun x => { x with reqs := [] })))

/-- PORT_RETRAIN (R454): RESET kind 2 or 3. -/
def execEvPortRetrain (port : Nat) (s : State) : Res := State.request s (.retrain port)

/-- RELEASE (R453, R454). -/
def execEvRelease (s : State) : Res := State.request s .release

/-- KILL (R453): as KILLL. -/
def execEvKill (lnch : BitVec 32) (s : State) : Res := State.request s (.kill lnch)

/-- BAD_FRAME (R453): a frame with a CRC error, a bad opcode or a bad length; a good frame is no such event, and of no byte no opcode is known. -/
def execEvBadFrame (frame : List (BitVec 8)) (s : State) : Res :=
  if frame.length == 0 || (!crcBad frame && !frameBad frame) then .next s else State.request s (.bad frame)

/-- The digest of an RSA key (R456): SHA-256 over its bytes. -/
def rsaDigest (modulus exponent : Nat) : BitVec 256 := BitVec.ofNat 256 (ofLeBytes (sha256 (Config.keyBytes modulus exponent)))

/-- Does the ROM accept a firmware image under a signature and an RSA key (R456). -/
def SysBlock.accepts (x : SysBlock) (image : List Byte) (modulus exponent sig : Nat) : Bool :=
  pssVerify modulus exponent image sig && rsaDigest modulus exponent == x.fuseKey && x.fuseVer ≤ Config.imageVersion image

/-- FIRMWARE_VERIFY (R456): the ROM accepts the image and extends M0, or BOOTST becomes 0x81. The version is the one that the image holds and the digest that of the key which verifies it: with others the event does not occur. -/
def execEvFirmwareVerify (image : List (BitVec 8)) (version : Nat) (keyDigest : BitVec 256) (modulus exponent sig : Nat) (s : State) : Res :=
  let d := s.dev
  if d.sys.bootst != 1 || version != Config.imageVersion image || keyDigest != rsaDigest modulus exponent then .next s
  else if SysBlock.accepts d.sys image modulus exponent sig then
    .next { s with dev := Device.setSys (Device.extend d 0 (sha256 image)) (fun x => { x with bootst := 2 }) }
  else .next { s with dev := Device.setSys d (fun x => { x with bootst := 0x81 }) }

/-- The tables of the firmware at a bring-up (R312): a change kept for the next one is taken up. -/
def Power.bringup (p : Power) : Power := { p with plans := p.plans.map Plan.bringup }

/-- What the end of bring-up step n does (R308, R312, R454, R456). -/
def Device.bringup (d : Device) (n : Nat) : Device :=
  let dies := [0, 1, 2, 3]
  if n == 2 then
    let d := Device.extend (Device.extend d 1 (measBytes Config.tableDigest)) 2 (measBytes Config.fuseDigest)
    dies.foldl (fun d i => Device.setPower d i (Power.bringup (Device.powerOf d i))) d
  else if n == 3 then
    { dies.foldl (fun d i => Device.setDie d i { Device.die d i with pel := Peloton.reset }) d with xslots := [] }
  else d

/-- BRINGUP_STEP (R454): step 2, 3, 4 or 5 ends; steps 2 to 4 can fail with 0x82, and step 4 waits until MODNUM has been set. -/
def execEvBringupStep (ok : Bool) (s : State) : Res :=
  let d := s.dev
  let n := d.sys.bootst
  if n < 2 || n > 5 || (n == 4 && ok && !d.sys.modSet) || (n == 5 && !ok) then .next s
  else if ok then .next { s with dev := Device.setSys (Device.bringup d n) (fun x => { x with bootst := n + 1 }) }
  else .next { s with dev := Device.setSys d (fun x => { x with bootst := 0x82 }) }

/-- THERMAL_STOP (R310, R454): at 120 °C every clock stops; every launch ends without completion. -/
def execEvThermalStop (die : Nat) (cluster : Nat) (s : State) : Res :=
  let d := s.dev
  if Power.clusterAt (Device.powerOf d die) cluster 120 then
    .next { s with dev :=
      { d with waves := [], wgs := [], gangs := [], launches := [], ops := [], fills := [], saved := [], pins := [], orphans := [], xslots := [],
               cores := d.cores.map (fun e => (e.1, { e.2 with queue := [] })),
               queues := d.queues.map (fun e => (e.1, { e.2 with en := false, susp := false, head := .none, tries := 0, drain := none, depths := [] })),
               dies := d.dies.map (fun e => (e.1, { e.2 with pel := { e.2.pel with queue := [], running := none, msgs := [], aborts := [] }, svused := [] })),
               sys := { d.sys with bootst := 0x90, held := true } } }
  else .next s

/-- SPLINTER_DONE (R204): the unit finishes its steps 3 and 4; SPLST leaves busy. -/
def execEvSplinterDone (die : Nat) (s : State) : Res :=
  .next (State.mapDev s (fun d => Device.splinterDone d die))

/-- The words of an instruction-cache line at the point of coherence (R248): none where one cannot be fetched. -/
def Device.lineWords (d : Device) (core asid line : Nat) : Option (List Byte) :=
  let c := Device.core d core
  let d' := Device.setCore d core { c with icache := [] }
  (List.range 24).foldr (fun i acc => match acc, Device.fetchWord d' core asid (BitVec.ofNat 64 (96 * line + 4 * i)) with
    | some bs, .ok w => some (leBytes 4 w.toNat ++ bs)
    | _, _ => none) (some [])

/-- PACKET_ARRIVAL (R83, R248): an instruction-cache line is filled; a line that cannot be fetched is not, and its key takes the fault when it would issue (R426). -/
def execEvPacketArrival (core asid line : Nat) (s : State) : Res :=
  match Device.lineWords s.dev core asid line with
  | none => .next s
  | some bs =>
    let c := Device.core s.dev core
    .next { s with dev := Device.setCore s.dev core { c with icache := Tbl.put c.icache (icKey asid line) bs } }

end Sys2Proof.Machine
end

