-- ==== Sys2Proof/Machine/Hazards.lean ====
section
/-! DEFINITION. What each word reads and writes of the registers that chains and the scoreboard track (R24, R80, R82, R125), the pipe that it takes (R23), and the literals that it demands (R31). Generated from the shapes of the words. -/

namespace Sys2Proof.Machine

/-- The dimensions of the record in a slot of a wave's workgroup, 0 where the slot holds none (R257, R261). -/
def Device.slotRank (d : Device) (w : Wave) (i : Nat) : Nat :=
  let x := (Device.wg d w.wg).descs.getD i ⟨List.replicate 256 0, false⟩
  let t := TRec.of x.bytes
  if !x.pois && t.rankOk then t.rank else 0

/-- The scalars that a matrix operand descriptor calls for (R281): two, and one per coordinate of a record. -/
def Device.descScalars (d : Device) (w : Wave) (n : Nat) : Nat :=
  let m := MDesc.of (Wave.sc w n).v (Wave.sc w (n + 1)).v
  if m.kind == 2 then 2 + Device.slotRank d w (m.base % 16) else 2

/-- The descriptor slot that a matrix operand names (R281). -/
def Device.descSlot (w : Wave) (n : Nat) : List RegId :=
  let m := MDesc.of (Wave.sc w n).v (Wave.sc w (n + 1)).v
  if m.kind == 2 then [.desc (m.base % 16)] else []

/-- The names that a register drain writes (R292). -/
def drainNames (ctl dk : Nat) : Nat :=
  let c := DCtl.of (BitVec.ofNat 32 ctl)
  if dk == 0 then c.nc else c.nc / 2

/-- The scalars that a tile, ring or port drain reads (R292): s[A] says whether it reads the scale factor and the scale codes' address. -/
def drainReads (n ctl dk : Nat) : List RegId :=
  let c := DCtl.of (BitVec.ofNat 32 ctl)
  (([0] ++ (if c.scl then [1] else []) ++ [2, 3] ++ (if dk == 4 then [4] else [])
    ++ (if dk == 4 && c.mxo && n ≤ 248 then [6, 7] else [])).map (fun i => RegId.scal (n + i)))

/-- The bank of a drain that clears it (R292). -/
def bankIf (clr : BitVec 1) (n : BitVec 2) : List RegId := if clr == 1 then [.bank n.toNat] else []

/-- The names that a query writes (R326, R327). -/
def queryNames (x : Nat) : Nat :=
  let w := BitVec.ofNat 32 x
  if hxOut w == 0 then 2 * hxNl w else if hxOut w == 3 then 0 else hxNl w

/-- The registers that a word reads, and those that it writes, through a window base. -/
def Instr.uses (dev : Device) (w : Wave) (wb : Nat) (i : Instr) : List RegId × List RegId :=
  let vn {n : Nat} (x : BitVec n) (k : Nat) : List RegId := (List.range k).map (fun i => Wave.vid w wb (x.toNat + i))
  let v {n : Nat} (x : BitVec n) : List RegId := [Wave.vid w wb x.toNat]
  let ss (x k : Nat) : List RegId := (List.range k).map (fun i => RegId.scal (x + i))
  let s {n : Nat} (x : BitVec n) (k : Nat) : List RegId := ss x.toNat k
  let p {n : Nat} (x : BitVec n) : List RegId := [RegId.pred x.toNat]
  let bar {n : Nat} (x : BitVec n) : List RegId := [RegId.bar x.toNat]
  let sb (x : BitVec 6) : List RegId := if x == 63 then [] else ss x.toNat 1
  let sb64 (x : BitVec 6) : List RegId := if x == 63 then [] else ss x.toNat 2
  let val (n : Nat) : Nat := (Wave.sc w n).v.toNat
  match i with
  | .bra o => (p o.p, [])
  | .call _ => ([], [])
  | .ret _ => ([], [])
  | .calliS o => (s o.s 2, [])
  | .calliV o => (vn o.v 2, [])
  | .jmpS o => (s o.s 2, [])
  | .jmpV o => (vn o.v 2, [])
  | .exitW _ => ([], [])
  | .exitS o => (s o.s 2, [])
  | .yield _ => ([], [])
  | .elect o => ([], p o.p ++ s o.s 1)
  | .sync _ => ([], [])
  | .syncm o => (s o.s 2, [])
  | .nop _ => ([], [])
  | .wflush _ => ([], [])
  | .quota o => (s o.s 2, [.scal (o.s.toNat + 1)])
  | .shfl o => (v o.a ++ v o.b, v o.d)
  | .shflx o => (v o.a ++ v o.b, v o.d)
  | .shflup o => (v o.a ++ v o.b, v o.d)
  | .shfldn o => (v o.a ++ v o.b, v o.d)
  | .qswapH o => (v o.a, v o.d)
  | .qswapV o => (v o.a, v o.d)
  | .qswapD o => (v o.a, v o.d)
  | .qbcast o => (v o.a ++ v o.b, v o.d)
  | .scanAddI32 o => (v o.a, v o.d)
  | .scanAddF32 o => (v o.a ++ [.special 0x17], v o.d)
  | .scanMaxI32 o => (v o.a, v o.d)
  | .scanMinI32 o => (v o.a, v o.d)
  | .xscanAddI32 o => (v o.a, v o.d)
  | .voteAny o => (p o.p, s o.s 1)
  | .voteAll o => (p o.p, s o.s 1)
  | .ballot o => (p o.p, s o.s 2)
  | .redwAddI32 o => (v o.a, s o.s 1)
  | .redwMinI32 o => (v o.a, s o.s 1)
  | .redwMaxI32 o => (v o.a, s o.s 1)
  | .redwMinN32 o => (v o.a, s o.s 1)
  | .redwMaxN32 o => (v o.a, s o.s 1)
  | .redwAnd o => (v o.a, s o.s 1)
  | .redwOr o => (v o.a, s o.s 1)
  | .redwXor o => (v o.a, s o.s 1)
  | .redwAddF32 o => (v o.a ++ [.special 0x17], s o.s 1)
  | .redwMinF32 o => (v o.a ++ [.special 0x17], s o.s 1)
  | .redwMaxF32 o => (v o.a ++ [.special 0x17], s o.s 1)
  | .mov o => (v o.a, v o.d)
  | .movs o => (s o.s 1, v o.d)
  | .rdl o => (v o.v, s o.s 1)
  | .wrl o => (s o.s 1, v o.v)
  | .lid o => ([], v o.d)
  | .movp o => (p o.p, v o.v)
  | .pmov o => (v o.a, p o.p)
  | .movi o => ([], v o.v)
  | .pand o => (p o.a ++ p o.b, p o.d)
  | .por o => (p o.a ++ p o.b, p o.d)
  | .pxor o => (p o.a ++ p o.b, p o.d)
  | .pandn o => (p o.a ++ p o.b, p o.d)
  | .pnot o => (p o.a, p o.d)
  | .pset o => ([], p o.d)
  | .pclr o => ([], p o.d)
  | .addI32 o => (v o.a ++ v o.b, v o.d)
  | .addI32S o => (v o.a ++ sb o.b, v o.d)
  | .subI32 o => (v o.a ++ v o.b, v o.d)
  | .subI32S o => (v o.a ++ sb o.b, v o.d)
  | .mulI32 o => (v o.a ++ v o.b, v o.d)
  | .mulI32S o => (v o.a ++ sb o.b, v o.d)
  | .mulhI32 o => (v o.a ++ v o.b, v o.d)
  | .mulhI32S o => (v o.a ++ sb o.b, v o.d)
  | .mulhN32 o => (v o.a ++ v o.b, v o.d)
  | .mulhN32S o => (v o.a ++ sb o.b, v o.d)
  | .mulwI32 o => (v o.a ++ v o.b, vn o.d 2)
  | .mulwI32S o => (v o.a ++ sb o.b, vn o.d 2)
  | .mulwN32 o => (v o.a ++ v o.b, vn o.d 2)
  | .mulwN32S o => (v o.a ++ sb o.b, vn o.d 2)
  | .madI32 o => (v o.a ++ v o.b ++ v o.d, v o.d)
  | .madI32S o => (v o.a ++ sb o.b ++ v o.d, v o.d)
  | .minI32 o => (v o.a ++ v o.b, v o.d)
  | .minI32S o => (v o.a ++ sb o.b, v o.d)
  | .maxI32 o => (v o.a ++ v o.b, v o.d)
  | .maxI32S o => (v o.a ++ sb o.b, v o.d)
  | .minN32 o => (v o.a ++ v o.b, v o.d)
  | .minN32S o => (v o.a ++ sb o.b, v o.d)
  | .maxN32 o => (v o.a ++ v o.b, v o.d)
  | .maxN32S o => (v o.a ++ sb o.b, v o.d)
  | .absI32 o => (v o.a, v o.d)
  | .absI32S o => (v o.a, v o.d)
  | .addsI32 o => (v o.a ++ v o.b, v o.d)
  | .addsI32S o => (v o.a ++ sb o.b, v o.d)
  | .subsI32 o => (v o.a ++ v o.b, v o.d)
  | .subsI32S o => (v o.a ++ sb o.b, v o.d)
  | .addsN32 o => (v o.a ++ v o.b, v o.d)
  | .addsN32S o => (v o.a ++ sb o.b, v o.d)
  | .subsN32 o => (v o.a ++ v o.b, v o.d)
  | .subsN32S o => (v o.a ++ sb o.b, v o.d)
  | .addI64 o => (vn o.a 2 ++ vn o.b 2, vn o.d 2)
  | .addI64S o => (vn o.a 2 ++ sb64 o.b, vn o.d 2)
  | .subI64 o => (vn o.a 2 ++ vn o.b 2, vn o.d 2)
  | .subI64S o => (vn o.a 2 ++ sb64 o.b, vn o.d 2)
  | .addI16x2 o => (v o.a ++ v o.b, v o.d)
  | .addI16x2S o => (v o.a ++ sb o.b, v o.d)
  | .subI16x2 o => (v o.a ++ v o.b, v o.d)
  | .subI16x2S o => (v o.a ++ sb o.b, v o.d)
  | .dp4I8 o => (v o.a ++ v o.b ++ v o.d, v o.d)
  | .dp4I8S o => (v o.a ++ sb o.b ++ v o.d, v o.d)
  | .dp4N8 o => (v o.a ++ v o.b ++ v o.d, v o.d)
  | .dp4N8S o => (v o.a ++ sb o.b ++ v o.d, v o.d)
  | .vAnd o => (v o.a ++ v o.b, v o.d)
  | .vAndS o => (v o.a ++ sb o.b, v o.d)
  | .vOr o => (v o.a ++ v o.b, v o.d)
  | .vOrS o => (v o.a ++ sb o.b, v o.d)
  | .vXor o => (v o.a ++ v o.b, v o.d)
  | .vXorS o => (v o.a ++ sb o.b, v o.d)
  | .vAndn o => (v o.a ++ v o.b, v o.d)
  | .vAndnS o => (v o.a ++ sb o.b, v o.d)
  | .shl o => (v o.a ++ v o.b, v o.d)
  | .shlS o => (v o.a ++ sb o.b, v o.d)
  | .shr o => (v o.a ++ v o.b, v o.d)
  | .shrS o => (v o.a ++ sb o.b, v o.d)
  | .sar o => (v o.a ++ v o.b, v o.d)
  | .sarS o => (v o.a ++ sb o.b, v o.d)
  | .rotl o => (v o.a ++ v o.b, v o.d)
  | .rotlS o => (v o.a ++ sb o.b, v o.d)
  | .bfxI32 o => (v o.a ++ v o.b, v o.d)
  | .bfxN32 o => (v o.a ++ v o.b, v o.d)
  | .bfi o => (v o.a ++ v o.b ++ v o.d, v o.d)
  | .perm o => (v o.a ++ v o.b ++ v o.d, v o.d)
  | .popc o => (v o.a, v o.d)
  | .clz o => (v o.a, v o.d)
  | .ctz o => (v o.a, v o.d)
  | .brev o => (v o.a, v o.d)
  | .fshl o => (v o.a ++ v o.b ++ v o.d, v o.d)
  | .fshr o => (v o.a ++ v o.b ++ v o.d, v o.d)
  | .sext8 o => (v o.a, v o.d)
  | .sext16 o => (v o.a, v o.d)
  | .icmp o => (vn o.a (if o.ty.toNat < 2 then 1 else 2) ++ vn o.b (if o.ty.toNat < 2 then 1 else 2), p o.pd)
  | .icmpS o => (vn o.a (if o.ty.toNat < 2 then 1 else 2) ++ (if o.ty.toNat < 2 then sb o.b else sb64 o.b), p o.pd)
  | .sel o => (v o.a ++ v o.b ++ p o.p, v o.d)
  | .faddF32 o => (v o.a ++ v o.b ++ [.special 0x17], v o.d)
  | .faddF32S o => (v o.a ++ sb o.b ++ [.special 0x17], v o.d)
  | .fsubF32 o => (v o.a ++ v o.b ++ [.special 0x17], v o.d)
  | .fsubF32S o => (v o.a ++ sb o.b ++ [.special 0x17], v o.d)
  | .fmulF32 o => (v o.a ++ v o.b ++ [.special 0x17], v o.d)
  | .fmulF32S o => (v o.a ++ sb o.b ++ [.special 0x17], v o.d)
  | .fmaF32 o => (v o.a ++ v o.b ++ v o.d ++ [.special 0x17], v o.d)
  | .fmaF32S o => (v o.a ++ sb o.b ++ v o.d ++ [.special 0x17], v o.d)
  | .fnmaF32 o => (v o.a ++ v o.b ++ v o.d ++ [.special 0x17], v o.d)
  | .fnmaF32S o => (v o.a ++ sb o.b ++ v o.d ++ [.special 0x17], v o.d)
  | .fminF32 o => (v o.a ++ v o.b ++ [.special 0x17], v o.d)
  | .fminF32S o => (v o.a ++ sb o.b ++ [.special 0x17], v o.d)
  | .fmaxF32 o => (v o.a ++ v o.b ++ [.special 0x17], v o.d)
  | .fmaxF32S o => (v o.a ++ sb o.b ++ [.special 0x17], v o.d)
  | .fabsF32 o => (v o.a ++ [.special 0x17], v o.d)
  | .fabsF32S o => (v o.a ++ [.special 0x17], v o.d)
  | .fnegF32 o => (v o.a ++ [.special 0x17], v o.d)
  | .fnegF32S o => (v o.a ++ [.special 0x17], v o.d)
  | .fsignF32 o => (v o.a ++ [.special 0x17], v o.d)
  | .fsignF32S o => (v o.a ++ [.special 0x17], v o.d)
  | .fldexpF32 o => (v o.a ++ v o.b ++ [.special 0x17], v o.d)
  | .fldexpF32S o => (v o.a ++ sb o.b ++ [.special 0x17], v o.d)
  | .ffracF32 o => (v o.a ++ [.special 0x17], v o.d)
  | .ffracF32S o => (v o.a ++ [.special 0x17], v o.d)
  | .fclassF32 o => (v o.a ++ [.special 0x17], v o.d)
  | .fclassF32S o => (v o.a ++ [.special 0x17], v o.d)
  | .faddF16x2 o => (v o.a ++ v o.b ++ [.special 0x17], v o.d)
  | .faddF16x2S o => (v o.a ++ sb o.b ++ [.special 0x17], v o.d)
  | .fmulF16x2 o => (v o.a ++ v o.b ++ [.special 0x17], v o.d)
  | .fmulF16x2S o => (v o.a ++ sb o.b ++ [.special 0x17], v o.d)
  | .fmaF16x2 o => (v o.a ++ v o.b ++ v o.d ++ [.special 0x17], v o.d)
  | .fmaF16x2S o => (v o.a ++ sb o.b ++ v o.d ++ [.special 0x17], v o.d)
  | .fminF16x2 o => (v o.a ++ v o.b ++ [.special 0x17], v o.d)
  | .fminF16x2S o => (v o.a ++ sb o.b ++ [.special 0x17], v o.d)
  | .fmaxF16x2 o => (v o.a ++ v o.b ++ [.special 0x17], v o.d)
  | .fmaxF16x2S o => (v o.a ++ sb o.b ++ [.special 0x17], v o.d)
  | .faddBf16x2 o => (v o.a ++ v o.b ++ [.special 0x17], v o.d)
  | .faddBf16x2S o => (v o.a ++ sb o.b ++ [.special 0x17], v o.d)
  | .fmulBf16x2 o => (v o.a ++ v o.b ++ [.special 0x17], v o.d)
  | .fmulBf16x2S o => (v o.a ++ sb o.b ++ [.special 0x17], v o.d)
  | .fmaBf16x2 o => (v o.a ++ v o.b ++ v o.d ++ [.special 0x17], v o.d)
  | .fmaBf16x2S o => (v o.a ++ sb o.b ++ v o.d ++ [.special 0x17], v o.d)
  | .fminBf16x2 o => (v o.a ++ v o.b ++ [.special 0x17], v o.d)
  | .fminBf16x2S o => (v o.a ++ sb o.b ++ [.special 0x17], v o.d)
  | .fmaxBf16x2 o => (v o.a ++ v o.b ++ [.special 0x17], v o.d)
  | .fmaxBf16x2S o => (v o.a ++ sb o.b ++ [.special 0x17], v o.d)
  | .fdot2Bf16 o => (v o.a ++ v o.b ++ v o.d ++ [.special 0x17], v o.d)
  | .fdot2Bf16S o => (v o.a ++ sb o.b ++ v o.d ++ [.special 0x17], v o.d)
  | .fdot2F16 o => (v o.a ++ v o.b ++ v o.d ++ [.special 0x17], v o.d)
  | .fdot2F16S o => (v o.a ++ sb o.b ++ v o.d ++ [.special 0x17], v o.d)
  | .flerpF32 o => (v o.a ++ v o.b ++ v o.d ++ [.special 0x17], v o.d)
  | .flerpF32S o => (v o.a ++ sb o.b ++ v o.d ++ [.special 0x17], v o.d)
  | .fcmp o => (v o.a ++ v o.b ++ [.special 0x17], p o.pd)
  | .fcmpS o => (v o.a ++ sb o.b ++ [.special 0x17], p o.pd)
  | .fcvt o => (v o.a ++ [.special 0x17], v o.d)
  | .frnd o => (v o.a ++ [.special 0x17], v o.d)
  | .frcp o => (v o.a ++ [.special 0x17], v o.d)
  | .frsq o => (v o.a ++ [.special 0x17], v o.d)
  | .fsqrt o => (v o.a ++ [.special 0x17], v o.d)
  | .fexp2 o => (v o.a ++ [.special 0x17], v o.d)
  | .flog2 o => (v o.a ++ [.special 0x17], v o.d)
  | .fsinp o => (v o.a ++ [.special 0x17], v o.d)
  | .fcosp o => (v o.a ++ [.special 0x17], v o.d)
  | .ftanh o => (v o.a ++ [.special 0x17], v o.d)
  | .fdiv o => (v o.a ++ v o.b ++ [.special 0x17], v o.d)
  | .mxqF8e4 o => (v o.k ++ [.special 0x17], v o.v ++ s o.s 1)
  | .mxqF8e5 o => (v o.k ++ [.special 0x17], v o.v ++ s o.s 1)
  | .mxqF4 o => (v o.k ++ [.special 0x17], v o.v ++ s o.s 1)
  | .mxdqF8e4 o => (v o.k ++ s o.s 1 ++ [.special 0x17], v o.v)
  | .mxdqF8e5 o => (v o.k ++ s o.s 1 ++ [.special 0x17], v o.v)
  | .mxdqF4 o => (v o.k ++ s o.s 1 ++ [.special 0x17], v o.v)
  | .sadd o => (s o.a 1 ++ sb o.b, s o.d 1)
  | .ssub o => (s o.a 1 ++ sb o.b, s o.d 1)
  | .smul o => (s o.a 1 ++ sb o.b, s o.d 1)
  | .sand o => (s o.a 1 ++ sb o.b, s o.d 1)
  | .sor o => (s o.a 1 ++ sb o.b, s o.d 1)
  | .sxor o => (s o.a 1 ++ sb o.b, s o.d 1)
  | .sshl o => (s o.a 1 ++ sb o.b, s o.d 1)
  | .sshr o => (s o.a 1 ++ sb o.b, s o.d 1)
  | .ssar o => (s o.a 1 ++ sb o.b, s o.d 1)
  | .smin o => (s o.a 1 ++ sb o.b, s o.d 1)
  | .smax o => (s o.a 1 ++ sb o.b, s o.d 1)
  | .sminn o => (s o.a 1 ++ sb o.b, s o.d 1)
  | .smaxn o => (s o.a 1 ++ sb o.b, s o.d 1)
  | .smulh o => (s o.a 1 ++ sb o.b, s o.d 1)
  | .sadd64 o => (s o.a 2 ++ sb64 o.b, s o.d 2)
  | .ssel o => (s o.a 1 ++ sb o.b ++ [.flag 0], s o.d 1)
  | .scmp o => (s o.a (if o.ty.toNat < 2 then 1 else 2) ++ (if o.ty.toNat < 2 then sb o.b else sb64 o.b), [.flag o.q.toNat])
  | .sbr o => ([.flag o.q.toNat], [])
  | .sldW o => (s o.a 2, s o.d 1)
  | .sldD o => (s o.a 2, s o.d 2)
  | .sldQ o => (s o.a 2, s o.d 4)
  | .sstW o => (s o.a 2 ++ s o.d 1, [])
  | .sstD o => (s o.a 2 ++ s o.d 2, [])
  | .sstQ o => (s o.a 2 ++ s o.d 4, [])
  | .mfs o => ([.special o.r.toNat], s o.s 1)
  | .mts o => (s o.s 1, [.special o.r.toNat])
  | .cinvI o => (s o.s 3, [])
  | .cinvD o => (s o.s 3, [])
  | .cwbL1 o => (s o.s 3, [])
  | .cwbL2 o => (s o.s 3, [])
  | .tlbinvPage o => (s o.s 2, [])
  | .tlbinvRange o => (s o.s 3, [])
  | .tlbinvAsid _ => ([], [])
  | .tlbinvAll _ => ([], [])
  | .brk _ => ([], [])
  | .trapW _ => ([], [])
  | .rte _ => ([], ss 240 16 ++ ((List.range 4).map RegId.flag) ++ [.special 0x3A])
  | .rqr _ => ([], [])
  | .rqw _ => ([], [.flag 0])
  | .rqd _ => ([], [])
  | .ld o => (s o.b 2 ++ v o.a, vn o.x (sizeRegs o.sz))
  | .st o => (s o.b 2 ++ v o.a ++ vn o.x (sizeRegs o.sz), [])
  | .atom o => (s o.b 2 ++ v o.a ++ vn o.x (atomRegs o.op), vn o.x (atomWidth o.op.toNat / 4))
  | .red o => (s o.b 2 ++ v o.a ++ vn o.x (atomRegs o.op), [])
  | .dopen o => (s o.b 2 ++ v o.a, v o.x)
  | .dadd o => (s o.b 2 ++ v o.a ++ v o.x, [])
  | .dclose o => (s o.b 2 ++ v o.a, vn o.x 2)
  | .fence _ => ([], [])
  | .fenceAcq _ => ([], [])
  | .fenceRel _ => ([], [])
  | .waitk _ => ([], [])
  | .pf o => (s o.s 2 ++ v o.v, [])
  | .pchkV o => (v o.v, p o.p)
  | .pchkS o => (s o.s 1, p o.p)
  | .mwait o => (s o.s 4, [])
  | .pclrV o => (v o.v, v o.v)
  | .pclrS o => (s o.s 1, s o.s 1)
  | .ldl o => (s o.b 1 ++ v o.a, vn o.x (sizeRegs o.sz))
  | .stl o => (s o.b 1 ++ v o.a ++ vn o.x (sizeRegs o.sz), [])
  | .atoml o => (s o.b 1 ++ v o.a ++ vn o.x (atomRegs o.op), vn o.x (atomWidth o.op.toNat / 4))
  | .salloc o => (s o.s 1, s o.s 1)
  | .sfree o => (s o.s 1, [])
  | .bmode o => (s o.s 1, [])
  | .join o => (s o.s 1, [])
  | .leave _ => ([], [])
  | .rinit o => (s o.s 1, [])
  | .rinitFree o => (s o.s 1, [])
  | .rpushRes o => (s o.s 1, s o.s 2)
  | .rpushCmt o => (s o.s 1, [])
  | .rpopRes o => (s o.s 1, s o.s 2)
  | .rpopRel o => (s o.s 1, [])
  | .rlen o => ([], s o.s 2)
  | .presGet o => (s o.s 1, [.scal (o.s.toNat + 1)])
  | .presSet o => (s o.s 2, [])
  | .binit o => (s o.s 1 ++ bar o.b, bar o.b)
  | .barr o => (bar o.b, bar o.b)
  | .barx o => (s o.s 1 ++ bar o.b, bar o.b)
  | .barw o => (bar o.b, [])
  | .barwS o => (bar o.b, s o.s 1)
  | .bart o => (bar o.b, p o.q)
  | .cpl o => (v o.a ++ v o.b ++ s o.s 4, [])
  | .cpls o => (v o.a ++ v o.b ++ s o.s 4, [])
  | .cpt o => (s o.s (2 + Device.slotRank dev w (val o.s.toNat % 16)) ++ [.desc (val o.s.toNat % 16)], [])
  | .cpts o => (s o.s (2 + Device.slotRank dev w (val o.s.toNat % 16)) ++ [.desc (val o.s.toNat % 16)], [])
  | .tdesc o => (s o.s 3, if val (o.s.toNat + 2) < 16 then [.desc (val (o.s.toNat + 2))] else [])
  | .fmt o => (s o.s 1, [.special 0x20])
  | .mshape o => (s o.s 1, [.special 0x21])
  | .mload o => (s o.s (Device.descScalars dev w o.s.toNat) ++ Device.descSlot w o.s.toNat ++ [.special 0x20], [.slot o.j.toNat])
  | .mmul o => (s o.s (Device.descScalars dev w o.s.toNat) ++ Device.descSlot w o.s.toNat ++ [.special 0x20, .special 0x21, .slot o.j.toNat], [.bank o.n.toNat])
  | .mmulReg o => (vn o.d (regNames w.fmt) ++ [.special 0x20, .special 0x21, .slot o.j.toNat], [.bank o.n.toNat])
  | .mdrainF32 o => (s o.s 1 ++ [.special 0x20, .bank o.n.toNat], vn o.d (drainNames (val o.s.toNat) 0) ++ bankIf o.w o.n)
  | .mdrainBf16 o => (s o.s 1 ++ [.special 0x20, .bank o.n.toNat], vn o.d (drainNames (val o.s.toNat) 1) ++ bankIf o.w o.n)
  | .mdrainTile o => (drainReads o.s.toNat (val o.s.toNat) 2 ++ [.special 0x20, .bank o.n.toNat], bankIf o.w o.n)
  | .mdrainRing o => (drainReads o.s.toNat (val o.s.toNat) 3 ++ [.special 0x20, .bank o.n.toNat], bankIf o.w o.n)
  | .mdrainPort o => (drainReads o.s.toNat (val o.s.toNat) 4 ++ [.special 0x20, .bank o.n.toNat], bankIf o.w o.n)
  | .mclr o => ([], (((List.range 4).filter (fun i => o.m.getLsbD i)).map RegId.bank))
  | .mstat o => ([], s o.s 2)
  | .hxcfg o => (s o.s 2, ss (o.s.toNat + 2) 2)
  | .hxq o => (vn o.a 3 ++ s o.s 1, vn o.b (queryNames (val o.s.toNat)))
  | .hxqRing o => (vn o.p 3 ++ s o.s 1, vn (0 : BitVec 6) (queryNames (val o.s.toNat)))
  | .hxg o => (vn o.a 3 ++ vn o.b (2 * hxNl (BitVec.ofNat 32 (val o.s.toNat))) ++ s o.s 1, [])
  | .vpub o => (s o.s 2, ss (o.s.toNat + 2) 2)
  | .vbind o => (s o.s 2, ss (o.s.toNat + 2) 4)
  | .tlayout o => (s o.s 2, [.scal (o.s.toNat + 2), .bind 1])
  | .tcode o => (s o.s 2, [.scal (o.s.toNat + 2), .bind 2])
  | .trace o => (vn o.p 10 ++ s o.s 4, [])
  | .tget o => ([], vn o.d 8)
  | .tresume o => (vn o.p 7 ++ s o.s 3, [])
  | .tabort _ => ([], [])
  | .tstamp o => (vn o.p 2 ++ s o.s 4, [])
  | .coll o => (s o.s 2, [.scal (o.s.toNat + 2)])
  | .launchW o => (s o.s 3, [.flag 0])
  | .tapeW o => (s o.s 2, [])
  | .lit _ => ([], [])
  | .evActiveSlotFill _ _ => ([], [])
  | .evWaveSwap _ _ => ([], [])
  | .evWatchdog _ => ([], [])
  | .evTrapEntry _ _ _ _ => ([], [])
  | .evStoreTranslationFault _ _ => ([], [])
  | .evSoftError _ _ => ([], [])
  | .evSuccessorRestart _ => ([], [])
  | .evSpill _ _ _ => ([], [])
  | .evSpillComplete _ _ _ => ([], [])
  | .evRefill _ _ _ => ([], [])
  | .evRefillComplete _ _ _ => ([], [])
  | .evOperationComplete _ _ => ([], [])
  | .evEngineDispatch _ _ => ([], [])
  | .evEngineOpFire _ => ([], [])
  | .evCopyArrival _ => ([], [])
  | .evSlotOpen _ _ _ => ([], [])
  | .evSlotAddition _ _ _ _ => ([], [])
  | .evSlotClose _ _ => ([], [])
  | .evPairOpStart _ => ([], [])
  | .evRowInjection _ => ([], [])
  | .evPairOpRetire _ => ([], [])
  | .evTokenHop _ _ => ([], [])
  | .evBurstQuietClose _ => ([], [])
  | .evBurstTimeLimit _ => ([], [])
  | .evTokenRelease _ => ([], [])
  | .evRampStep _ => ([], [])
  | .evControllerPeriod _ _ => ([], [])
  | .evThermalTripWarning _ _ => ([], [])
  | .evThermalStop _ _ => ([], [])
  | .evMarginMeasurement _ _ => ([], [])
  | .evTimingReplay _ => ([], [])
  | .evReplayRateStep _ _ _ => ([], [])
  | .evReplayThrottle _ _ => ([], [])
  | .evL1LineRefresh _ _ => ([], [])
  | .evVersionStep _ => ([], [])
  | .evBindingRelease _ => ([], [])
  | .miNop => ([], [])
  | .miFetch _ => ([], [])
  | .miField _ => ([], [])
  | .miBox _ => ([], [])
  | .miSort _ => ([], [])
  | .miSelect _ => ([], [])
  | .miPush _ => ([], [])
  | .miPop _ => ([], [])
  | .miTri _ => ([], [])
  | .miCaps _ => ([], [])
  | .miCurve _ => ([], [])
  | .miXform _ => ([], [])
  | .miPopx => ([], [])
  | .miAccept => ([], [])
  | .miTerm => ([], [])
  | .miBr _ => ([], [])
  | .miLoop _ => ([], [])
  | .miSetb _ => ([], [])
  | .miStb _ => ([], [])
  | .miYield _ => ([], [])
  | .evBudgetExhausted _ _ => ([], [])
  | .evProgramStart _ => ([], [])
  | .evSend _ _ => ([], [])
  | .evRecv _ _ => ([], [])
  | .evRrs _ _ => ([], [])
  | .evRrw _ _ => ([], [])
  | .evCopy _ _ => ([], [])
  | .evWait _ _ _ _ _ => ([], [])
  | .evPelotonLoop _ _ _ => ([], [])
  | .evEndl _ _ => ([], [])
  | .evPeer _ _ _ _ _ _ => ([], [])
  | .evSrk _ _ => ([], [])
  | .evDone _ _ _ _ => ([], [])
  | .evStepx _ _ _ => ([], [])
  | .evMessageArrival _ _ => ([], [])
  | .evAbortFlit _ _ => ([], [])
  | .evLinkStop _ _ _ => ([], [])
  | .evDoorbell _ _ _ => ([], [])
  | .evLaunchEntry _ => ([], [])
  | .evTapeRun _ => ([], [])
  | .evFrameMark _ => ([], [])
  | .evLaunchConditionsHold _ _ => ([], [])
  | .evPlaceGang => ([], [])
  | .evClusterDrain _ => ([], [])
  | .evPreemptionComplete _ => ([], [])
  | .evPendingLaunchAppend _ => ([], [])
  | .evBackgroundBudgetReached _ => ([], [])
  | .evWorkgroupRetire _ => ([], [])
  | .evLaunchRetire _ => ([], [])
  | .evSplinter _ _ => ([], [])
  | .evPstatRead _ => ([], [])
  | .evQcmdEnable _ _ => ([], [])
  | .evQcmdDisable _ _ => ([], [])
  | .evQcmdSuspend _ _ => ([], [])
  | .evQcmdKill _ _ => ([], [])
  | .evKilll _ _ => ([], [])
  | .evKeyLoad _ _ => ([], [])
  | .evPflush _ _ => ([], [])
  | .evPstepWrite _ _ _ => ([], [])
  | .evRegisterWrite _ _ _ _ _ => ([], [])
  | .evHostBarAccess _ _ _ _ => ([], [])
  | .evPeerAccess _ _ _ => ([], [])
  | .evLinkStateChange _ _ _ => ([], [])
  | .evRead _ _ => ([], [])
  | .evWrite _ _ _ => ([], [])
  | .evResync => ([], [])
  | .evQuote _ => ([], [])
  | .evCert => ([], [])
  | .evColdReset => ([], [])
  | .evWarmReset => ([], [])
  | .evPortRetrain _ => ([], [])
  | .evRelease => ([], [])
  | .evKill _ => ([], [])
  | .evExtend _ _ => ([], [])
  | .evFirmwareVerify _ _ _ _ _ _ => ([], [])
  | .evBringupStep _ => ([], [])
  | .evZeroFill _ => ([], [])
  | .evModeSwitchComplete _ => ([], [])
  | .evSplinterDone _ => ([], [])
  | .evPacketArrival _ _ _ => ([], [])
  | .evBadFrame _ => ([], [])
  | .evCoreCycle _ => ([], [])
  | .evModuleReset => ([], [])

/-- The pipes of the opcode map (R23). -/
inductive Pipe where
  | alu
  | vs
  | sc
  | mem
  | eng
  | none
  deriving DecidableEq, Repr

/-- The pipe of a major opcode (R23). -/
def pipeOf (maj : Nat) : Pipe :=
  match maj with
  | 0x01 => .sc
  | 0x02 => .sc
  | 0x03 => .sc
  | 0x13 => .vs
  | 0x18 => .sc
  | 0x19 => .sc
  | 0x1A => .sc
  | 0x1B => .sc
  | 0x1C => .mem
  | 0x1D => .sc
  | 0x2A => .sc
  | 0x2C => .eng
  | 0x2D => .eng
  | 0x2E => .eng
  | 0x2F => .eng
  | 0x3F => .none
  | m => if m < 0x15 then .alu else .mem

/-- May a word have n LIT words (R31, R32). -/
def litCountOk (w : Word) (n : Nat) : Bool :=
  let x := w.toNat
  let maj := bitsOf x 30 25
  if maj == 0x09 || maj == 0x0C || maj == 0x0F || maj == 0x11 then (if bitsOf x 12 7 == 63 then n == 1 || n == 2 else n == 0)
  else if maj == 0x18 || maj == 0x19 || maj == 0x1A || maj == 0x1C then (if bitsOf x 8 3 == 63 then n == 1 || n == 2 else n == 0)
  else if (0x20 ≤ maj && maj ≤ 0x24) || (0x26 ≤ maj && maj ≤ 0x28) then n ≤ 2
  else if maj == 0x06 && bitsOf x 4 0 == 7 then n == 1 || n == 2
  else n == 0

/-- Is a word a control transfer (R25). -/
def isTransfer (w : Word) : Bool :=
  let maj := bitsOf w.toNat 30 25
  let fn := bitsOf w.toNat 4 0
  maj == 0x01 || maj == 0x02 || maj == 0x1B || (maj == 0x03 && fn ≤ 3) || (maj == 0x1D && 5 ≤ fn && fn ≤ 7)

/-- Does a word take its exception at the boundary after its chain (R435). -/
def isSoftTrap (w : Word) : Bool :=
  let fn := bitsOf w.toNat 4 0
  bitsOf w.toNat 30 25 == 0x1D && (fn == 5 || fn == 6)

/-- A register that two chains of one turn may not share when one writes it (R80): neither a vector register nor a predicate. -/
def RegId.shared : RegId → Bool
  | .fixed _ => false
  | .pos _ => false
  | .pred _ => false
  | .frame _ => false
  | _ => true

/-- The scalars whose values decide which names or slot a word writes: while one has a write to come, the word's write group is not known (R24, R82). -/
def Instr.groupFrom (i : Instr) : List RegId :=
  match i with
  | .mdrainF32 o => [.scal o.s.toNat]
  | .mdrainBf16 o => [.scal o.s.toNat]
  | .hxq o => [.scal o.s.toNat]
  | .hxqRing o => [.scal o.s.toNat]
  | .tdesc o => [.scal (o.s.toNat + 2)]
  | _ => []

/-- Does a register belong to a group that a scalar decides: a vector name or a descriptor slot. -/
def RegId.grouped : RegId → Bool
  | .fixed _ => true
  | .pos _ => true
  | .desc _ => true
  | _ => false

/-- The vector names whose elements of the issuing lanes a word's last-read bits clear (R101, R33, R148): va by La, vb by Lb. -/
def lastNames (x : Word) : List Nat :=
  let n := x.toNat
  let maj := bitsOf n 30 25
  let fn := bitsOf n 4 0
  let two := ((maj == 0x08 || maj == 0x09) && (fn == 17 || fn == 18)) || ((maj == 0x0B || maj == 0x0C) && 2 ≤ fn)
  let at_ (bit v : Nat) : List Nat := if bitOf n bit then (if two then [v, v + 1] else [v]) else []
  let va := bitsOf n 18 13
  if maj == 0x04 || maj == 0x08 || maj == 0x0A || maj == 0x0B || maj == 0x0D || maj == 0x0E || maj == 0x10 || maj == 0x13 then
    at_ 6 va ++ at_ 5 (bitsOf n 12 7)
  else if maj == 0x09 || maj == 0x0C || maj == 0x0F || maj == 0x11 then at_ 6 va
  else if maj == 0x12 || (0x20 ≤ maj && maj ≤ 0x24) || (0x26 ≤ maj && maj ≤ 0x28) then at_ 0 va
  else if maj == 0x06 && fn == 0 then at_ 11 (bitsOf n 10 5)
  else if maj == 0x06 && fn == 6 then at_ 11 (bitsOf n 24 19)
  else if maj == 0x05 && 3 ≤ fn then at_ 5 (bitsOf n 24 19)
  else []

end Sys2Proof.Machine
end

