-- ==== Sys2Proof/Machine/Dispatch.lean ====
section
/-! DEFINITION. What each instruction does: one arm per constructor. -/

namespace Sys2Proof.Machine

def exec (i : Instr) (s : State) : Host.Outcome State Fault Refusal :=
  match i with
  | .bra o => Sys2Proof.Machine.execBra o s
  | .call o => Sys2Proof.Machine.execCall o s
  | .ret o => Sys2Proof.Machine.execRet o s
  | .calliS o => Sys2Proof.Machine.execCalliS o s
  | .calliV o => Sys2Proof.Machine.execCalliV o s
  | .jmpS o => Sys2Proof.Machine.execJmpS o s
  | .jmpV o => Sys2Proof.Machine.execJmpV o s
  | .exitW o => Sys2Proof.Machine.execExitW o s
  | .exitS o => Sys2Proof.Machine.execExitS o s
  | .yield o => Sys2Proof.Machine.execYield o s
  | .elect o => Sys2Proof.Machine.execElect o s
  | .sync o => Sys2Proof.Machine.execSync o s
  | .syncm o => Sys2Proof.Machine.execSyncm o s
  | .nop o => Sys2Proof.Machine.execNop o s
  | .wflush o => Sys2Proof.Machine.execWflush o s
  | .quota o => Sys2Proof.Machine.execQuota o s
  | .shfl o => Sys2Proof.Machine.execShfl o s
  | .shflx o => Sys2Proof.Machine.execShflx o s
  | .shflup o => Sys2Proof.Machine.execShflup o s
  | .shfldn o => Sys2Proof.Machine.execShfldn o s
  | .qswapH o => Sys2Proof.Machine.execQswapH o s
  | .qswapV o => Sys2Proof.Machine.execQswapV o s
  | .qswapD o => Sys2Proof.Machine.execQswapD o s
  | .qbcast o => Sys2Proof.Machine.execQbcast o s
  | .scanAddI32 o => Sys2Proof.Machine.execScanAddI32 o s
  | .scanAddF32 o => Sys2Proof.Machine.execScanAddF32 o s
  | .scanMaxI32 o => Sys2Proof.Machine.execScanMaxI32 o s
  | .scanMinI32 o => Sys2Proof.Machine.execScanMinI32 o s
  | .xscanAddI32 o => Sys2Proof.Machine.execXscanAddI32 o s
  | .voteAny o => Sys2Proof.Machine.execVoteAny o s
  | .voteAll o => Sys2Proof.Machine.execVoteAll o s
  | .ballot o => Sys2Proof.Machine.execBallot o s
  | .redwAddI32 o => Sys2Proof.Machine.execRedwAddI32 o s
  | .redwMinI32 o => Sys2Proof.Machine.execRedwMinI32 o s
  | .redwMaxI32 o => Sys2Proof.Machine.execRedwMaxI32 o s
  | .redwMinN32 o => Sys2Proof.Machine.execRedwMinN32 o s
  | .redwMaxN32 o => Sys2Proof.Machine.execRedwMaxN32 o s
  | .redwAnd o => Sys2Proof.Machine.execRedwAnd o s
  | .redwOr o => Sys2Proof.Machine.execRedwOr o s
  | .redwXor o => Sys2Proof.Machine.execRedwXor o s
  | .redwAddF32 o => Sys2Proof.Machine.execRedwAddF32 o s
  | .redwMinF32 o => Sys2Proof.Machine.execRedwMinF32 o s
  | .redwMaxF32 o => Sys2Proof.Machine.execRedwMaxF32 o s
  | .mov o => Sys2Proof.Machine.execMov o s
  | .movs o => Sys2Proof.Machine.execMovs o s
  | .rdl o => Sys2Proof.Machine.execRdl o s
  | .wrl o => Sys2Proof.Machine.execWrl o s
  | .lid o => Sys2Proof.Machine.execLid o s
  | .movp o => Sys2Proof.Machine.execMovp o s
  | .pmov o => Sys2Proof.Machine.execPmov o s
  | .movi o => Sys2Proof.Machine.execMovi o s
  | .pand o => Sys2Proof.Machine.execPand o s
  | .por o => Sys2Proof.Machine.execPor o s
  | .pxor o => Sys2Proof.Machine.execPxor o s
  | .pandn o => Sys2Proof.Machine.execPandn o s
  | .pnot o => Sys2Proof.Machine.execPnot o s
  | .pset o => Sys2Proof.Machine.execPset o s
  | .pclr o => Sys2Proof.Machine.execPclr o s
  | .addI32 o => Sys2Proof.Machine.execAddI32 o s
  | .addI32S o => Sys2Proof.Machine.execAddI32S o s
  | .subI32 o => Sys2Proof.Machine.execSubI32 o s
  | .subI32S o => Sys2Proof.Machine.execSubI32S o s
  | .mulI32 o => Sys2Proof.Machine.execMulI32 o s
  | .mulI32S o => Sys2Proof.Machine.execMulI32S o s
  | .mulhI32 o => Sys2Proof.Machine.execMulhI32 o s
  | .mulhI32S o => Sys2Proof.Machine.execMulhI32S o s
  | .mulhN32 o => Sys2Proof.Machine.execMulhN32 o s
  | .mulhN32S o => Sys2Proof.Machine.execMulhN32S o s
  | .mulwI32 o => Sys2Proof.Machine.execMulwI32 o s
  | .mulwI32S o => Sys2Proof.Machine.execMulwI32S o s
  | .mulwN32 o => Sys2Proof.Machine.execMulwN32 o s
  | .mulwN32S o => Sys2Proof.Machine.execMulwN32S o s
  | .madI32 o => Sys2Proof.Machine.execMadI32 o s
  | .madI32S o => Sys2Proof.Machine.execMadI32S o s
  | .minI32 o => Sys2Proof.Machine.execMinI32 o s
  | .minI32S o => Sys2Proof.Machine.execMinI32S o s
  | .maxI32 o => Sys2Proof.Machine.execMaxI32 o s
  | .maxI32S o => Sys2Proof.Machine.execMaxI32S o s
  | .minN32 o => Sys2Proof.Machine.execMinN32 o s
  | .minN32S o => Sys2Proof.Machine.execMinN32S o s
  | .maxN32 o => Sys2Proof.Machine.execMaxN32 o s
  | .maxN32S o => Sys2Proof.Machine.execMaxN32S o s
  | .absI32 o => Sys2Proof.Machine.execAbsI32 o s
  | .absI32S o => Sys2Proof.Machine.execAbsI32S o s
  | .addsI32 o => Sys2Proof.Machine.execAddsI32 o s
  | .addsI32S o => Sys2Proof.Machine.execAddsI32S o s
  | .subsI32 o => Sys2Proof.Machine.execSubsI32 o s
  | .subsI32S o => Sys2Proof.Machine.execSubsI32S o s
  | .addsN32 o => Sys2Proof.Machine.execAddsN32 o s
  | .addsN32S o => Sys2Proof.Machine.execAddsN32S o s
  | .subsN32 o => Sys2Proof.Machine.execSubsN32 o s
  | .subsN32S o => Sys2Proof.Machine.execSubsN32S o s
  | .addI64 o => Sys2Proof.Machine.execAddI64 o s
  | .addI64S o => Sys2Proof.Machine.execAddI64S o s
  | .subI64 o => Sys2Proof.Machine.execSubI64 o s
  | .subI64S o => Sys2Proof.Machine.execSubI64S o s
  | .addI16x2 o => Sys2Proof.Machine.execAddI16x2 o s
  | .addI16x2S o => Sys2Proof.Machine.execAddI16x2S o s
  | .subI16x2 o => Sys2Proof.Machine.execSubI16x2 o s
  | .subI16x2S o => Sys2Proof.Machine.execSubI16x2S o s
  | .dp4I8 o => Sys2Proof.Machine.execDp4I8 o s
  | .dp4I8S o => Sys2Proof.Machine.execDp4I8S o s
  | .dp4N8 o => Sys2Proof.Machine.execDp4N8 o s
  | .dp4N8S o => Sys2Proof.Machine.execDp4N8S o s
  | .vAnd o => Sys2Proof.Machine.execVAnd o s
  | .vAndS o => Sys2Proof.Machine.execVAndS o s
  | .vOr o => Sys2Proof.Machine.execVOr o s
  | .vOrS o => Sys2Proof.Machine.execVOrS o s
  | .vXor o => Sys2Proof.Machine.execVXor o s
  | .vXorS o => Sys2Proof.Machine.execVXorS o s
  | .vAndn o => Sys2Proof.Machine.execVAndn o s
  | .vAndnS o => Sys2Proof.Machine.execVAndnS o s
  | .shl o => Sys2Proof.Machine.execShl o s
  | .shlS o => Sys2Proof.Machine.execShlS o s
  | .shr o => Sys2Proof.Machine.execShr o s
  | .shrS o => Sys2Proof.Machine.execShrS o s
  | .sar o => Sys2Proof.Machine.execSar o s
  | .sarS o => Sys2Proof.Machine.execSarS o s
  | .rotl o => Sys2Proof.Machine.execRotl o s
  | .rotlS o => Sys2Proof.Machine.execRotlS o s
  | .bfxI32 o => Sys2Proof.Machine.execBfxI32 o s
  | .bfxN32 o => Sys2Proof.Machine.execBfxN32 o s
  | .bfi o => Sys2Proof.Machine.execBfi o s
  | .perm o => Sys2Proof.Machine.execPerm o s
  | .popc o => Sys2Proof.Machine.execPopc o s
  | .clz o => Sys2Proof.Machine.execClz o s
  | .ctz o => Sys2Proof.Machine.execCtz o s
  | .brev o => Sys2Proof.Machine.execBrev o s
  | .fshl o => Sys2Proof.Machine.execFshl o s
  | .fshr o => Sys2Proof.Machine.execFshr o s
  | .sext8 o => Sys2Proof.Machine.execSext8 o s
  | .sext16 o => Sys2Proof.Machine.execSext16 o s
  | .icmp o => Sys2Proof.Machine.execIcmp o s
  | .icmpS o => Sys2Proof.Machine.execIcmpS o s
  | .sel o => Sys2Proof.Machine.execSel o s
  | .faddF32 o => Sys2Proof.Machine.execFaddF32 o s
  | .faddF32S o => Sys2Proof.Machine.execFaddF32S o s
  | .fsubF32 o => Sys2Proof.Machine.execFsubF32 o s
  | .fsubF32S o => Sys2Proof.Machine.execFsubF32S o s
  | .fmulF32 o => Sys2Proof.Machine.execFmulF32 o s
  | .fmulF32S o => Sys2Proof.Machine.execFmulF32S o s
  | .fmaF32 o => Sys2Proof.Machine.execFmaF32 o s
  | .fmaF32S o => Sys2Proof.Machine.execFmaF32S o s
  | .fnmaF32 o => Sys2Proof.Machine.execFnmaF32 o s
  | .fnmaF32S o => Sys2Proof.Machine.execFnmaF32S o s
  | .fminF32 o => Sys2Proof.Machine.execFminF32 o s
  | .fminF32S o => Sys2Proof.Machine.execFminF32S o s
  | .fmaxF32 o => Sys2Proof.Machine.execFmaxF32 o s
  | .fmaxF32S o => Sys2Proof.Machine.execFmaxF32S o s
  | .fabsF32 o => Sys2Proof.Machine.execFabsF32 o s
  | .fabsF32S o => Sys2Proof.Machine.execFabsF32S o s
  | .fnegF32 o => Sys2Proof.Machine.execFnegF32 o s
  | .fnegF32S o => Sys2Proof.Machine.execFnegF32S o s
  | .fsignF32 o => Sys2Proof.Machine.execFsignF32 o s
  | .fsignF32S o => Sys2Proof.Machine.execFsignF32S o s
  | .fldexpF32 o => Sys2Proof.Machine.execFldexpF32 o s
  | .fldexpF32S o => Sys2Proof.Machine.execFldexpF32S o s
  | .ffracF32 o => Sys2Proof.Machine.execFfracF32 o s
  | .ffracF32S o => Sys2Proof.Machine.execFfracF32S o s
  | .fclassF32 o => Sys2Proof.Machine.execFclassF32 o s
  | .fclassF32S o => Sys2Proof.Machine.execFclassF32S o s
  | .faddF16x2 o => Sys2Proof.Machine.execFaddF16x2 o s
  | .faddF16x2S o => Sys2Proof.Machine.execFaddF16x2S o s
  | .fmulF16x2 o => Sys2Proof.Machine.execFmulF16x2 o s
  | .fmulF16x2S o => Sys2Proof.Machine.execFmulF16x2S o s
  | .fmaF16x2 o => Sys2Proof.Machine.execFmaF16x2 o s
  | .fmaF16x2S o => Sys2Proof.Machine.execFmaF16x2S o s
  | .fminF16x2 o => Sys2Proof.Machine.execFminF16x2 o s
  | .fminF16x2S o => Sys2Proof.Machine.execFminF16x2S o s
  | .fmaxF16x2 o => Sys2Proof.Machine.execFmaxF16x2 o s
  | .fmaxF16x2S o => Sys2Proof.Machine.execFmaxF16x2S o s
  | .faddBf16x2 o => Sys2Proof.Machine.execFaddBf16x2 o s
  | .faddBf16x2S o => Sys2Proof.Machine.execFaddBf16x2S o s
  | .fmulBf16x2 o => Sys2Proof.Machine.execFmulBf16x2 o s
  | .fmulBf16x2S o => Sys2Proof.Machine.execFmulBf16x2S o s
  | .fmaBf16x2 o => Sys2Proof.Machine.execFmaBf16x2 o s
  | .fmaBf16x2S o => Sys2Proof.Machine.execFmaBf16x2S o s
  | .fminBf16x2 o => Sys2Proof.Machine.execFminBf16x2 o s
  | .fminBf16x2S o => Sys2Proof.Machine.execFminBf16x2S o s
  | .fmaxBf16x2 o => Sys2Proof.Machine.execFmaxBf16x2 o s
  | .fmaxBf16x2S o => Sys2Proof.Machine.execFmaxBf16x2S o s
  | .fdot2Bf16 o => Sys2Proof.Machine.execFdot2Bf16 o s
  | .fdot2Bf16S o => Sys2Proof.Machine.execFdot2Bf16S o s
  | .fdot2F16 o => Sys2Proof.Machine.execFdot2F16 o s
  | .fdot2F16S o => Sys2Proof.Machine.execFdot2F16S o s
  | .flerpF32 o => Sys2Proof.Machine.execFlerpF32 o s
  | .flerpF32S o => Sys2Proof.Machine.execFlerpF32S o s
  | .fcmp o => Sys2Proof.Machine.execFcmp o s
  | .fcmpS o => Sys2Proof.Machine.execFcmpS o s
  | .fcvt o => Sys2Proof.Machine.execFcvt o s
  | .frnd o => Sys2Proof.Machine.execFrnd o s
  | .frcp o => Sys2Proof.Machine.execFrcp o s
  | .frsq o => Sys2Proof.Machine.execFrsq o s
  | .fsqrt o => Sys2Proof.Machine.execFsqrt o s
  | .fexp2 o => Sys2Proof.Machine.execFexp2 o s
  | .flog2 o => Sys2Proof.Machine.execFlog2 o s
  | .fsinp o => Sys2Proof.Machine.execFsinp o s
  | .fcosp o => Sys2Proof.Machine.execFcosp o s
  | .ftanh o => Sys2Proof.Machine.execFtanh o s
  | .fdiv o => Sys2Proof.Machine.execFdiv o s
  | .mxqF8e4 o => Sys2Proof.Machine.execMxqF8e4 o s
  | .mxqF8e5 o => Sys2Proof.Machine.execMxqF8e5 o s
  | .mxqF4 o => Sys2Proof.Machine.execMxqF4 o s
  | .mxdqF8e4 o => Sys2Proof.Machine.execMxdqF8e4 o s
  | .mxdqF8e5 o => Sys2Proof.Machine.execMxdqF8e5 o s
  | .mxdqF4 o => Sys2Proof.Machine.execMxdqF4 o s
  | .sadd o => Sys2Proof.Machine.execSadd o s
  | .ssub o => Sys2Proof.Machine.execSsub o s
  | .smul o => Sys2Proof.Machine.execSmul o s
  | .sand o => Sys2Proof.Machine.execSand o s
  | .sor o => Sys2Proof.Machine.execSor o s
  | .sxor o => Sys2Proof.Machine.execSxor o s
  | .sshl o => Sys2Proof.Machine.execSshl o s
  | .sshr o => Sys2Proof.Machine.execSshr o s
  | .ssar o => Sys2Proof.Machine.execSsar o s
  | .smin o => Sys2Proof.Machine.execSmin o s
  | .smax o => Sys2Proof.Machine.execSmax o s
  | .sminn o => Sys2Proof.Machine.execSminn o s
  | .smaxn o => Sys2Proof.Machine.execSmaxn o s
  | .smulh o => Sys2Proof.Machine.execSmulh o s
  | .sadd64 o => Sys2Proof.Machine.execSadd64 o s
  | .ssel o => Sys2Proof.Machine.execSsel o s
  | .scmp o => Sys2Proof.Machine.execScmp o s
  | .sbr o => Sys2Proof.Machine.execSbr o s
  | .sldW o => Sys2Proof.Machine.execSldW o s
  | .sldD o => Sys2Proof.Machine.execSldD o s
  | .sldQ o => Sys2Proof.Machine.execSldQ o s
  | .sstW o => Sys2Proof.Machine.execSstW o s
  | .sstD o => Sys2Proof.Machine.execSstD o s
  | .sstQ o => Sys2Proof.Machine.execSstQ o s
  | .mfs o => Sys2Proof.Machine.execMfs o s
  | .mts o => Sys2Proof.Machine.execMts o s
  | .cinvI o => Sys2Proof.Machine.execCinvI o s
  | .cinvD o => Sys2Proof.Machine.execCinvD o s
  | .cwbL1 o => Sys2Proof.Machine.execCwbL1 o s
  | .cwbL2 o => Sys2Proof.Machine.execCwbL2 o s
  | .tlbinvPage o => Sys2Proof.Machine.execTlbinvPage o s
  | .tlbinvRange o => Sys2Proof.Machine.execTlbinvRange o s
  | .tlbinvAsid o => Sys2Proof.Machine.execTlbinvAsid o s
  | .tlbinvAll o => Sys2Proof.Machine.execTlbinvAll o s
  | .brk o => Sys2Proof.Machine.execBrk o s
  | .trapW o => Sys2Proof.Machine.execTrapW o s
  | .rte o => Sys2Proof.Machine.execRte o s
  | .rqr o => Sys2Proof.Machine.execRqr o s
  | .rqw o => Sys2Proof.Machine.execRqw o s
  | .rqd o => Sys2Proof.Machine.execRqd o s
  | .ld o => Sys2Proof.Machine.execLd o s
  | .st o => Sys2Proof.Machine.execSt o s
  | .atom o => Sys2Proof.Machine.execAtom o s
  | .red o => Sys2Proof.Machine.execRed o s
  | .dopen o => Sys2Proof.Machine.execDopen o s
  | .dadd o => Sys2Proof.Machine.execDadd o s
  | .dclose o => Sys2Proof.Machine.execDclose o s
  | .fence o => Sys2Proof.Machine.execFence o s
  | .fenceAcq o => Sys2Proof.Machine.execFenceAcq o s
  | .fenceRel o => Sys2Proof.Machine.execFenceRel o s
  | .waitk o => Sys2Proof.Machine.execWaitk o s
  | .pf o => Sys2Proof.Machine.execPf o s
  | .pchkV o => Sys2Proof.Machine.execPchkV o s
  | .pchkS o => Sys2Proof.Machine.execPchkS o s
  | .mwait o => Sys2Proof.Machine.execMwait o s
  | .pclrV o => Sys2Proof.Machine.execPclrV o s
  | .pclrS o => Sys2Proof.Machine.execPclrS o s
  | .ldl o => Sys2Proof.Machine.execLdl o s
  | .stl o => Sys2Proof.Machine.execStl o s
  | .atoml o => Sys2Proof.Machine.execAtoml o s
  | .salloc o => Sys2Proof.Machine.execSalloc o s
  | .sfree o => Sys2Proof.Machine.execSfree o s
  | .bmode o => Sys2Proof.Machine.execBmode o s
  | .join o => Sys2Proof.Machine.execJoin o s
  | .leave o => Sys2Proof.Machine.execLeave o s
  | .rinit o => Sys2Proof.Machine.execRinit o s
  | .rinitFree o => Sys2Proof.Machine.execRinitFree o s
  | .rpushRes o => Sys2Proof.Machine.execRpushRes o s
  | .rpushCmt o => Sys2Proof.Machine.execRpushCmt o s
  | .rpopRes o => Sys2Proof.Machine.execRpopRes o s
  | .rpopRel o => Sys2Proof.Machine.execRpopRel o s
  | .rlen o => Sys2Proof.Machine.execRlen o s
  | .presGet o => Sys2Proof.Machine.execPresGet o s
  | .presSet o => Sys2Proof.Machine.execPresSet o s
  | .binit o => Sys2Proof.Machine.execBinit o s
  | .barr o => Sys2Proof.Machine.execBarr o s
  | .barx o => Sys2Proof.Machine.execBarx o s
  | .barw o => Sys2Proof.Machine.execBarw o s
  | .barwS o => Sys2Proof.Machine.execBarwS o s
  | .bart o => Sys2Proof.Machine.execBart o s
  | .cpl o => Sys2Proof.Machine.execCpl o s
  | .cpls o => Sys2Proof.Machine.execCpls o s
  | .cpt o => Sys2Proof.Machine.execCpt o s
  | .cpts o => Sys2Proof.Machine.execCpts o s
  | .tdesc o => Sys2Proof.Machine.execTdesc o s
  | .fmt o => Sys2Proof.Machine.execFmt o s
  | .mshape o => Sys2Proof.Machine.execMshape o s
  | .mload o => Sys2Proof.Machine.execMload o s
  | .mmul o => Sys2Proof.Machine.execMmul o s
  | .mmulReg o => Sys2Proof.Machine.execMmulReg o s
  | .mdrainF32 o => Sys2Proof.Machine.execMdrainF32 o s
  | .mdrainBf16 o => Sys2Proof.Machine.execMdrainBf16 o s
  | .mdrainTile o => Sys2Proof.Machine.execMdrainTile o s
  | .mdrainRing o => Sys2Proof.Machine.execMdrainRing o s
  | .mdrainPort o => Sys2Proof.Machine.execMdrainPort o s
  | .mclr o => Sys2Proof.Machine.execMclr o s
  | .mstat o => Sys2Proof.Machine.execMstat o s
  | .hxcfg o => Sys2Proof.Machine.execHxcfg o s
  | .hxq o => Sys2Proof.Machine.execHxq o s
  | .hxqRing o => Sys2Proof.Machine.execHxqRing o s
  | .hxg o => Sys2Proof.Machine.execHxg o s
  | .vpub o => Sys2Proof.Machine.execVpub o s
  | .vbind o => Sys2Proof.Machine.execVbind o s
  | .tlayout o => Sys2Proof.Machine.execTlayout o s
  | .tcode o => Sys2Proof.Machine.execTcode o s
  | .trace o => Sys2Proof.Machine.execTrace o s
  | .tget o => Sys2Proof.Machine.execTget o s
  | .tresume o => Sys2Proof.Machine.execTresume o s
  | .tabort o => Sys2Proof.Machine.execTabort o s
  | .tstamp o => Sys2Proof.Machine.execTstamp o s
  | .coll o => Sys2Proof.Machine.execColl o s
  | .launchW o => Sys2Proof.Machine.execLaunchW o s
  | .tapeW o => Sys2Proof.Machine.execTapeW o s
  | .lit o => Sys2Proof.Machine.execLit o s
  | .evActiveSlotFill core slot => Sys2Proof.Machine.execEvActiveSlotFill core slot s
  | .evWaveSwap core slot => Sys2Proof.Machine.execEvWaveSwap core slot s
  | .evWatchdog words => Sys2Proof.Machine.execEvWatchdog words s
  | .evTrapEntry code trlm trpa num => Sys2Proof.Machine.execEvTrapEntry code trlm trpa num s
  | .evStoreTranslationFault wave idx => Sys2Proof.Machine.execEvStoreTranslationFault wave idx s
  | .evSoftError wave target => Sys2Proof.Machine.execEvSoftError wave target s
  | .evSuccessorRestart wg => Sys2Proof.Machine.execEvSuccessorRestart wg s
  | .evSpill wave idx frame => Sys2Proof.Machine.execEvSpill wave idx frame s
  | .evSpillComplete wave idx frame => Sys2Proof.Machine.execEvSpillComplete wave idx frame s
  | .evRefill wave idx frame => Sys2Proof.Machine.execEvRefill wave idx frame s
  | .evRefillComplete wave idx frame => Sys2Proof.Machine.execEvRefillComplete wave idx frame s
  | .evOperationComplete wave cls => Sys2Proof.Machine.execEvOperationComplete wave cls s
  | .evEngineDispatch core idx => Sys2Proof.Machine.execEvEngineDispatch core idx s
  | .evEngineOpFire op => Sys2Proof.Machine.execEvEngineOpFire op s
  | .evCopyArrival op => Sys2Proof.Machine.execEvCopyArrival op s
  | .evSlotOpen asid pa launch => Sys2Proof.Machine.execEvSlotOpen asid pa launch s
  | .evSlotAddition asid pa x launch => Sys2Proof.Machine.execEvSlotAddition asid pa x launch s
  | .evSlotClose asid pa => Sys2Proof.Machine.execEvSlotClose asid pa s
  | .evPairOpStart pair => Sys2Proof.Machine.execEvPairOpStart pair s
  | .evRowInjection pair => Sys2Proof.Machine.execEvRowInjection pair s
  | .evPairOpRetire pair => Sys2Proof.Machine.execEvPairOpRetire pair s
  | .evTokenHop die idx => Sys2Proof.Machine.execEvTokenHop die idx s
  | .evBurstQuietClose pair => Sys2Proof.Machine.execEvBurstQuietClose pair s
  | .evBurstTimeLimit pair => Sys2Proof.Machine.execEvBurstTimeLimit pair s
  | .evTokenRelease pair => Sys2Proof.Machine.execEvTokenRelease pair s
  | .evRampStep cluster => Sys2Proof.Machine.execEvRampStep cluster s
  | .evControllerPeriod die inp => Sys2Proof.Machine.execEvControllerPeriod die inp s
  | .evThermalTripWarning die cluster => Sys2Proof.Machine.execEvThermalTripWarning die cluster s
  | .evThermalStop die cluster => Sys2Proof.Machine.execEvThermalStop die cluster s
  | .evMarginMeasurement island marg => Sys2Proof.Machine.execEvMarginMeasurement island marg s
  | .evTimingReplay island => Sys2Proof.Machine.execEvTimingReplay island s
  | .evReplayRateStep island raise step => Sys2Proof.Machine.execEvReplayRateStep island raise step s
  | .evReplayThrottle island step => Sys2Proof.Machine.execEvReplayThrottle island step s
  | .evL1LineRefresh cluster line => Sys2Proof.Machine.execEvL1LineRefresh cluster line s
  | .evVersionStep op => Sys2Proof.Machine.execEvVersionStep op s
  | .evBindingRelease idx => Sys2Proof.Machine.execEvBindingRelease idx s
  | .miNop => Sys2Proof.Machine.execMiNop s
  | .miFetch o => Sys2Proof.Machine.execMiFetch o s
  | .miField o => Sys2Proof.Machine.execMiField o s
  | .miBox o => Sys2Proof.Machine.execMiBox o s
  | .miSort o => Sys2Proof.Machine.execMiSort o s
  | .miSelect o => Sys2Proof.Machine.execMiSelect o s
  | .miPush o => Sys2Proof.Machine.execMiPush o s
  | .miPop o => Sys2Proof.Machine.execMiPop o s
  | .miTri o => Sys2Proof.Machine.execMiTri o s
  | .miCaps o => Sys2Proof.Machine.execMiCaps o s
  | .miCurve o => Sys2Proof.Machine.execMiCurve o s
  | .miXform o => Sys2Proof.Machine.execMiXform o s
  | .miPopx => Sys2Proof.Machine.execMiPopx s
  | .miAccept => Sys2Proof.Machine.execMiAccept s
  | .miTerm => Sys2Proof.Machine.execMiTerm s
  | .miBr o => Sys2Proof.Machine.execMiBr o s
  | .miLoop o => Sys2Proof.Machine.execMiLoop o s
  | .miSetb o => Sys2Proof.Machine.execMiSetb o s
  | .miStb o => Sys2Proof.Machine.execMiStb o s
  | .miYield o => Sys2Proof.Machine.execMiYield o s
  | .evBudgetExhausted wave lane => Sys2Proof.Machine.execEvBudgetExhausted wave lane s
  | .evProgramStart die => Sys2Proof.Machine.execEvProgramStart die s
  | .evSend die f => Sys2Proof.Machine.execEvSend die f s
  | .evRecv die f => Sys2Proof.Machine.execEvRecv die f s
  | .evRrs die f => Sys2Proof.Machine.execEvRrs die f s
  | .evRrw die f => Sys2Proof.Machine.execEvRrw die f s
  | .evCopy die f => Sys2Proof.Machine.execEvCopy die f s
  | .evWait die cond b off thr => Sys2Proof.Machine.execEvWait die cond b off thr s
  | .evPelotonLoop die j count => Sys2Proof.Machine.execEvPelotonLoop die j count s
  | .evEndl die j => Sys2Proof.Machine.execEvEndl die j s
  | .evPeer die dst x m j imm => Sys2Proof.Machine.execEvPeer die dst x m j imm s
  | .evSrk die key => Sys2Proof.Machine.execEvSrk die key s
  | .evDone die b off inc => Sys2Proof.Machine.execEvDone die b off inc s
  | .evStepx die b off => Sys2Proof.Machine.execEvStepx die b off s
  | .evMessageArrival die msg => Sys2Proof.Machine.execEvMessageArrival die msg s
  | .evAbortFlit die tag => Sys2Proof.Machine.execEvAbortFlit die tag s
  | .evLinkStop die link on => Sys2Proof.Machine.execEvLinkStop die link on s
  | .evDoorbell q v src => Sys2Proof.Machine.execEvDoorbell q v src s
  | .evLaunchEntry q => Sys2Proof.Machine.execEvLaunchEntry q s
  | .evTapeRun q => Sys2Proof.Machine.execEvTapeRun q s
  | .evFrameMark q => Sys2Proof.Machine.execEvFrameMark q s
  | .evLaunchConditionsHold q j => Sys2Proof.Machine.execEvLaunchConditionsHold q j s
  | .evPlaceGang => Sys2Proof.Machine.execEvPlaceGang s
  | .evClusterDrain q => Sys2Proof.Machine.execEvClusterDrain q s
  | .evPreemptionComplete gang => Sys2Proof.Machine.execEvPreemptionComplete gang s
  | .evPendingLaunchAppend wave => Sys2Proof.Machine.execEvPendingLaunchAppend wave s
  | .evBackgroundBudgetReached q => Sys2Proof.Machine.execEvBackgroundBudgetReached q s
  | .evWorkgroupRetire wg => Sys2Proof.Machine.execEvWorkgroupRetire wg s
  | .evLaunchRetire launch => Sys2Proof.Machine.execEvLaunchRetire launch s
  | .evSplinter die v => Sys2Proof.Machine.execEvSplinter die v s
  | .evPstatRead die => Sys2Proof.Machine.execEvPstatRead die s
  | .evQcmdEnable q src => Sys2Proof.Machine.execEvQcmdEnable q src s
  | .evQcmdDisable q src => Sys2Proof.Machine.execEvQcmdDisable q src s
  | .evQcmdSuspend q src => Sys2Proof.Machine.execEvQcmdSuspend q src s
  | .evQcmdKill q src => Sys2Proof.Machine.execEvQcmdKill q src s
  | .evKilll lnch src => Sys2Proof.Machine.execEvKilll lnch src s
  | .evKeyLoad v src => Sys2Proof.Machine.execEvKeyLoad v src s
  | .evPflush die v => Sys2Proof.Machine.execEvPflush die v s
  | .evPstepWrite die v src => Sys2Proof.Machine.execEvPstepWrite die v src s
  | .evRegisterWrite die off size v src => Sys2Proof.Machine.execEvRegisterWrite die off size v src s
  | .evHostBarAccess port bar off acc => Sys2Proof.Machine.execEvHostBarAccess port bar off acc s
  | .evPeerAccess module addr acc => Sys2Proof.Machine.execEvPeerAccess module addr acc s
  | .evLinkStateChange host idx up => Sys2Proof.Machine.execEvLinkStateChange host idx up s
  | .evRead die off => Sys2Proof.Machine.execEvRead die off s
  | .evWrite die off v => Sys2Proof.Machine.execEvWrite die off v s
  | .evResync => Sys2Proof.Machine.execEvResync s
  | .evQuote nonce => Sys2Proof.Machine.execEvQuote nonce s
  | .evCert => Sys2Proof.Machine.execEvCert s
  | .evColdReset => Sys2Proof.Machine.execEvColdReset s
  | .evWarmReset => Sys2Proof.Machine.execEvWarmReset s
  | .evPortRetrain port => Sys2Proof.Machine.execEvPortRetrain port s
  | .evRelease => Sys2Proof.Machine.execEvRelease s
  | .evKill lnch => Sys2Proof.Machine.execEvKill lnch s
  | .evExtend j digest => Sys2Proof.Machine.execEvExtend j digest s
  | .evFirmwareVerify image version keyDigest modulus exponent sig => Sys2Proof.Machine.execEvFirmwareVerify image version keyDigest modulus exponent sig s
  | .evBringupStep ok => Sys2Proof.Machine.execEvBringupStep ok s
  | .evZeroFill idx => Sys2Proof.Machine.execEvZeroFill idx s
  | .evModeSwitchComplete core => Sys2Proof.Machine.execEvModeSwitchComplete core s
  | .evSplinterDone die => Sys2Proof.Machine.execEvSplinterDone die s
  | .evPacketArrival core asid line => Sys2Proof.Machine.execEvPacketArrival core asid line s
  | .evBadFrame frame => Sys2Proof.Machine.execEvBadFrame frame s
  | .evCoreCycle core => Sys2Proof.Machine.execEvCoreCycle core s
  | .evModuleReset => Sys2Proof.Machine.execEvModuleReset s

end Sys2Proof.Machine
end

