-- ==== Sys2Proof/Machine/Issue.lean ====
section
/-! DEFINITION. The issue turn (R22 to R32, R75 to R85, R104, R137, R427): chains as fetched and decoded, keys, picks, pending traps; and the module's other agents, whose turn comes when no schedule is given. -/

namespace Sys2Proof.Machine

/-- A word of a chain as decoded: its address, its bits, its instruction, the payloads of its LITs and the LITs as fetched (R30). -/
structure CWord where
  addr : DWord
  raw  : Word
  inst : Instr
  lits : List (BitVec 25)
  litw : List Word
  deriving DecidableEq, Repr

/-- Lanes that stand at one PC with one window base (R79). -/
structure Key where
  pc    : DWord
  wb    : Nat
  lanes : Mask
  deriving DecidableEq, Repr

/-- Words of the chain from an address on, at most n (R22): up to the first with C = 0; or the code of a fetch fault (R426). -/
def Device.fetchChain (d : Device) (core asid : Nat) (pc : DWord) : Nat → Except (BitVec 8) (List Word)
  | 0 => .ok []
  | n + 1 =>
    match Device.fetchWord d core asid pc with
    | .error c => .error c
    | .ok w =>
      if w.getLsbD 31 then
        match Device.fetchChain d core asid (pc + 4) n with
        | .error c => .error c
        | .ok r => .ok (w :: r)
      else .ok [w]

/-- The slot of a code address (R20). -/
def slotOf (pc : DWord) : Nat := pc.toNat % 12 / 4

/-- Is a word a LIT (R29). -/
def isLit (w : Word) : Bool := bitsOf w.toNat 30 25 == 0x3F

/-- The code of a decode fault (R28). -/
def faultCode (f : DecodeFault) : BitVec 8 :=
  match f with
  | .illegalInstruction => 0x01
  | .illegalFunction => 0x02
  | .illegalOperand => 0x03

/-- The decode fault of one word (R28): `lead` says that only LITs stand before it in its chain, n is the number of LITs that follow it. -/
noncomputable def wordFault (lead : Bool) (a : DWord) (w : Word) (n : Nat) : Option (BitVec 8) :=
  if (slotOf a == 2 && w.getLsbD 31) || (lead && isLit w) then some 0x01
  else match decodeWord w with
    | .error f => some (faultCode f)
    | .ok _ => if !isLit w && !litCountOk w n then some 0x03 else none

/-- The decode fault of the lowest slot of a chain that holds one (R28). -/
noncomputable def chainFault (lead : Bool) (a : DWord) : List Word → Option (BitVec 8)
  | [] => none
  | w :: r =>
    match wordFault lead a w (r.takeWhile isLit).length with
    | some c => some c
    | none => chainFault (lead && isLit w) (a + 4) r

/-- The words of a chain with the LITs that follow each (R30); first, the LITs that have no word before them. -/
noncomputable def chainWords (a : DWord) : List Word → List Word × List CWord
  | [] => ([], [])
  | w :: r =>
    let (ls, cs) := chainWords (a + 4) r
    if isLit w then (w :: ls, cs)
    else match decodeWord w with
      | .ok i => ([], ⟨a, w, i, ls.map (fun x => x.extractLsb' 0 25), ls⟩ :: cs)
      | .error _ => ([], cs)

/-- Do pipes suffice: two ALU words, every other pipe once (R23, R80). -/
def pipesFit (ps : List Pipe) : Bool :=
  ps.count .alu ≤ 2 && ps.count .vs ≤ 1 && ps.count .sc ≤ 1 && ps.count .mem ≤ 1 && ps.count .eng ≤ 1

/-- The pipes of a chain's words. -/
def chainPipes (cs : List CWord) : List Pipe := cs.map (fun c => pipeOf (bitsOf c.raw.toNat 30 25))

/-- What the words of a chain read and write, through a window base. -/
def Device.chainUses (d : Device) (w : Wave) (wb : Nat) (cs : List CWord) : List (List RegId × List RegId) :=
  cs.map (fun c => Instr.uses d w wb c.inst)

/-- Do two lists share a member. -/
def meets (a b : List RegId) : Bool := a.any (fun x => b.contains x)

/-- Do two of a list's sets share a member. -/
def anyMeets : List (List RegId) → Bool
  | [] => false
  | a :: r => r.any (fun b => meets a b) || anyMeets r

/-- The registers that a word of a chain writes, as far as they are known: a group that a scalar decides is not while that scalar has a write to come, for which the chain is held (R24, R82). -/
def Device.knownWrites (d : Device) (w : Wave) (wb : Nat) (c : CWord) : List RegId :=
  let ws := (Instr.uses d w wb c.inst).2
  if (Instr.groupFrom c.inst).any (Wave.writing w) then ws.filter (fun x => !x.grouped) else ws

/-- Has a chain a conflict (R23 to R25): of pipes, of writes, or of control transfers. -/
def Device.chainConflict (d : Device) (w : Wave) (wb : Nat) (cs : List CWord) : Bool :=
  !pipesFit (chainPipes cs) || anyMeets (cs.map (Device.knownWrites d w wb))
  || (cs.filter (fun c => isTransfer c.raw)).length ≥ 2

/-- The chain of a key: its words and the address after it; or the trap code and TRPA of a fetch fault (R426) or a decode fault (R28). -/
noncomputable def State.chainAt (s : State) (u : Nat) (k : Key) : Except (BitVec 8 × DWord) (List CWord × DWord) :=
  let w := Device.wave s.pre u
  match Device.fetchChain s.pre w.core (Device.asidOf s.pre w) k.pc (3 - slotOf k.pc) with
  | .error c => .error (c, k.pc)
  | .ok ws =>
    match chainFault true k.pc ws with
    | some c => .error (c, 0)
    | none =>
      let cs := (chainWords k.pc ws).2
      if Device.chainConflict s.pre w k.wb cs then .error (0x04, 0) else .ok (cs, k.pc + BitVec.ofNat 64 (4 * ws.length))

/-- Adds a lane to the keys (R79); in handler mode keys form by PC alone. -/
def keyAdd (handler : Bool) (pc : DWord) (wb l : Nat) : List Key → List Key
  | [] => [⟨pc, wb, 1#64 <<< l⟩]
  | k :: r =>
    if k.pc == pc && (handler || k.wb == wb) then { k with lanes := k.lanes ||| (1#64 <<< l) } :: r
    else k :: keyAdd handler pc wb l r

/-- The keys of a wave (R79). -/
def Wave.keys (w : Wave) : List Key :=
  (lanesOf (Wave.live w &&& ~~~(Wave.waits w))).foldl (fun ks l => keyAdd w.handler (w.pcs.getD l 0) (w.wbs.getD l 0) l ks) []

/-- The population of a key. -/
def Key.size (k : Key) : Nat := (lanesOf k.lanes).length

/-- Does a key win over another on population, ties to the lower PC, then to the lower WB (R79). -/
def Key.beats (a b : Key) : Bool :=
  a.size > b.size || (a.size == b.size && (a.pc.toNat < b.pc.toNat || (a.pc == b.pc && a.wb < b.wb)))

/-- The age of a key (R84). -/
def Wave.keyAge (w : Wave) (k : Key) : Nat := (lanesOf k.lanes).foldl (fun m l => max m (w.ages.getD l 0)) 0

/-- Runs one word of the current chain. -/
def State.runWord (s : State) (c : CWord) : State :=
  let s := { s with ctx := { s.ctx with wordPc := c.addr, word := c.raw, lits := c.lits, raw := c.litw } }
  match exec c.inst s with
  | .next t => t
  | .fault _ => s
  | .refused _ => s

/-- Runs words while none stops, in slot order: of two that draw stochastic counts (R69), the lower slot's takes the lower counts (DESIGN CHOICE 67: R157 orders the picks of a turn only). -/
def State.runWords (s : State) (cs : List CWord) : State :=
  cs.foldl (fun s c => if s.ctx.status == .ok then State.runWord s c else s) s

/-- Is a chain stopped by a trap, other than that of `brk` and `trap`. -/
def IssueSt.isHeld (x : IssueSt) : Bool :=
  match x with
  | .held _ => true
  | _ => false

/-- What stops a chain of several words: a word that is held; else the lowest slot's trap (R481, R79). -/
def State.stopOf (s : State) (cs : List CWord) : Option State :=
  let rs := (cs.filter (fun c => !isSoftTrap c.raw)).map (fun c => State.runWord s c)
  match rs.find? (fun t => t.ctx.status.isHeld) with
  | some t => some t
  | none => rs.find? (fun t => t.ctx.status == .trapped)

/-- The last-read bits of a chain's words act before any of them writes (R101, R104). -/
def State.lastReads (s : State) (cs : List CWord) : State :=
  (cs.flatMap (fun c => lastNames c.raw)).foldl (fun s n => State.lastRead s 1 n) s

/-- Does a word charge a frame (R130). -/
def chargesFrame (i : Instr) : Bool :=
  match i with
  | .call _ => true
  | .calliS _ => true
  | .calliV _ => true
  | _ => false

/-- The end of a chain's issue (R104, R88, R481): room for what it holds, under QUOTA as the turn's first pick has left it, then the watchdog. `charged` is the device as charged, `spent` says that the watchdog has run out. -/
def State.judge (s t : State) (charged : Device) (spent : Bool) : State :=
  let w := Device.wave s.base s.ctx.wave
  if Wave.heldUnits (Device.wave charged s.ctx.wave) > w.quota then
    if Wave.canSpill w then State.hold t .room else State.trap t 0x0B s.ctx.lanes 0
  else if spent then State.trap t 0x0C s.ctx.lanes 0
  else t

/-- Issues a chain whose registers are ready (R23, R25): every word but the control transfer, then the transfer; a `brk` or `trap` has its effect later (R435). -/
def State.runChain (s : State) (cs : List CWord) : State :=
  match (if cs.length ≤ 1 then none else State.stopOf s cs) with
  | some t => t
  | none =>
    let wd := State.watchdog s cs.length
    let spent := wd.ctx.status == .trapped
    let s0 := if spent then s else wd
    let s0 := if cs.length ≤ 1 then s0 else State.lastReads s0 cs
    let a := State.runWords s0 (cs.filter (fun c => !isTransfer c.raw))
    let last := cs.find? (fun c => isTransfer c.raw)
    let t := match last with
      | none => a
      | some c => if isSoftTrap c.raw || a.ctx.status != .ok then a else State.runWord a c
    let charge := match last with
      | none => false
      | some c => chargesFrame c.inst
    if t.ctx.status != .ok then t else State.judge s t (if charge then t.dev else a.dev) spent

/-- The frames that a chain waits for: those of a `ret`'s lanes, or the new frame of a call. -/
def Wave.outFrames (w : Wave) (k : Key) (cs : List CWord) (st : IssueSt) : List (Nat × Bool) :=
  let out (fs : List Nat) : List (Nat × Bool) := (fs.filter (fun f => Wave.frameOut w f)).map (fun f => (f, true))
  match st with
  | .held (.frame f) => out [f]
  | .held _ => cs.flatMap (fun c => match c.inst with
    | .ret _ => out ((lanesOf k.lanes).map (fun l => w.wbs.getD l 0))
    | _ => [])
  | _ => []

/-- Does a refill wait for room that no candidate can give (R137). -/
def Device.refillStuck (d : Device) (u : Nat) (e : Nat × Bool) : Bool :=
  Wave.refillOver (Device.wave d u) e.1 e.2 && !Wave.canSpill (Device.wave d u)

/-- A key with its chain and the machine as the chain would leave it. -/
structure Trial where
  key   : Key
  words : List CWord
  out   : State
  deriving DecidableEq, Repr

/-- The items that a key's chain waits for (R125). -/
def Wave.needs (w : Wave) (d : Device) (t : Trial) : List (Nat × Bool) :=
  ((Device.chainUses d w t.key.wb t.words).flatMap (fun u => u.1 ++ u.2)).filterMap (fun id => Wave.outItem w id)
  ++ Wave.outFrames w t.key t.words t.out.ctx.status

/-- The chain of a key enters issue: what its words see. -/
def State.enter (s : State) (u : Nat) (defer : Bool) (k : Key) (next : DWord) : State :=
  { s with dev := s.base
           ctx := { Ctx.idle with wave := u, lanes := k.lanes, wb := k.wb, chainPc := k.pc, nextPc := next, defer := defer } }

/-- Tries a key's chain (R79, R82, R125, R137): what its issue would leave. The PC of the key's lanes moves past the chain as it issues, that of a lane which the chain makes WAITING too: its frame or save shows the address behind the chain, and what a handler writes there is where the lane goes on when it is released (DESIGN CHOICE 80: R74 calls PC the next chain, R97 sets it at the release). -/
noncomputable def State.tryKey (s : State) (u : Nat) (defer : Bool) (k : Key) : Trial :=
  let w := Device.wave s.pre u
  match State.chainAt s u k with
  | .error (c, a) => ⟨k, [], State.trap (State.enter s u defer k k.pc) c k.lanes a⟩
  | .ok (cs, next) =>
    let s := State.enter s u defer k next
    let ids := (Device.chainUses s.pre w k.wb cs).flatMap (fun x => x.1 ++ x.2)
    let items := ids.filterMap (fun id => Wave.outItem w id)
    if (k.lanes &&& w.blocked) != 0 then ⟨k, cs, State.hold s .short⟩
    else if ids.any (Wave.writing w) then ⟨k, cs, State.hold s .long⟩
    else if !items.isEmpty then
      ⟨k, cs, if items.any (fun e => Device.refillStuck s.pre u e) then State.trap s 0x0B k.lanes 0 else State.hold s .long⟩
    else
      let t := State.runChain (State.mapWave s (fun w => Wave.setPcs w k.lanes (fun _ => next))) cs
      if (Wave.outFrames w k cs t.ctx.status).any (fun e => Device.refillStuck s.pre u e) then ⟨k, cs, State.trap s 0x0B k.lanes 0⟩
      else ⟨k, cs, t⟩

/-- Is a key issuable (R79): held by nothing but want of room (R104). -/
def Trial.issuable (t : Trial) : Bool :=
  match t.out.ctx.status with
  | .held .room => true
  | .held _ => false
  | _ => true

/-- How a key stands; of a held one, also the items whose refill it waits for (R125, R136). -/
def Trial.stalls (t : Trial) : List Stall :=
  match t.out.ctx.status with
  | .held .room => [.room, .ready]
  | .held x => x :: (Wave.needs (Device.wave t.out.pre t.out.ctx.wave) t.out.pre t).map (fun e => .refill e.1 e.2)
  | _ => [.ready]

/-- The trials of a wave's keys. -/
noncomputable def State.examine (s : State) (u : Nat) (defer : Bool) : List Trial :=
  (Wave.keys (Device.wave s.pre u)).map (fun k => State.tryKey s u defer k)

/-- The key that wins (R79). -/
def best (ts : List Trial) : Option Trial :=
  ts.foldl (fun m t => match m with
    | none => some t
    | some x => if t.key.beats x.key then some t else some x) none

/-- The oldest key (R85). -/
def oldest (w : Wave) (ts : List Trial) : Option Trial :=
  ts.foldl (fun m t => match m with
    | none => some t
    | some x =>
      let a := Wave.keyAge w t.key
      let b := Wave.keyAge w x.key
      if a > b || (a == b && t.key.beats x.key) then some t else some x) none

/-- The first pick (R79, R85): K is the number of keys of the wave. -/
def firstPick (w : Wave) (ts : List Trial) : Option Trial :=
  let can := ts.filter Trial.issuable
  if can.any (fun t => Wave.keyAge w t.key + ts.length ≥ 64) then oldest w can else best can

/-- May two chains issue in one turn (R80). -/
def State.together (s : State) (u : Nat) (f g : Trial) : Bool :=
  let w := Device.wave s.pre u
  let a := Device.chainUses s.pre w f.key.wb f.words
  let b := Device.chainUses s.pre w g.key.wb g.words
  let reads (x : List (List RegId × List RegId)) : List RegId := (x.flatMap (fun e => e.1 ++ e.2)).filter RegId.shared
  let writes (x : List (List RegId × List RegId)) : List RegId := (x.flatMap (fun e => e.2)).filter RegId.shared
  pipesFit (chainPipes f.words ++ chainPipes g.words) && !meets (writes a) (reads b) && !meets (writes b) (reads a)

/-- The `brk` or `trap` of a chain. -/
def softWord (cs : List CWord) : Option CWord := cs.find? (fun c => isSoftTrap c.raw)

/-- The exception of a `brk` or `trap` at the boundary (R435). -/
def State.takeSoft (s : State) (cs : List CWord) (d : Device) : Device :=
  match softWord cs with
  | none => d
  | some c => (State.runWord { s with dev := d, ctx := { s.ctx with status := .ok } } c).dev

/-- The exception of the first pick's `brk` or `trap` waits behind a trap that the second pick raised (R427). -/
def State.deferSoft (s : State) (cs : List CWord) (d : Device) : Device :=
  match softWord cs with
  | none => d
  | some c =>
    let u := s.ctx.wave
    let fn := bitsOf c.raw.toNat 4 0
    let p : PTrap := ⟨.fixed, if fn == 5 then 0x10 else 0x11, BitVec.ofNat 8 (bitsOf c.raw.toNat 24 17), false, s.ctx.lanes, s.ctx.lanes,
      s.ctx.nextPc, s.ctx.wb, 0⟩
    match Tbl.get? d.waves u with
    | some w => if w.ended then d else Device.setWave d u { w with ptraps := w.ptraps ++ [p] }
    | none => d

/-- What a turn of a wave leaves (R79 to R81): the device, the lanes that issued, whether a chain yields. -/
structure TurnOut where
  dev    : Device
  issued : Mask
  yields : Bool
  deriving DecidableEq, Repr

/-- The second pick after a first one has left the device as it is (R80, R81): the second chain tried again on it; none where it does not issue. -/
noncomputable def State.secondPick (s : State) (u : Nat) (defer : Bool) (f : Trial) (d : Device) (ts : List Trial) : Option Trial :=
  match best (ts.filter (fun t => Trial.issuable t && t.key != f.key)) with
  | none => none
  | some g =>
    if State.together s u f g then
      let r := State.tryKey { s with base := d } u defer g.key
      if r.out.ctx.status.isHeld then none else some r
    else none

/-- Does a chain hold an `rte`. -/
def Trial.leaves (t : Trial) : Bool := t.words.any (fun c => match c.inst with
  | .rte _ => true
  | _ => false)

/-- The device that an issued pair leaves, the exception of each chain's `brk` or `trap` last (R435); where the second one raised a trap the first one's exception waits (R427). -/
def State.pairOut (f g : Trial) (dev : Device) : TurnOut :=
  if g.out.ctx.status == .trapped then ⟨State.deferSoft f.out f.words dev, f.key.lanes, f.out.ctx.yields⟩
  else ⟨State.takeSoft g.out g.words (State.takeSoft f.out f.words dev), f.key.lanes ||| g.key.lanes, f.out.ctx.yields || g.out.ctx.yields⟩

/-- The picks of a wave's issue turn (R79 to R81, R435). A handler's chain that issues beside an `rte` acts in handler mode, before the `rte` leaves it; its trap is one of handler mode (DESIGN CHOICE 81). -/
noncomputable def State.picks (s : State) (u : Nat) (defer : Bool) (ts : List Trial) : TurnOut :=
  match firstPick (Device.wave s.pre u) ts with
  | none => ⟨s.base, 0, false⟩
  | some f =>
    match f.out.ctx.status with
    | .trapped => ⟨f.out.dev, 0, false⟩
    | .held _ =>
      match State.secondPick s u defer f s.base ts with
      | none => ⟨s.base, 0, false⟩
      | some g => ⟨State.takeSoft g.out g.words g.out.dev, if g.out.ctx.status == .ok then g.key.lanes else 0, g.out.ctx.yields⟩
    | .ok =>
      match State.secondPick s u defer f (if Trial.leaves f then s.base else f.out.dev) ts with
      | none => ⟨State.takeSoft f.out f.words f.out.dev, f.key.lanes, f.out.ctx.yields⟩
      | some g =>
        if Trial.leaves f && g.out.ctx.status != .trapped then
          State.pairOut f g (State.tryKey { s with base := g.out.dev } u defer f.key).out.dev
        else State.pairOut f g g.out.dev

/-- Ages after a turn (R84): lanes that issued restart; lanes of an issuable key that did not issue grow. -/
def Wave.aged (w : Wave) (can issued : Mask) : Wave :=
  { w with ages := mkLanes (fun l =>
      if issued.getLsbD l then 0 else if can.getLsbD l then min 127 (w.ages.getD l 0 + 1) else w.ages.getD l 0) }

/-- The first key by PC, then by WB. -/
def lowestKey (ts : List Trial) : Option Trial :=
  ts.foldl (fun m t => match m with
    | none => some t
    | some x => if t.key.pc.toNat < x.key.pc.toNat || (t.key.pc == x.key.pc && t.key.wb < x.key.wb) then some t else some x) none

/-- Takes a pending trap (R427, R140): the key that it describes is found for a window fault; those not taken stay pending. -/
def State.takePending (s : State) (u : Nat) (p : PTrap) (ts : List Trial) : Device :=
  let w := Device.wave s.pre u
  let d := Device.setWave s.base u { w with ptraps := w.ptraps.erase p }
  let would := (firstPick w ts).or (best ts)
  let key (t : Option Trial) : Key := match t with
    | some t => t.key
    | none => ⟨0, 0, 0⟩
  match p.src with
  | .fixed => Device.trapEntry d u p.code p.trlm p.tram p.trpc p.trwb p.trpa p.num
  | .spill =>
    let k := key would
    Device.trapEntry d u p.code 0 k.lanes k.pc k.wb p.trpa 0
  | .refill fr i =>
    match lowestKey (ts.filter (fun t => (Wave.needs w s.pre t).contains (i, fr))) with
    | some t => Device.trapEntry d u p.code t.key.lanes t.key.lanes t.key.pc t.key.wb p.trpa 0
    | none =>
      let k := key would
      Device.trapEntry d u p.code 0 k.lanes k.pc k.wb p.trpa 0

/-- A resident wave examined in a cycle: its pending trap, the trials of its keys. -/
structure Exam where
  u      : Nat
  wave   : Wave
  due    : Option PTrap
  trials : List Trial
  deriving DecidableEq, Repr

/-- Has an examined wave an issuable key (R78, R140). -/
def Exam.ready (e : Exam) : Bool := e.due.isSome || e.trials.any Trial.issuable

/-- How an examined wave's keys stand. -/
def Exam.stalls (e : Exam) : List Stall := (if e.due.isSome then [.ready] else []) ++ e.trials.flatMap Trial.stalls

/-- The wave that issues (R78): from the slot after the one that issued last; one that has just entered its slot takes no part (R75). -/
def chooseExam (last : Nat) (es : List Exam) : Option Exam :=
  ((List.range 8).map (fun i => (last + 1 + i) % 8)).findSome? (fun slot =>
    es.find? (fun e => e.wave.active == some slot && !e.wave.fresh && e.ready))

/-- The wave whose boundary comes in a turn: one that is being pre-empted takes its pending trap wherever it stands (R427, R440); else the wave that issues. -/
def turnExam (last : Nat) (es : List Exam) : Option Exam :=
  (es.find? (fun e => e.wave.preempt && e.due.isSome)).or (chooseExam last es)

/-- Records how the keys of a wave stand. -/
def Device.noteStalls (d : Device) (e : Exam) : Device :=
  match Tbl.get? d.waves e.u with
  | some w => if w.ended then d else Device.setWave d e.u { w with stalls := e.stalls, fresh := false }
  | none => d

/-- The waves that a core's issue stage examines: resident, not ended; one that is being pre-empted only for its pending trap, which comes first (R427). -/
noncomputable def State.exams (s : State) (core : Nat) (defer : Bool) : List Exam :=
  ((Device.wavesOn s.pre core).filter (fun e => !e.2.preempt || (Wave.duePending e.2).isSome)).map (fun e =>
    ⟨e.1, e.2, Wave.duePending e.2, State.examine s e.1 defer⟩)

/-- The issue turn of the chosen wave: its pending trap, or its picks. -/
noncomputable def State.issue (s : State) (defer : Bool) (e : Exam) : TurnOut :=
  match e.due with
  | some p => ⟨State.takePending s e.u p e.trials, 0, false⟩
  | none => State.picks s e.u defer e.trials

/-- After the picks (R84, R95): ages; a wave that yields gives its slot up where a ready pending wave exists. -/
def Device.afterPicks (d : Device) (core : Nat) (e : Exam) (t : TurnOut) : Device :=
  let can := (e.trials.filter Trial.issuable).foldl (fun m t => m ||| t.key.lanes) 0
  let d := match Tbl.get? d.waves e.u with
    | some w => Device.setWave d e.u (Wave.aged w can t.issued)
    | none => d
  let d := if t.issued == 0 then d else Device.setCore d core { Device.core d core with last := e.wave.active.getD 0 }
  if t.yields then
    match (Device.wave d e.u).active with
    | some slot => Device.swapOut d e.u slot
    | none => d
  else d

/-- The Cassette of a core looks at its waves as a cycle leaves them (R134 to R136); that of a wave being pre-empted starts nothing (R146). -/
def Device.cassCycle (d : Device) (core : Nat) : Device :=
  Device.noteAhead (((Device.wavesOn d core).filter (fun e => !e.2.preempt)).foldl (fun d e => Device.cassLook d e.1) d) core

/-- A core's waves as they stand at the start of a cycle, their keys examined (R75, R77). -/
noncomputable def State.look (s : State) (core : Nat) : State :=
  { s with dev := (State.exams s core false).foldl (fun d e => Device.setWave d e.u { Device.wave d e.u with stalls := e.stalls }) s.dev }

/-- Begins a step: the module as it stands is what words read and what a trap returns to. -/
def State.begin_ (s : State) : State := { s with pre := s.dev, base := s.dev, ctx := Ctx.idle }

/-- One cycle of a core (R78): how the keys of its waves stand is noted, for what other waves' words ask of it (R255); at most one wave issues; then the Cassette looks and the cycle is counted. -/
noncomputable def State.turn (s : State) (core : Nat) (defer : Bool) : State :=
  let s := State.begin_ (State.look s core)
  let es := State.exams s core defer
  let d := match turnExam (Device.core s.pre core).last es with
    | none => es.foldl Device.noteStalls s.base
    | some e =>
      let t := State.issue s defer e
      Device.afterPicks (es.foldl Device.noteStalls t.dev) core e t
  { s with dev := Device.coreCycle (Device.cassCycle d core) core }

/-- Is a row of the table a step of the device: it has no encoding. -/
def Instr.isEvent (i : Instr) : Bool := (encodeNat i).isNone

/-- Does an event come from outside the device's own clocks, or read the sensors: it takes place while every clock is stopped (R310, R453). -/
def Instr.isManagement (i : Instr) : Bool :=
  match i with
  | .evRead _ _ => true
  | .evWrite _ _ _ => true
  | .evResync => true
  | .evQuote _ => true
  | .evCert => true
  | .evColdReset => true
  | .evWarmReset => true
  | .evPortRetrain _ => true
  | .evRelease => true
  | .evKill _ => true
  | .evExtend _ _ => true
  | .evBadFrame _ => true
  | .evControllerPeriod _ _ => true
  | .evModuleReset => true
  | _ => false

/-- One micro-operation of a lane's ray (R344, R345): the FETCH that a resumption asks for first (R373); past the last one the ray ends. A ray that suspends writes a unit of its record instead (R356). -/
noncomputable def State.rayTurn (s : State) (u l : Nat) : Res :=
  let s := { s with ctx := { Ctx.idle with wave := u, lane := l } }
  match Tbl.get? (Device.wave s.dev u).rays l with
  | none => .next s
  | some r =>
    if Ray.writing r then .next (State.mapDev s (fun d => Device.rayStore d u l r))
    else if r.st != .running then .next s
    else match r.rf with
    | some (a, k) => execMiFetch ⟨BitVec.ofNat 4 a, BitVec.ofNat 2 k⟩ s
    | none =>
      if r.mpc ≥ codeLen r.code.image then .next (State.mapDev s (fun d => Device.rayPast d u l r))
      else
        let (d, w) := Device.rayWord s.dev (Device.wave s.dev u) r
        match decodeMicro (BitVec.ofNat 32 w) with
        | some i => exec i { s with dev := d }
        | none => .next s

/-- One tile of a copy (R268), one row of a drain (R295). -/
def Device.tile (d : Device) (id : Nat) : Device :=
  match Device.op? d id with
  | none => d
  | some o =>
    if o.kind.engine == .copy then Device.copyTile d id
    else if o.kind == .mdrain && (Device.pairHead d (pairOf o.core)).map (fun x => x.id) == some id then Device.pairRow d (pairOf o.core) o
    else d

/-- A translation buffer takes an entry of the walk of an address, the one that covers a region of some bits: the leaf, or a table (R203). -/
def Device.tlbFill (d : Device) (unit asid : Nat) (va : DWord) (bits : Nat) : Device :=
  let at_ := va.toNat / 2 ^ bits
  match Device.rootTable d asid with
  | .error _ => d
  | .ok t =>
    match (Device.walkPath d va.toNat walkLevels t).find? (fun e => e.1 == bits) with
    | some (_, pte) =>
      if d.tlbs.any (fun e => e.1 == unit && e.2.asid == asid && e.2.bits == bits && e.2.va == at_) then d
      else { d with tlbs := d.tlbs ++ [(unit, ⟨asid, at_, bits, BitVec.ofNat 64 pte⟩)] }
    | none => d

/-- Is a line in a page that a cluster L1 may hold, of a leaf that a translation buffer of the cluster holds (R203, R231): what memory held before its page was mapped is not taken. The key of that leaf. -/
def Device.l1Leaf (d : Device) (cl line : Nat) : Option Nat :=
  (d.tlbs.find? (fun e =>
    let pte := e.2.pte.toNat
    let base := Device.normPa d (pbits pte 51 8 * 256)
    (e.1 / 8 == cl || e.1 == 256 + cl) && e.1 < 288 && !bitOf pte 1 && base / 2 ^ e.2.bits == 128 * line / 2 ^ e.2.bits
    && Tr.inL1 ⟨128 * line, pbits pte 59 58, pbits pte 57 56, 0⟩)).map (fun e => pbits e.2.pte.toNat 63 60)

/-- A cluster L1 takes the 16-byte units of a line that it does not hold, whole (R231, R225). One without ways takes none (R175). -/
def Device.l1Fill (d : Device) (cl line : Nat) : Device :=
  let c := Device.cluster d cl
  match Device.l1Leaf d cl line with
  | none => d
  | some key =>
    if Cluster.ways c == 0 then d
    else
      let free (u : Nat) : Bool := (List.range 16).all (fun i => !Tbl.has c.l1 (16 * u + i))
      Device.setCluster d cl { c with l1 :=
        (((List.range 8).map (fun i => 8 * line + i)).filter free).foldl (fun t u => Device.l1Unit d (Device.keyTag d key) u t) c.l1 }

/-- Does an address stand in memory outside the module: a host's, or a peer's. -/
def outside (pa : Nat) : Bool := placeOf pa == 4 || placeOf pa ≥ 8

/-- An unfinished word leaves its core (R432): a load is performed, a store enters its cluster L1. -/
def Device.performNext (d : Device) (u idx : Nat) : Device :=
  match (Wave.unfinished (Device.wave d u))[idx]? with
  | some (id, r) => if Tbl.has d.waves u then Device.performPend d u id r true else d
  | none => d

/-- The core whose waves an event examines first (R75, R77). -/
def Instr.looksAt (i : Instr) : Option Nat :=
  match i with
  | .evWaveSwap k _ => some k
  | .evActiveSlotFill k _ => some k
  | _ => none

/-- What one entry of the schedule does. -/
noncomputable def State.act (s : State) (a : Action) : Res :=
  let on (d : Device) : Res := .next { s with dev := d }
  let d := s.dev
  match a with
  | .event i =>
    if !Instr.isEvent i || (d.sys.held && !Instr.isManagement i) then .next s
    else exec i (match Instr.looksAt i with
      | some k => State.look s k
      | none => s)
  | .extWrite pa bs => if outside pa && outside (pa + bs.length) then on (Device.extWrite d pa bs) else .next s
  | .manage => on (State.manage s)
  | .peer m b => on { d with peers := if b then NSet.ins d.peers m else NSet.rem d.peers m }
  | .reach m b => on { d with reach := if b then NSet.ins d.reach m else NSet.rem d.reach m }
  | .memError pa b => on { d with memErr := if b then NSet.ins d.memErr (pa / 8) else NSet.rem d.memErr (pa / 8) }
  | .turn k b => if d.sys.held then .next s else .next (State.turn s k b)
  | .ray u l => if d.sys.held then .next s else State.rayTurn s u l
  | .tile id => if d.sys.held then .next s else on (Device.tile d id)
  | .tlbFill u asid va n => if d.sys.held then .next s else on (Device.tlbFill d u asid va n)
  | .tlbEvict i => if d.sys.held then .next s else on { d with tlbs := d.tlbs.eraseIdx i }
  | .l1Fill c n => if d.sys.held then .next s else on (Device.l1Fill d c n)
  | .l1Writeback c n => if d.sys.held then .next s else on (Device.l1WriteBack d c (fun line => line == n))
  | .l1Evict c n =>
    if d.sys.held then .next s
    else on (Device.l1Clear d c (fun line => line == n))
  | .l2Writeback n => if d.sys.held then .next s else on (Device.l2WriteBack d (fun pa => pa / 128 == n))
  | .icacheEvict k n =>
    if d.sys.held then .next s
    else
      let c := Device.core d k
      on (Device.setCore d k { c with icache := Tbl.del c.icache n })
  | .perform u i => if d.sys.held then .next s else on (Device.performNext d u i)

/-- The step of a Peloton program as an event (R408, R412 to R418). -/
noncomputable def pelotonEvent (die w : Nat) : List Instr :=
  let b (n k : Nat) : BitVec k := BitVec.ofNat k (w / 2 ^ n)
  let f : PData := ⟨b 55 3, b 51 4, b 50 1, b 46 4, b 45 1, b 24 21, b 12 12, b 0 12⟩
  match bitsOf w 63 58 with
  | 1 => [.evSend die f]
  | 2 => [.evRecv die f]
  | 3 => [.evRrs die f]
  | 4 => [.evRrw die f]
  | 5 => [.evCopy die f]
  | 6 => [.evWait die (b 56 2) (b 52 4) (b 32 20) (b 0 32)]
  | 7 => [.evPelotonLoop die (b 56 2) (b 0 32)]
  | 8 => [.evEndl die (b 56 2)]
  | 9 => [.evPeer die (b 56 2) (b 55 1) (b 53 2) (b 51 2) (b 0 32)]
  | 10 => [.evSrk die (b 0 32)]
  | 11 => [.evDone die (b 52 4) (b 32 20) (b 0 32)]
  | 12 => [.evStepx die (b 52 4) (b 32 20)]
  | _ => []

/-- What a wave's own agents may do: its Cassette items, its oldest operations, its rays, its pending launches. -/
noncomputable def waveEvents (u : Nat) (w : Wave) : List Action :=
  let item (fr : Bool) (e : Nat × SlotSt) : List Instr :=
    match e.2 with
    | .resident => []
    | .spilling => [.evSpillComplete u e.1 fr]
    | .spilled => [.evRefill u e.1 fr]
    | .refilling => [.evRefillComplete u e.1 fr]
  let cass := w.win.flatMap (fun e => item false (e.1, e.2.st)) ++ w.frames.flatMap (fun e => item true (e.1, e.2.st))
    ++ (match Wave.nextCand w with
      | some (i, fr) => [.evSpill u i fr]
      | none => [])
  let ops := ([0, 1].filter (fun c => Wave.counter w c != 0)).map (fun c => Instr.evOperationComplete u c)
  (cass ++ ops ++ (if w.launches.isEmpty then [] else [Instr.evPendingLaunchAppend u])).map Action.event
  ++ (w.rays.filter (fun r => r.2.st == .running || Ray.writing r.2)).map (fun r => Action.ray u r.1)

/-- What an operation's engine may do next. -/
noncomputable def opEvents (o : EngOp) : List Action :=
  match o.kind.engine with
  | .copy => [.tile o.id, .event (.evCopyArrival o.id)]
  | .pair =>
    let p := pairOf o.core
    [.event (.evPairOpStart p), .event (.evRowInjection p), .tile o.id, .event (.evPairOpRetire p)]
  | .hash => [.event (.evVersionStep o.id), .event (.evOperationComplete o.wave 4)]
  | .trav => [.event (.evOperationComplete o.wave 5)]
  | .other => []

/-- What may happen to the lines of a cluster L1: a clean one is read again, any one leaves (R231, R233). -/
noncomputable def lineEvents (cl : Nat) (c : Cluster) : List Action :=
  (c.l1.foldl (fun s e => NSet.ins s (e.1 / 128)) []).flatMap (fun n => [.event (.evL1LineRefresh cl n), .l1Evict cl n])

/-- The stops that a die's links may assert or release (R422). -/
noncomputable def stopEvents (d : Device) (die : Nat) : List Action :=
  (List.range 4).flatMap (fun k =>
    if (Device.pel d die).stops.contains k then (if Device.stopFits d die k false then [.event (.evLinkStop die k false)] else [])
    else (if Device.stopFits d die k true then [.event (.evLinkStop die k true)] else []))

/-- What a die's units may do. -/
noncomputable def dieEvents (i : Nat) (x : Die) : List Action :=
  ((match x.pel.running with
    | some p => pelotonEvent i (p.stepAt p.pc)
    | none => if x.pel.queue.isEmpty then [] else [.evProgramStart i])
  ++ (if x.splst == 1 then [Instr.evSplinterDone i] else [])
  ++ (List.range x.power.idle.length).map (fun k => Instr.evTokenHop i k)).map Action.event

/-- What a queue may do. -/
noncomputable def queueEvents (q : Nat) (x : Queue) : List Action :=
  if x.en then
    ([.evLaunchEntry q, .evTapeRun q, .evFrameMark q, .evLaunchConditionsHold q 0, .evLaunchConditionsHold q 1, .evClusterDrain q] : List Instr).map
      Action.event
  else []

/-- One round of the module's own agents, every one that may have something to do once, then a turn of each core with a wave. -/
noncomputable def Device.round (d : Device) (focus : Nat) : List Action :=
  let cores := (d.waves.filter (fun e => !e.2.ended)).foldl (fun l e => NSet.ins l e.2.core) [focus]
  let slots := cores.flatMap (fun k => (List.range 8).flatMap (fun j => [Instr.evWaveSwap k j, .evActiveSlotFill k j]))
  d.queues.flatMap (fun e => queueEvents e.1 e.2)
  ++ (if d.queues.isEmpty && d.saved.isEmpty then [] else [.event .evPlaceGang])
  ++ (slots.map Action.event)
  ++ d.cores.flatMap (fun e => (List.range e.2.queue.length).map (fun j => Action.event (.evEngineDispatch e.1 j)))
  ++ d.ops.flatMap opEvents
  ++ d.clusters.flatMap (fun e => e.2.switching.map (fun x => Action.event (.evModeSwitchComplete (8 * e.1 + x.bank / 8))))
  ++ (List.range d.fills.length).map (fun j => Action.event (.evZeroFill j))
  ++ d.waves.flatMap (fun e => waveEvents e.1 e.2)
  ++ d.orphans.map (fun e => Action.event (.evPendingLaunchAppend e.1))
  ++ (List.range d.pins.length).map (fun j => Action.event (.evBindingRelease j))
  ++ (d.pairs.filter (fun e => e.2.token)).flatMap (fun e =>
      ([.evBurstQuietClose e.1, .evBurstTimeLimit e.1, .evTokenRelease e.1] : List Instr).map Action.event)
  ++ d.clusters.flatMap (fun e => Action.event (.evRampStep e.1) :: lineEvents e.1 e.2)
  ++ d.dies.flatMap (fun e => dieEvents e.1 e.2 ++ stopEvents d e.1)
  ++ d.wgs.flatMap (fun e => [Action.event (.evSuccessorRestart e.1), Action.event (.evWorkgroupRetire e.1)])
  ++ (d.gangs.filter (fun e => e.2.st == .saving)).map (fun e => Action.event (.evPreemptionComplete e.1))
  ++ d.launches.map (fun e => Action.event (.evLaunchRetire e.1))
  ++ (if d.sys.resync.isNone && d.sys.reqs.isEmpty then [] else [.manage])
  ++ cores.map (fun k => Action.turn k false)

/-- One step: the oldest device-register write that has not been acted on; else the next entry of the schedule; else a new round of the module's own agents, whose first entry acts. -/
noncomputable def State.advance (s : State) : Res :=
  let s := State.begin_ s
  match s.dev.inbox with
  | x :: r =>
    let s := { s with dev := { s.dev with inbox := r } }
    .next { s with dev := State.regWrite s x.die x.off x.size x.v x.src }
  | [] =>
    match s.agenda with
    | a :: r => State.act { s with agenda := r } a
    | [] =>
      match Device.round s.dev s.focus with
      | a :: r => State.act { s with agenda := r, focus := (s.focus + 1) % 256 } a
      | [] => .next s

/-- The words that stand beside a word placed for the next fetch: a LIT follows a `movi`, which consumes it (R30); a word with C = 1 is followed by the LIT that it demands, or by `nop`. -/
def besideWord (w : Word) : List Word :=
  let nop : Word := 0x06000008
  let lit : Word := 0x7E000000
  if isLit w then [0x8C000007, w, if w.getLsbD 31 then lit else nop]
  else [w, if w.getLsbD 31 && !litCountOk w 0 then lit else nop, nop]

/-- A wave of one workgroup, placed by itself in the slot that issues next on core 0, with a code line in the instruction cache that starts with the given words (R11, R248): what the host's software does by a launch. -/
def Device.placeLine (d : Device) (ws : List Word) (f : Wave → Wave) : Device :=
  let n := d.uid
  let slot := ((Device.core d 0).last + 1) % 8
  let rec_ : LRec := { LRec.blank with entry := 96, gx := 1, gy := 1, gz := 1, wlim := 4096, quota := 1024 }
  let wave : Wave := { Wave.blank with wg := n + 2, active := some slot, pcs := List.replicate 64 96, wlim := 4096, quota := 1024 }
  let others := d.waves.map (fun e => if e.2.core == 0 && e.2.active == some slot then (e.1, { e.2 with active := none }) else e)
  let bytes := (List.range 24).flatMap (fun i => leBytes 4 (ws.getD i 0x06000008).toNat)
  let c := Device.core d 0
  let d := { d with uid := n + 4, inbox := [], waves := others, sys := { d.sys with held := false } }
  let d := Device.setLaunch d n { Launch.blank with lrec := rec_, next := 1, live := [n + 1], c0 := true, c1 := true }
  let d := Device.setGang d (n + 1) { Gang.blank with launch := n, wgs := [n + 2] }
  let d := Device.setWg d (n + 2) { Workgroup.blank with gang := n + 1, waves := [n + 3] }
  let d := Device.setWave d (n + 3) (f wave)
  Device.setCore d 0 { c with icache := Tbl.put c.icache (icKey 0 1) bytes }

/-- A ray whose program is one micro-operation (R342, R343). -/
def oneRay (w : Word) : Ray :=
  Ray.start 0 ⟨0, zeros 128⟩ ⟨0, leBytes 2 1 ++ zeros 14 ++ leBytes 4 w.toNat⟩ 0 0

/-- The machine with a word placed where the next step fetches: a program word at the PC of a wave, a micro-operation in the program of a ray. -/
noncomputable def State.placeWord (s : State) (nbits w : Nat) : State :=
  let x := BitVec.ofNat 32 w
  if nbits != 32 then s
  else match decodeWord x, decodeMicro x with
    | .error _, some _ =>
      { s with dev := Device.placeLine s.dev [] (fun v => { v with rays := [(0, oneRay x)] }), agenda := [.ray (s.dev.uid + 3) 0] }
    | _, _ => { s with dev := Device.placeLine s.dev (besideWord x) (fun v => v), agenda := [.turn 0 false] }

end Sys2Proof.Machine
end

