-- ==== Sys2Proof/Machine/Step.lean ====
section
/-! DEFINITION. The step of the machine, and a state whose next step runs a given word. -/

namespace Sys2Proof.Machine

/-- One step of the machine. -/
noncomputable def step : State → Host.Outcome State Fault Refusal := State.advance

/-- A state whose very next step fetches and runs the word. -/
noncomputable def State.withFetchWord (s : State) (nbits w : Nat) : State := State.placeWord s nbits w

end Sys2Proof.Machine
end

