-- ==== Sys2Proof/Safety.lean ====
section
/-! DEFINITION. What counts as a safe state and a safe step, and the terms in which claims say what a word did: what a wave's registers show, and the changes of a word that writes registers only. -/

namespace Sys2Proof.Machine

/-- The memory keeps its canonical form: addresses rising, no zero byte listed. -/
def State.Ok (s : State) : Prop :=
  Memory.wf s.dev.mem = true ∧ Memory.wf s.pre.mem = true ∧ Memory.wf s.base.mem = true

/-- The step answers a next state: it neither faults nor refuses. -/
def State.Goes (s : State) : Prop := ∃ t, step s = .next t

/-- The element that a register of a wave shows in a lane (R102). -/
def Wave.elemOf (w : Wave) (id : RegId) (l : Nat) : Elem := optElem (Wave.reg? w id) l

/-- The register that a vector name denotes to the words of the chain (R99). -/
def State.vidOf (s : State) (n : Nat) : RegId := Wave.vid (State.cur s) s.ctx.wb n

/-- A flag as a wave holds it. -/
def Wave.flagOf (w : Wave) (q : Nat) : FReg := w.flags.getD q ⟨false, false⟩

/-- What a word that changes registers of its wave only does: the vector names it reads with their last-read bits (R101), the vector names it writes with each lane's element and whether it leaves them uniform (R103), the scalars, predicates and flags it writes, and by how much it advances the stochastic count (R69). -/
structure Change where
  reads : List (BitVec 1 × Nat) := []
  vecs  : List (Nat × (Nat → Elem) × Bool) := []
  scals : List (Nat × Elem) := []
  preds : List (Nat × (Nat → Bool × Bool)) := []
  flags : List (Nat × FReg) := []
  count : Nat := 0

/-- What a vector register shows in a lane after a change: a written name's new element in the subset's lanes; zero where a last read let the lane die; else what it showed. -/
def Change.vec (c : Change) (s : State) (id : RegId) (l : Nat) : Elem :=
  if s.ctx.lanes.getLsbD l then
    match c.vecs.find? (fun d => State.vidOf s d.1 == id) with
    | some d => d.2.1 l
    | none =>
      if c.reads.any (fun r => r.1 != 0 && State.vidOf s r.2 == id) && !s.ctx.written.contains id then ⟨0, false⟩
      else Wave.elemOf (State.cur s) id l
  else Wave.elemOf (State.cur s) id l

/-- What a scalar holds after a change. -/
def Change.sc (c : Change) (s : State) (n : Nat) : Elem :=
  match c.scals.find? (fun d => d.1 == n) with
  | some d => d.2
  | none => Wave.sc (State.cur s) n

/-- Value and poison of a predicate in a lane after a change; p0 is hard-wired (R109). -/
def Change.pred (c : Change) (s : State) (k l : Nat) : Bool × Bool :=
  let old := ((Wave.pred (State.cur s) k).v.getLsbD l, (Wave.pred (State.cur s) k).p.getLsbD l)
  if k != 0 && s.ctx.lanes.getLsbD l then
    match c.preds.find? (fun d => d.1 == k) with
    | some d => d.2 l
    | none => old
  else old

/-- What a flag holds after a change. -/
def Change.flag (c : Change) (s : State) (q : Nat) : FReg :=
  match c.flags.find? (fun d => d.1 == q) with
  | some d => d.2
  | none => Wave.flagOf (State.cur s) q

/-- A wave with the registers of another: vector registers, scalars, predicates, flags, the stochastic count. -/
def Wave.withRegs (w r : Wave) : Wave :=
  { w with vfix := r.vfix, win := r.win, scal := r.scal, preds := r.preds, flags := r.flags, scount := r.scount }

/-- A state with another device, and another list of the names that the chain has written. -/
def State.withDev (s : State) (d : Device) (written : List RegId) : State := { s with dev := d, ctx := { s.ctx with written := written } }

/-- The whole module, the schedule and the chain are as before, but for the registers of the chain's wave and the list of the names that the chain has written. -/
def OnlyRegs (s t : State) : Prop :=
  t = State.withDev s (Device.setWave s.dev s.ctx.wave (Wave.withRegs (State.cur s) (State.cur t))) t.ctx.written

/-- Every byte of memory reads as before. -/
def SameMemory (s t : State) : Prop := ∀ a, Memory.read t.dev.mem a = Memory.read s.dev.mem a

/-- Nothing but the waves of the module differs, and of the waves only the chain's. -/
def OnlyWave (s t : State) : Prop :=
  t = { s with dev := { s.dev with waves := t.dev.waves } } ∧ ∀ u, u ≠ s.ctx.wave → Device.wave t.dev u = Device.wave s.dev u

/-- The PC of a lane (R74). -/
def Wave.pcOf (w : Wave) (l : Nat) : DWord := w.pcs.getD l 0

/-- The window base of a lane (R74). -/
def Wave.wbOf (w : Wave) (l : Nat) : Nat := w.wbs.getD l 0

/-- Does a frame hold a return entry of a lane (R126). -/
def Wave.inFrame (w : Wave) (f l : Nat) : Bool :=
  match Tbl.get? w.frames f with
  | some x => x.mask.getLsbD l
  | none => false

/-- The state t is s after the change: every register of the wave shows what the change says, nothing else in the machine differs, memory in particular. -/
structure Change.Leads (c : Change) (s t : State) : Prop where
  vec  : ∀ id l, l < 64 → Wave.elemOf (State.cur t) id l = Change.vec c s id l
  sc   : ∀ n, Wave.sc (State.cur t) n = Change.sc c s n
  pred : ∀ k l, l < 64 →
    ((Wave.pred (State.cur t) k).v.getLsbD l, (Wave.pred (State.cur t) k).p.getLsbD l) = Change.pred c s k l
  flag : ∀ q, Wave.flagOf (State.cur t) q = Change.flag c s q
  count : (State.cur t).scount = (State.cur s).scount + BitVec.ofNat 32 c.count
  written : t.ctx.written = (c.vecs.map (fun d => State.vidOf s d.1)).reverse ++ s.ctx.written
  rest : OnlyRegs s t
  mem  : SameMemory s t

/-- The change as the named operations make it: last reads first, then the writes. -/
def State.does (s : State) (c : Change) : State :=
  let s1 := c.reads.foldl (fun t r => State.lastRead t r.1 r.2) s
  let s2 := c.vecs.foldl (fun t d => State.writeV t d.1 d.2.1 d.2.2) s1
  let s3 := c.scals.foldl (fun t d => State.setSc t d.1 d.2) s2
  let s4 := c.preds.foldl (fun t d => State.setPred t d.1 (fun l => (d.2 l).1) (fun l => (d.2 l).2)) s3
  c.flags.foldl (fun t d => State.setFlag t d.1 d.2.v d.2.p) s4

end Sys2Proof.Machine
end

