-- ==== Sys2Proof/Claims/Integer.lean ====
section
/-! DEFINITION. What the statements say of the integer, scalar, move, predicate, cross-lane and reduction words: the result of each word in the manual's own arithmetic (R91, R114 to R122, R148 to R152, R218, R219), as tables that the obligations range over. -/

namespace Sys2Proof.Claim

open Sys2Proof.Machine

/-- The change of a word in format VR: each lane of the subset receives f of its two elements, poisoned when either is (R148). -/
def changeVR (s : State) (o : VR) (f : Word → Word → Word) : Change :=
  { reads := [(o.la, o.a.toNat), (o.lb, o.b.toNat)]
    vecs := [(o.d.toNat, fun l =>
      ⟨f (State.elem s o.a.toNat l).v (State.elem s o.b.toNat l).v, (State.elem s o.a.toNat l).p || (State.elem s o.b.toNat l).p⟩,
      State.unifSrc s o.a.toNat && State.unifSrc s o.b.toNat)] }

/-- A B-source (R33): code 63 reads the literal's bits 31:0, with no poison; another code reads the scalar of that number. -/
def bOperand (s : State) (b : BitVec 6) : Elem := if b.toNat = 63 then ⟨BitVec.ofInt 32 (State.lit s), false⟩ else State.sc s b.toNat

/-- The same word with a B-source (R33). -/
def changeVS (s : State) (o : VS) (f : Word → Word → Word) : Change :=
  { reads := [(o.la, o.a.toNat)]
    vecs := [(o.d.toNat, fun l =>
      ⟨f (State.elem s o.a.toNat l).v (bOperand s o.b).v, (State.elem s o.a.toNat l).p || (bOperand s o.b).p⟩,
      State.unifSrc s o.a.toNat)] }

/-- Format VR with the old destination as a third source. -/
def changeAccVR (s : State) (o : VR) (f : Word → Word → Word → Word) : Change :=
  { reads := [(o.la, o.a.toNat), (o.lb, o.b.toNat)]
    vecs := [(o.d.toNat, fun l =>
      ⟨f (State.elem s o.a.toNat l).v (State.elem s o.b.toNat l).v (State.elem s o.d.toNat l).v,
        (State.elem s o.a.toNat l).p || (State.elem s o.b.toNat l).p || (State.elem s o.d.toNat l).p⟩,
      State.unifSrc s o.a.toNat && State.unifSrc s o.b.toNat && State.unifSrc s o.d.toNat)] }

/-- Format VS with the old destination as a third source. -/
def changeAccVS (s : State) (o : VS) (f : Word → Word → Word → Word) : Change :=
  { reads := [(o.la, o.a.toNat)]
    vecs := [(o.d.toNat, fun l =>
      ⟨f (State.elem s o.a.toNat l).v (bOperand s o.b).v (State.elem s o.d.toNat l).v,
        (State.elem s o.a.toNat l).p || (bOperand s o.b).p || (State.elem s o.d.toNat l).p⟩,
      State.unifSrc s o.a.toNat && State.unifSrc s o.d.toNat)] }

/-- A word of one vector source. -/
def changeVU (s : State) (o : VU) (f : Word → Word) : Change :=
  { reads := [(o.la, o.a.toNat)]
    vecs := [(o.d.toNat, fun l => ⟨f (State.elem s o.a.toNat l).v, (State.elem s o.a.toNat l).p⟩, State.unifSrc s o.a.toNat)] }

/-- A 64-bit result goes to a pair: bits 31:0 to the first name, bits 63:32 to the next (R54, R148). -/
def pairVecs (d : Nat) (f : Nat → DWord × Bool) (u : Bool) : List (Nat × (Nat → Elem) × Bool) :=
  [(d, fun l => ⟨(f l).1.extractLsb' 0 32, (f l).2⟩, u), (d + 1, fun l => ⟨(f l).1.extractLsb' 32 32, (f l).2⟩, u)]

/-- A word of two 32-bit vector sources with a 64-bit result. -/
def changeWideVR (s : State) (o : VR) (f : Word → Word → DWord) : Change :=
  { reads := [(o.la, o.a.toNat), (o.lb, o.b.toNat)]
    vecs := pairVecs o.d.toNat (fun l =>
      (f (State.elem s o.a.toNat l).v (State.elem s o.b.toNat l).v, (State.elem s o.a.toNat l).p || (State.elem s o.b.toNat l).p))
      (State.unifSrc s o.a.toNat && State.unifSrc s o.b.toNat) }

/-- The same with a B-source. -/
def changeWideVS (s : State) (o : VS) (f : Word → Word → DWord) : Change :=
  { reads := [(o.la, o.a.toNat)]
    vecs := pairVecs o.d.toNat (fun l =>
      (f (State.elem s o.a.toNat l).v (bOperand s o.b).v, (State.elem s o.a.toNat l).p || (bOperand s o.b).p))
      (State.unifSrc s o.a.toNat) }

/-- A 64-bit vector operand: the pair of a name and the next, poisoned when either is (R148). -/
def pairElem (s : State) (n l : Nat) : DWord × Bool :=
  ((State.elem s (n + 1) l).v ++ (State.elem s n l).v, (State.elem s n l).p || (State.elem s (n + 1) l).p)

/-- A pair of scalars (R54). -/
def pairScalar (s : State) (n : Nat) : DWord × Bool :=
  ((State.sc s (n + 1)).v ++ (State.sc s n).v, (State.sc s n).p || (State.sc s (n + 1)).p)

/-- A 64-bit B-source (R148): the literal sign-extended, or a scalar pair. -/
def bOperand64 (s : State) (b : BitVec 6) : DWord × Bool :=
  if b.toNat = 63 then (BitVec.ofInt 64 (State.lit s), false) else pairScalar s b.toNat

/-- A word of two vector pairs. -/
def change64VR (s : State) (o : VR) (f : DWord → DWord → DWord) : Change :=
  { reads := [(o.la, o.a.toNat), (o.la, o.a.toNat + 1), (o.lb, o.b.toNat), (o.lb, o.b.toNat + 1)]
    vecs := pairVecs o.d.toNat (fun l =>
      (f (pairElem s o.a.toNat l).1 (pairElem s o.b.toNat l).1, (pairElem s o.a.toNat l).2 || (pairElem s o.b.toNat l).2))
      ((State.unifSrc s o.a.toNat && State.unifSrc s (o.a.toNat + 1)) && (State.unifSrc s o.b.toNat && State.unifSrc s (o.b.toNat + 1))) }

/-- A word of a vector pair and a 64-bit B-source. -/
def change64VS (s : State) (o : VS) (f : DWord → DWord → DWord) : Change :=
  { reads := [(o.la, o.a.toNat), (o.la, o.a.toNat + 1)]
    vecs := pairVecs o.d.toNat (fun l =>
      (f (pairElem s o.a.toNat l).1 (bOperand64 s o.b).1, (pairElem s o.a.toNat l).2 || (bOperand64 s o.b).2))
      (State.unifSrc s o.a.toNat && State.unifSrc s (o.a.toNat + 1)) }

/-- A word of the chain completes with a change: `exec` answers a next state, and it is the state that the change leads to. -/
def Completes (i : Instr) (s : State) (c : Change) : Prop := ∃ t, exec i s = .next t ∧ Change.Leads c s t

/-- The smaller and larger bounds of a saturating sum (R55). -/
def saturate (lo hi x : Int) : Word := BitVec.ofInt 32 (max lo (min hi x))

/-- Each half of a packed pair by itself, modulo 2^16. -/
def halves (f : BitVec 16 → BitVec 16 → BitVec 16) (a b : Word) : Word :=
  f (a.extractLsb' 16 16) (b.extractLsb' 16 16) ++ f (a.extractLsb' 0 16) (b.extractLsb' 0 16)

/-- The field of a control word (R150): its offset, and its length cut at bit 31. -/
def fieldOf (ctl : Word) : Nat × Nat :=
  ((ctl.extractLsb' 0 5).toNat, min (ctl.extractLsb' 8 6).toNat (32 - (ctl.extractLsb' 0 5).toNat))

/-- A byte of `perm` (R150). -/
def permByte (a ctl d : Word) (i : Nat) : BitVec 8 :=
  let n := (ctl.extractLsb' (4 * i) 4).toNat
  if n < 4 then a.extractLsb' (8 * n) 8
  else if n < 8 then d.extractLsb' (8 * (n - 4)) 8
  else if n < 12 then (if a.getLsbD (8 * (n - 8) + 7) then 0xFF else 0)
  else 0

/-- The result of each IALU word of two 32-bit operands (R149), by the constructors of its two forms. -/
noncomputable def ialuTable : List ((VR → Instr) × (VS → Instr) × (Word → Word → Word)) :=
  [(.addI32, .addI32S, fun a b => a + b),
   (.subI32, .subI32S, fun a b => a - b),
   (.mulI32, .mulI32S, fun a b => a * b),
   (.mulhI32, .mulhI32S, fun a b => BitVec.ofInt 32 (a.toInt * b.toInt / 2 ^ 32)),
   (.mulhN32, .mulhN32S, fun a b => BitVec.ofNat 32 (a.toNat * b.toNat / 2 ^ 32)),
   (.minI32, .minI32S, fun a b => BitVec.ofInt 32 (min a.toInt b.toInt)),
   (.maxI32, .maxI32S, fun a b => BitVec.ofInt 32 (max a.toInt b.toInt)),
   (.minN32, .minN32S, fun a b => BitVec.ofNat 32 (min a.toNat b.toNat)),
   (.maxN32, .maxN32S, fun a b => BitVec.ofNat 32 (max a.toNat b.toNat)),
   (.addsI32, .addsI32S, fun a b => saturate (-2 ^ 31) (2 ^ 31 - 1) (a.toInt + b.toInt)),
   (.subsI32, .subsI32S, fun a b => saturate (-2 ^ 31) (2 ^ 31 - 1) (a.toInt - b.toInt)),
   (.addsN32, .addsN32S, fun a b => saturate 0 (2 ^ 32 - 1) ((a.toNat : Int) + b.toNat)),
   (.subsN32, .subsN32S, fun a b => saturate 0 (2 ^ 32 - 1) ((a.toNat : Int) - b.toNat)),
   (.addI16x2, .addI16x2S, halves (fun a b => a + b)),
   (.subI16x2, .subI16x2S, halves (fun a b => a - b)),
   (.vAnd, .vAndS, fun a b => a &&& b),
   (.vOr, .vOrS, fun a b => a ||| b),
   (.vXor, .vXorS, fun a b => a ^^^ b),
   (.vAndn, .vAndnS, fun a b => a &&& ~~~b),
   (.shl, .shlS, fun a b => if b.toNat < 32 then BitVec.ofNat 32 (a.toNat * 2 ^ b.toNat) else 0),
   (.shr, .shrS, fun a b => if b.toNat < 32 then BitVec.ofNat 32 (a.toNat / 2 ^ b.toNat) else 0),
   (.sar, .sarS, fun a b => BitVec.ofInt 32 (a.toInt / 2 ^ min b.toNat 31)),
   (.rotl, .rotlS, fun a b => let r := b.toNat % 32; (a <<< r) ||| (a >>> (32 - r)))]

/-- The bit-field extracts (R150). -/
noncomputable def extractTable : List ((VR → Instr) × (Word → Word → Word)) :=
  [(.bfxI32, fun a c => BitVec.ofInt 32 (((a >>> (fieldOf c).1).setWidth (fieldOf c).2).toInt)),
   (.bfxN32, fun a c => ((a >>> (fieldOf c).1).setWidth (fieldOf c).2).setWidth 32)]

/-- The accumulating IALU words (R149). -/
noncomputable def accTable : List ((VR → Instr) × (VS → Instr) × (Word → Word → Word → Word)) :=
  [(.madI32, .madI32S, fun a b d => a * b + d),
   (.dp4I8, .dp4I8S, fun a b d => (List.range 4).foldl (fun acc i =>
      acc + (a.extractLsb' (8 * i) 8).signExtend 32 * (b.extractLsb' (8 * i) 8).signExtend 32) d),
   (.dp4N8, .dp4N8S, fun a b d => (List.range 4).foldl (fun acc i =>
      acc + (a.extractLsb' (8 * i) 8).setWidth 32 * (b.extractLsb' (8 * i) 8).setWidth 32) d)]

/-- The bit-field words that read the old destination (R150). -/
noncomputable def bitfAccTable : List ((VR → Instr) × (Word → Word → Word → Word)) :=
  [(.bfi, fun a c d =>
      let mask : Word := ((1#32 <<< (fieldOf c).2) - 1) <<< (fieldOf c).1
      (d &&& ~~~mask) ||| ((a <<< (fieldOf c).1) &&& mask)),
   (.perm, fun a c d => permByte a c d 3 ++ permByte a c d 2 ++ permByte a c d 1 ++ permByte a c d 0),
   (.fshl, fun a b d => ((a ++ d : BitVec 64) <<< (b.toNat % 32)).extractLsb' 32 32),
   (.fshr, fun a b d => ((a ++ d : BitVec 64) >>> (b.toNat % 32)).extractLsb' 0 32)]

/-- The words of one source (R149, R150). -/
noncomputable def unaryTable : List ((VU → Instr) × (Word → Word)) :=
  [(.absI32, fun a => BitVec.ofNat 32 a.toInt.natAbs),
   (.absI32S, fun a => BitVec.ofNat 32 a.toInt.natAbs),
   (.popc, fun a => a.cpop),
   (.clz, fun a => a.clz),
   (.ctz, fun a => a.ctz),
   (.brev, fun a => a.reverse),
   (.sext8, fun a => (a.extractLsb' 0 8).signExtend 32),
   (.sext16, fun a => (a.extractLsb' 0 16).signExtend 32)]

/-- The widening products (R149). -/
noncomputable def wideTable : List ((VR → Instr) × (VS → Instr) × (Word → Word → DWord)) :=
  [(.mulwI32, .mulwI32S, fun a b => a.signExtend 64 * b.signExtend 64),
   (.mulwN32, .mulwN32S, fun a b => a.setWidth 64 * b.setWidth 64)]

/-- The 64-bit sums (R149). -/
noncomputable def sum64Table : List ((VR → Instr) × (VS → Instr) × (DWord → DWord → DWord)) :=
  [(.addI64, .addI64S, fun a b => a + b),
   (.subI64, .subI64S, fun a b => a - b)]

/-- A comparison (R37) of the values x and y. -/
def compares (cond : Nat) (x y : Int) : Bool :=
  if cond = 0 then decide (x = y)
  else if cond = 1 then decide (x ≠ y)
  else if cond = 2 then decide (x < y)
  else if cond = 3 then decide (x ≤ y)
  else if cond = 4 then decide (y < x)
  else decide (y ≤ x)

/-- The comparison of two operands as an integer type (R38): 0 i32, 1 n32, 2 i64, 3 n64. -/
def compareAs (cond ty : Nat) (a b : Word) (a64 b64 : DWord) : Bool :=
  if ty = 0 then compares cond a.toInt b.toInt
  else if ty = 1 then compares cond a.toNat b.toNat
  else if ty = 2 then compares cond a64.toInt b64.toInt
  else compares cond a64.toNat b64.toNat

/-- ICMP (R151): the predicate receives the comparison in each lane, poisoned when an element read is; 64-bit types read pairs. -/
def changeIcmp (s : State) (o : VP) : Change :=
  { reads := if o.ty.toNat < 2 then [(o.la, o.a.toNat), (o.lb, o.b.toNat)]
      else [(o.la, o.a.toNat), (o.la, o.a.toNat + 1), (o.lb, o.b.toNat), (o.lb, o.b.toNat + 1)]
    preds := [(o.pd.toNat, fun l =>
      (compareAs o.cond.toNat o.ty.toNat (State.elem s o.a.toNat l).v (State.elem s o.b.toNat l).v
        (pairElem s o.a.toNat l).1 (pairElem s o.b.toNat l).1,
       if o.ty.toNat < 2 then (State.elem s o.a.toNat l).p || (State.elem s o.b.toNat l).p
       else (pairElem s o.a.toNat l).2 || (pairElem s o.b.toNat l).2))] }

/-- ICMP.S (R151). -/
def changeIcmpS (s : State) (o : VPS) : Change :=
  { reads := if o.ty.toNat < 2 then [(o.la, o.a.toNat)] else [(o.la, o.a.toNat), (o.la, o.a.toNat + 1)]
    preds := [(o.pd.toNat, fun l =>
      (compareAs o.cond.toNat o.ty.toNat (State.elem s o.a.toNat l).v (bOperand s o.b).v
        (pairElem s o.a.toNat l).1 (bOperand64 s o.b).1,
       if o.ty.toNat < 2 then (State.elem s o.a.toNat l).p || (bOperand s o.b).p
       else (pairElem s o.a.toNat l).2 || (bOperand64 s o.b).2))] }

/-- The scalar words of two operands (R152). -/
noncomputable def saluTable : List ((SR → Instr) × (Word → Word → Word)) :=
  [(.sadd, fun a b => a + b), (.ssub, fun a b => a - b), (.smul, fun a b => a * b),
   (.sand, fun a b => a &&& b), (.sor, fun a b => a ||| b), (.sxor, fun a b => a ^^^ b),
   (.sshl, fun a b => if b.toNat < 32 then BitVec.ofNat 32 (a.toNat * 2 ^ b.toNat) else 0),
   (.sshr, fun a b => if b.toNat < 32 then BitVec.ofNat 32 (a.toNat / 2 ^ b.toNat) else 0),
   (.ssar, fun a b => BitVec.ofInt 32 (a.toInt / 2 ^ min b.toNat 31)),
   (.smin, fun a b => BitVec.ofInt 32 (min a.toInt b.toInt)),
   (.smax, fun a b => BitVec.ofInt 32 (max a.toInt b.toInt)),
   (.sminn, fun a b => BitVec.ofNat 32 (min a.toNat b.toNat)),
   (.smaxn, fun a b => BitVec.ofNat 32 (max a.toNat b.toNat)),
   (.smulh, fun a b => BitVec.ofInt 32 (a.toInt * b.toInt / 2 ^ 32))]

/-- A scalar word (R152): the destination receives f of the two operands, poisoned when either is. -/
def changeSR (s : State) (o : SR) (f : Word → Word → Word) : Change :=
  { scals := [(o.d.toNat, ⟨f (State.sc s o.a.toNat).v (bOperand s o.b).v, (State.sc s o.a.toNat).p || (bOperand s o.b).p⟩)] }

/-- A pair of scalars receives a 64-bit value (R54). -/
def pairScals (d : Nat) (v : DWord) (p : Bool) : List (Nat × Elem) :=
  [(d, ⟨v.extractLsb' 0 32, p⟩), (d + 1, ⟨v.extractLsb' 32 32, p⟩)]

/-- SADD64 (R152). -/
def changeSadd64 (s : State) (o : SR) : Change :=
  { scals := pairScals o.d.toNat ((pairScalar s o.a.toNat).1 + (bOperand64 s o.b).1) ((pairScalar s o.a.toNat).2 || (bOperand64 s o.b).2) }

/-- SSEL (R152): a when q0 is 1, else b, poisoned with q0 or the chosen operand. -/
def changeSsel (s : State) (o : SR) : Change :=
  { scals := [(o.d.toNat,
      if (State.flag s 0).v then ⟨(State.sc s o.a.toNat).v, (State.flag s 0).p || (State.sc s o.a.toNat).p⟩
      else ⟨(bOperand s o.b).v, (State.flag s 0).p || (bOperand s o.b).p⟩)] }

/-- SCMP (R91): the flag receives the comparison. -/
def changeScmp (s : State) (o : SC) : Change :=
  { flags := [(o.q.toNat,
      ⟨compareAs o.cond.toNat o.ty.toNat (State.sc s o.a.toNat).v (bOperand s o.b).v (pairScalar s o.a.toNat).1 (bOperand64 s o.b).1,
       if o.ty.toNat < 2 then (State.sc s o.a.toNat).p || (bOperand s o.b).p
       else (pairScalar s o.a.toNat).2 || (bOperand64 s o.b).2⟩)] }

/-- The moves between vectors, scalars, lanes and predicates (R114, R115, R117, R218, R219), each as its change. -/
inductive Moves (s : State) : Instr → Change → Prop where
  /-- MOV copies a register. -/
  | mov (o : CMov) : Moves s (.mov o)
      { reads := [(o.la, o.a.toNat)], vecs := [(o.d.toNat, fun l => State.elem s o.a.toNat l, State.unifSrc s o.a.toNat)] }
  /-- MOVS puts a scalar into every lane. -/
  | movs (o : CVS) : Moves s (.movs o) { vecs := [(o.d.toNat, fun _ => State.sc s o.s.toNat, true)] }
  /-- MOVI puts the literal's bits 31:0 into every lane, poison clear. -/
  | movi (o : CV) : Moves s (.movi o) { vecs := [(o.v.toNat, fun _ => ⟨BitVec.ofInt 32 (State.lit s), false⟩, true)] }
  /-- RDL reads one lane, in the subset or not. -/
  | rdl (o : CVSK) : Moves s (.rdl o) { scals := [(o.s.toNat, State.elem s o.v.toNat o.k.toNat)] }
  /-- MOVP gives 1 where the predicate is true, else 0. -/
  | movp (o : CVP) : Moves s (.movp o)
      { vecs := [(o.v.toNat, fun l => ⟨if State.pv s o.p.toNat l then 1 else 0, State.pp s o.p.toNat l⟩, false)] }
  /-- PMOV is true where the element is not zero. -/
  | pmov (o : CPmov) : Moves s (.pmov o)
      { reads := [(o.la, o.a.toNat)]
        preds := [(o.p.toNat, fun l => (decide ((State.elem s o.a.toNat l).v ≠ 0), (State.elem s o.a.toNat l).p))] }
  /-- SEL takes va where the predicate differs from n, else vb. -/
  | sel (o : VSel) : Moves s (.sel o)
      { reads := [(o.la, o.a.toNat), (o.lb, o.b.toNat)]
        vecs := [(o.d.toNat, fun l =>
          if State.pv s o.p.toNat l ≠ (o.n == 1) then ⟨(State.elem s o.a.toNat l).v, State.pp s o.p.toNat l || (State.elem s o.a.toNat l).p⟩
          else ⟨(State.elem s o.b.toNat l).v, State.pp s o.p.toNat l || (State.elem s o.b.toNat l).p⟩,
          o.p == 0 && State.unifSrc s o.a.toNat && State.unifSrc s o.b.toNat)] }
  /-- PCHK makes poison visible in a predicate, of a vector or of a scalar. -/
  | pchkV (o : CVP) : Moves s (.pchkV o) { preds := [(o.p.toNat, fun l => ((State.elem s o.v.toNat l).p, false))] }
  | pchkS (o : CSP) : Moves s (.pchkS o) { preds := [(o.p.toNat, fun _ => ((State.sc s o.s.toNat).p, false))] }
  /-- PCLR of a scalar clears its poison. -/
  | pclrS (o : CS) : Moves s (.pclrS o) { scals := [(o.s.toNat, ⟨(State.sc s o.s.toNat).v, false⟩)] }

/-- The predicate words (R116). -/
inductive PredWords (s : State) : Instr → Change → Prop where
  | pand (o : P3) : PredWords s (.pand o) { preds := [(o.d.toNat, fun l =>
      (State.pv s o.a.toNat l && State.pv s o.b.toNat l, State.pp s o.a.toNat l || State.pp s o.b.toNat l))] }
  | por (o : P3) : PredWords s (.por o) { preds := [(o.d.toNat, fun l =>
      (State.pv s o.a.toNat l || State.pv s o.b.toNat l, State.pp s o.a.toNat l || State.pp s o.b.toNat l))] }
  | pxor (o : P3) : PredWords s (.pxor o) { preds := [(o.d.toNat, fun l =>
      (xor (State.pv s o.a.toNat l) (State.pv s o.b.toNat l), State.pp s o.a.toNat l || State.pp s o.b.toNat l))] }
  | pandn (o : P3) : PredWords s (.pandn o) { preds := [(o.d.toNat, fun l =>
      (State.pv s o.a.toNat l && !State.pv s o.b.toNat l, State.pp s o.a.toNat l || State.pp s o.b.toNat l))] }
  | pnot (o : P2) : PredWords s (.pnot o) { preds := [(o.d.toNat, fun l => (!State.pv s o.a.toNat l, State.pp s o.a.toNat l))] }
  | pset (o : P1) : PredWords s (.pset o) { preds := [(o.d.toNat, fun _ => (true, false))] }
  | pclr (o : P1) : PredWords s (.pclr o) { preds := [(o.d.toNat, fun _ => (false, false))] }

/-- The lane that each cross-lane word reads, from its own lane l and the low six bits d of vb[l] (R119). -/
noncomputable def shuffleTable : List ((VR → Instr) × (Nat → Nat → Nat)) :=
  [(.shfl, fun _ d => d),
   (.shflx, fun l d => l ^^^ d),
   (.shflup, fun l d => if d ≤ l then l - d else l),
   (.shfldn, fun l d => if l + d ≤ 63 then l + d else l),
   (.qbcast, fun l d => 4 * (l / 4) + d % 4)]

/-- The partner that each quad exchange reads (R119). -/
noncomputable def quadTable : List ((VU → Instr) × (Nat → Nat)) :=
  [(.qswapH, fun l => l ^^^ 1), (.qswapV, fun l => l ^^^ 2), (.qswapD, fun l => l ^^^ 3)]

/-- A cross-lane word: the element of the lane read, in the subset or not, poisoned also with the selector. -/
def changeShuffle (s : State) (o : VR) (j : Nat → Nat → Nat) : Change :=
  { reads := [(o.la, o.a.toNat), (o.lb, o.b.toNat)]
    vecs := [(o.d.toNat, fun l =>
      ⟨(State.elem s o.a.toNat (j l ((State.elem s o.b.toNat l).v.toNat % 64))).v,
       (State.elem s o.a.toNat (j l ((State.elem s o.b.toNat l).v.toNat % 64))).p || (State.elem s o.b.toNat l).p⟩, false)] }

/-- A quad exchange. -/
def changeQuad (s : State) (o : VU) (j : Nat → Nat) : Change :=
  { reads := [(o.la, o.a.toNat)], vecs := [(o.d.toNat, fun l => State.elem s o.a.toNat (j l), false)] }

/-- Does a lane contribute to a combination: it is in the subset and no helper (R87, R120, R121). -/
def contributes (s : State) (l : Nat) : Bool := s.ctx.lanes.getLsbD l && !(Wave.helpers (State.src s)).getLsbD l

/-- The combination of the contributing lanes below n, in ascending order. -/
def combined (s : State) (a n : Nat) (f : Word → Word → Word) (start : Word) : Word :=
  (List.range n).foldl (fun acc l => if contributes s l then f acc (State.elem s a l).v else acc) start

/-- Is a contributing lane below n poisoned. -/
def anyPoison (s : State) (a n : Nat) : Bool := (List.range n).any (fun l => contributes s l && (State.elem s a l).p)

/-- The smaller and the larger of two signed or unsigned words. -/
def least (a b : Word) : Word := if b.slt a then b else a
/-- The larger, signed. -/
def greatest (a b : Word) : Word := if a.slt b then b else a
/-- The smaller, unsigned. -/
def leastN (a b : Word) : Word := if b.ult a then b else a
/-- The larger, unsigned. -/
def greatestN (a b : Word) : Word := if a.ult b then b else a

/-- The integer scans (R120): how many lanes lane l combines, the operation and its identity. -/
noncomputable def scanTable : List ((VU → Instr) × (Nat → Nat) × (Word → Word → Word) × Word) :=
  [(.scanAddI32, fun l => l + 1, fun a b => a + b, 0),
   (.xscanAddI32, fun l => l, fun a b => a + b, 0),
   (.scanMaxI32, fun l => l + 1, greatest, 0x80000000),
   (.scanMinI32, fun l => l + 1, least, 0x7FFFFFFF)]

/-- An integer scan. -/
def changeScan (s : State) (o : VU) (upTo : Nat → Nat) (f : Word → Word → Word) (start : Word) : Change :=
  { reads := [(o.la, o.a.toNat)]
    vecs := [(o.d.toNat, fun l => ⟨combined s o.a.toNat (upTo l) f start, anyPoison s o.a.toNat (upTo l)⟩, false)] }

/-- The values that enter a float combination, with the identity for a lane that does not contribute. -/
def entries (s : State) (a : Nat) (ident : Nat) : List Nat :=
  (List.range 64).map (fun l => if contributes s l then (State.elem s a l).v.toNat else ident)

/-- SCAN.ADD.F32 (R120): lane l receives the tree of R72 over the first l + 1 entering values, padded with -0. -/
def changeScanF (s : State) (o : VU) : Change :=
  { reads := [(o.la, o.a.toNat)]
    vecs := [(o.d.toNat, fun l =>
      ⟨BitVec.ofNat 32 (treeReduce (fadd72 ((State.src s).fpm.getLsbD 3))
        ((entries s o.a.toNat 0x80000000).take (l + 1) ++ List.replicate (63 - l) 0x80000000)),
       anyPoison s o.a.toNat (l + 1)⟩, false)] }

/-- The integer and bitwise wave reductions (R122). -/
noncomputable def redwTable : List ((CRed → Instr) × (Word → Word → Word) × Word) :=
  [(.redwAddI32, fun a b => a + b, 0), (.redwMinI32, least, 0x7FFFFFFF), (.redwMaxI32, greatest, 0x80000000),
   (.redwMinN32, leastN, 0xFFFFFFFF), (.redwMaxN32, greatestN, 0), (.redwAnd, fun a b => a &&& b, 0xFFFFFFFF),
   (.redwOr, fun a b => a ||| b, 0), (.redwXor, fun a b => a ^^^ b, 0)]

/-- An integer reduction into a scalar. -/
def changeRedw (s : State) (o : CRed) (f : Word → Word → Word) (start : Word) : Change :=
  { reads := [(o.la, o.a.toNat)], scals := [(o.s.toNat, ⟨combined s o.a.toNat 64 f start, anyPoison s o.a.toNat 64⟩)] }

/-- The float reductions (R122): the tree of R72 over 64 values, the identity where a lane does not contribute. -/
noncomputable def redwFTable : List ((CRed → Instr) × (Bool → Nat → Nat → Nat) × Nat) :=
  [(.redwAddF32, fadd72, 0x80000000), (.redwMinF32, fminBits f32, 0x7F800000), (.redwMaxF32, fmaxBits f32, 0xFF800000)]

/-- A float reduction into a scalar. -/
def changeRedwF (s : State) (o : CRed) (f : Bool → Nat → Nat → Nat) (ident : Nat) : Change :=
  { reads := [(o.la, o.a.toNat)]
    scals := [(o.s.toNat, ⟨BitVec.ofNat 32 (treeReduce (f ((State.src s).fpm.getLsbD 3)) (entries s o.a.toNat ident)),
      anyPoison s o.a.toNat 64⟩)] }

/-- Does a contributing lane carry poison in a predicate. -/
def predPoison (s : State) (p : Nat) : Bool := (List.range 64).any (fun l => contributes s l && State.pp s p l)

/-- The votes, BALLOT and ELECT (R96, R121), each as its change. -/
inductive Votes (s : State) : Instr → Change → Prop where
  | any (o : CSP) : Votes s (.voteAny o) { scals := [(o.s.toNat,
      ⟨if (List.range 64).any (fun l => contributes s l && State.pv s o.p.toNat l) then 1 else 0, predPoison s o.p.toNat⟩)] }
  | all (o : CSP) : Votes s (.voteAll o) { scals := [(o.s.toNat,
      ⟨if (List.range 64).all (fun l => !contributes s l || State.pv s o.p.toNat l) then 1 else 0, predPoison s o.p.toNat⟩)] }
  | ballot (o : CSP) : Votes s (.ballot o) 
      { scals := pairScals o.s.toNat (maskOf (fun l => contributes s l && State.pv s o.p.toNat l)) (predPoison s o.p.toNat) }
  /-- With L the lowest contributing lane, or 64 when there is none: the predicate is true in lane L alone, and the scalar receives L. -/
  | elect (o : CSP) (L : Nat) (h : (L < 64 ∧ contributes s L = true ∨ L = 64) ∧ ∀ l < L, l < 64 → contributes s l = false) :
      Votes s (.elect o) { preds := [(o.p.toNat, fun l => (decide (l = L), false))], scals := [(o.s.toNat, ⟨BitVec.ofNat 32 L, false⟩)] }

end Sys2Proof.Claim
end

