-- ==== Sys2Proof/Claims/Sram.lean ====
section
/-! DEFINITION. What the statements say of the words on cluster SRAM: local loads, stores and atomics, bank modes, groups, allocation, presence, rings (R173 to R195). -/

namespace Sys2Proof.Claim

open Sys2Proof.Machine

/-- A word answers a next state: that of a changed machine, with a change of registers where it makes one. -/
def Acts (i : Instr) (s s' : State) : Option Change → Prop
  | none => exec i s = .next s'
  | some c => ∃ t, exec i s = .next t ∧ Change.Leads c s' t

/-- The state with a cluster of the chain's core replaced. -/
def withCluster (s : State) (x : Cluster) : State := { s with dev := Device.setCluster s.dev ((State.src s).core / 8) x }

/-- The cluster of the chain's core. -/
def clusterNow (s : State) : Cluster := Device.cluster s.dev ((State.src s).core / 8)

/-- The chain's workgroup, now. -/
def wgNow (s : State) : Workgroup := Device.wg s.dev (State.src s).wg

/-- The state with the chain's workgroup replaced. -/
def withWg (s : State) (x : Workgroup) : State := { s with dev := Device.setWg s.dev (State.src s).wg x }

/-- The lanes that a storing word acts for: those of the subset that are no helpers (R87). -/
def storers (s : State) : Mask := s.ctx.lanes &&& ~~~(Wave.helpers (State.src s))

/-- A counter of the wave has room for one more operation (R239). -/
def HasRoom (s : State) (cls : Nat) : Prop := Wave.counter (State.cur s) cls < 63

/-- The local address of a lane (R188): scalar base without sign, offset with sign, literal. -/
def localAt (s : State) (b : BitVec 8) (a : BitVec 6) (l : Nat) : Int :=
  ((State.sc s b.toNat).v.toNat : Int) + (State.elem s a.toNat l).v.toInt + litValue s.ctx.lits

/-- The local accesses of z bytes of lanes L pass R178 and R188: no address poison, in reach, aligned. -/
def LocalPass (s : State) (b : BitVec 8) (a : BitVec 6) (L : Mask) (z : Nat) : Prop :=
  ∀ l < 64, L.getLsbD l = true →
    (State.sc s b.toNat).p = false ∧ (State.elem s a.toNat l).p = false
    ∧ Device.localFault s.pre (State.src s).wg (localAt s b a l) z = none ∧ localAt s b a l % z = 0

/-- Every line that lanes L touch is present (R184). -/
def LinesPresent (s : State) (b : BitVec 8) (a : BitVec 6) (L : Mask) (z : Nat) : Prop :=
  ∀ l < 64, L.getLsbD l = true → ∀ i < z, Device.lineAbsent s.pre ((State.src s).core / 8) ((localAt s b a l).toNat + i) = false

/-- A byte of local memory of the chain's cluster. -/
def localByte (s : State) (a : Nat) : Byte := Memory.read s.dev.mem (2 ^ 48 + (State.src s).core / 8 * 2 ^ 23 + a)

/-- The number that n local bytes hold, least significant first. -/
def localNum (s : State) (a : Nat) : Nat → Nat
  | 0 => 0
  | n + 1 => (localByte s a).toNat + 256 * localNum s (a + 1) n

/-- The i-th register element of a load of z bytes: one or two bytes zero- or sign-extended, four bytes as they are (R36). -/
def loaded (s : State) (z : Nat) (sx : BitVec 1) (a i : Nat) : Word :=
  match z with
  | 1 => if sx = 1 then (BitVec.ofNat 8 (localNum s a 1)).signExtend 32 else BitVec.ofNat 32 (localNum s a 1)
  | 2 => if sx = 1 then (BitVec.ofNat 16 (localNum s a 2)).signExtend 32 else BitVec.ofNat 32 (localNum s a 2)
  | _ => BitVec.ofNat 32 (localNum s (a + 4 * i) 4)

/-- Poison of the element that holds a local byte (R183). -/
def localPoison (s : State) (a : Nat) : Bool := (clusterNow s).spois.contains (a / 4)

/-- `ldl`: each lane of the subset receives its bytes, with the poison of their elements. -/
def changeLdl (s : State) (o : ML) : Change :=
  { reads := [(o.la, o.a.toNat)]
    vecs := (List.range (max 1 (2 ^ o.sz.toNat / 4))).map (fun i =>
      (o.x.toNat + i, fun l => ⟨loaded s (2 ^ o.sz.toNat) o.sx (localAt s o.b o.a l).toNat i,
        localPoison s ((localAt s o.b o.a l).toNat + 4 * i)⟩, false)) }

/-- Byte k of a lane's store data (R36): of the low register bytes 0 to 3, and so on. -/
def dataByte (s : State) (x : BitVec 6) (l k : Nat) : Byte := (State.elem s (x.toNat + k / 4) l).v.extractLsb' (8 * (k % 4)) 8

/-- No data element of a storing lane is poisoned. -/
def DataClean (s : State) (x : BitVec 6) (n : Nat) (L : Mask) : Prop :=
  ∀ l < 64, L.getLsbD l = true → ∀ i < n, (State.elem s (x.toNat + i) l).p = false

/-- Does a lane's local access of z bytes cover a local byte. -/
abbrev coversLocal (s : State) (b : BitVec 8) (a : BitVec 6) (z l x : Nat) : Prop :=
  (localAt s b a l).toNat ≤ x ∧ x < (localAt s b a l).toNat + z

/-- No access of the wave waits in its core, and no acquire of its `vbind` and `vpub` words is to come (R235, R237). -/
structure NoneEarlier (s : State) : Prop where
  pend  : (State.cur s).pend = []
  binds : Device.bindsBefore s.dev s.ctx.wave s.dev.uid = false

/-- Has a copy that is outstanding written a byte: what another write leaves there is then one of the two values (R270). -/
def Raced (s : State) (x : Nat) : Prop := ∃ o ∈ s.dev.ops, o.id ≠ 0 ∧ x ∈ o.wrote

/-- Nothing but the wave, memory bytes, the poison of the cluster's SRAM and the counts of identifiers and free choices differs; of the wave, its registers and its list of outstanding operations. -/
structure OnlyLocal (s t : State) : Prop where
  parts : t = { s with
    dev := { s.dev with waves := t.dev.waves, mem := t.dev.mem, clusters := t.dev.clusters, uid := s.dev.uid + 1,
                        freeCtr := t.dev.freeCtr }
    ctx.written := t.ctx.written }
  free  : (∀ x, ¬ Raced s x) → t.dev.freeCtr = s.dev.freeCtr
  waves : ∀ u, u ≠ s.ctx.wave → Device.wave t.dev u = Device.wave s.dev u
  wave  : State.cur t = { Wave.withRegs (State.cur s) (State.cur t) with outs := (State.cur t).outs }
  clusters : ∀ k, k ≠ (State.src s).core / 8 → Device.cluster t.dev k = Device.cluster s.dev k
  cluster : Device.cluster t.dev ((State.src s).core / 8) =
    { clusterNow s with
      spois := (Device.cluster t.dev ((State.src s).core / 8)).spois
      absent := (Device.cluster t.dev ((State.src s).core / 8)).absent }
  lines : ∀ n, (Tbl.get? (Device.cluster t.dev ((State.src s).core / 8)).absent n).map (fun x => x.writers) =
    (Tbl.get? (clusterNow s).absent n).map (fun x => x.writers)

/-- The banks of the own slice that `bmode` names and that are not in the mode (R176). -/
def bankNamed (s : State) (o : CBmode) (j : Nat) : Bool :=
  (State.sc s o.s.toNat).v.getLsbD j && Cluster.modeOf (clusterNow s) ((State.src s).core % 8 * 8 + j) != bankModeOf o.m

/-- May a bank leave its mode (R176): no allocation covers it, no ring is bound to it. -/
def BankFree (s : State) (k : Nat) : Prop :=
  (Cluster.modeOf (clusterNow s) k = .spad → Device.bankAllocated s.dev ((State.src s).core / 8) k = false)
  ∧ (Cluster.modeOf (clusterNow s) k = .ring → Cluster.bankBound (clusterNow s) k = false)

/-- Must the switch of a bank wait (R176): it is in cache mode, whose dirty lines go to L2 first, or a switch that the core's earlier words began is under way. -/
def bankWaits (s : State) (j : Nat) : Bool :=
  (clusterNow s).switching.any (fun x => x.bank / 8 == (State.src s).core % 8)
  || (clusterNow s).banks.getD ((State.src s).core % 8 * 8 + j) .cache == .cache

/-- The banks that `bmode` switches do not go back at a retirement (R177). -/
def banksStay (s : State) (o : CBmode) (t : State) : State :=
  { t with dev.wgs := t.dev.wgs.map (fun e =>
      if e.2.core / 8 = (State.src s).core / 8 then
        (e.1, { e.2 with autoBanks := e.2.autoBanks.filter (fun b => !(b / 8 == (State.src s).core % 8 && bankNamed s o (b % 8))) })
      else e) }

/-- Is a run of n blocks of the own slice free from block b on (R181). -/
def RunFree (s : State) (n b : Nat) : Prop :=
  b + n ≤ 256 ∧ ∀ i < n, Device.blockFree s.dev (Device.wg s.dev (State.src s).wg).core (b + i) = true

/-- The lines of a range, each with one more writer outstanding, of a number (R183). -/
def absentMore (id : Nat) (t : Tbl Absent) (line : Nat) : Nat → Tbl Absent
  | 0 => t
  | n + 1 => lineIns id (absentMore id t line n) (line + n)

/-- The state in which a workgroup holds one allocation more, whose lines are absent and clean of poison until the fill has written them (R181, R183). -/
def allocated (s : State) (base blocks : Nat) : State :=
  let cl := (wgNow s).core / 8
  let x := Device.cluster s.dev cl
  let d := Device.setWg s.dev (State.src s).wg { wgNow s with allocs := (wgNow s).allocs ++ [⟨base, blocks⟩] }
  let d := Device.setCluster d cl
    { x with absent := absentMore s.dev.uid x.absent (base / 128) (32 * blocks),
             spois := x.spois.filter (fun e => e < base / 4 || (base + 4096 * blocks) / 4 ≤ e) }
  { s with dev := { d with fills := d.fills ++ [⟨s.dev.uid, cl, base / 128, 32 * blocks, false⟩], uid := s.dev.uid + 1 } }

/-- A ring of the chain's cluster that the word may name (R193). -/
def RingIs (s : State) (r : BitVec 5) (x : Ring) : Prop :=
  Tbl.get? (clusterNow s).rings r.toNat = some x
  ∧ sharesGroup (State.src s).wg (State.wgOf s) x.owner (Device.wg s.dev x.owner) = true

/-- The count operand of a ring word: no poison, 1 to C (R193). -/
def RingCount (s : State) (o : CRing) (x : Ring) : Prop :=
  (State.sc s o.s.toNat).p = false ∧ 0 < (State.sc s o.s.toNat).v.toNat ∧ (State.sc s o.s.toNat).v.toNat ≤ x.cap

/-- The state with a ring of the cluster replaced. -/
def withRing (s : State) (r : BitVec 5) (x : Ring) : State :=
  withCluster s { clusterNow s with rings := Tbl.put (clusterNow s).rings r.toNat x }

/-- The local address of entry i of a ring (R192). -/
def entryAddr (x : Ring) (i : Word) : Word := BitVec.ofNat 32 (x.base + i.toNat % x.cap * (128 * 2 ^ x.esz))

/-- The ring that RINIT binds (R191): at the first bank, with as many entries as its banks hold. -/
def freshRing (gid : Nat) (r : RingDesc) : Ring :=
  { owner := gid, base := (r.sl * 8 + r.j0) * 131072, esz := r.esz, cap := 2 ^ r.nb * 131072 / (128 * 2 ^ r.esz),
    pres := 0, pcom := 0, cres := 0, crel := 0, prods := [], cons := [] }

/-- A ring descriptor that R191 admits for the chain's workgroup. -/
def RingFits (s : State) (v : Word) : Prop :=
  v.extractLsb' 19 13 = 0 ∧ v.extractLsb' 5 3 = 0 ∧ (ringDesc v).esz < 6
  ∧ Tbl.get? (clusterNow s).rings (ringDesc v).ring = none
  ∧ (ringDesc v).j0 + 2 ^ (ringDesc v).nb ≤ 8
  ∧ (∀ i < 2 ^ (ringDesc v).nb,
      Cluster.inRing (clusterNow s) ((ringDesc v).sl * 8 + (ringDesc v).j0 + i) = true
      ∧ Cluster.bankBound (clusterNow s) ((ringDesc v).sl * 8 + (ringDesc v).j0 + i) = false)
  ∧ Device.sliceReach s.dev (State.src s).wg (ringDesc v).sl = true

/-- Memory with n bytes from an address at 0: a byte that is not listed reads as 0. -/
def zeroed (m : Memory) (a n : Nat) : Memory := m.filter (fun c => c.1 < a || a + n ≤ c.1)

/-- The words on cluster SRAM that complete: the machine that each leaves, and the change of registers. -/
inductive SramActs (s : State) : Instr → State → Option Change → Prop where
  | ldl (o : ML) (z : o.sz.toNat ≤ 4) (h : LocalPass s o.b o.a s.ctx.lanes (2 ^ o.sz.toNat)) (r : HasRoom s 0)
      (p : LinesPresent s o.b o.a s.ctx.lanes (2 ^ o.sz.toNat))
      (w : State.localWaits s (localAt s o.b o.a) s.ctx.lanes (2 ^ o.sz.toNat) false = false) : SramActs s (.ldl o) (State.doneOp s 0) (some (changeLdl s o))
  | bmodeFast (o : CBmode) (h : (State.sc s o.s.toNat).p = false) (v : (State.sc s o.s.toNat).v.toNat < 256)
      (f : ∀ j < 8, bankNamed s o j = true → BankFree s ((State.src s).core % 8 * 8 + j)
        ∧ bankWaits s j = false) :
      SramActs s (.bmode o)
        (banksStay s o (withCluster s { clusterNow s with
          banks := ((List.range 8).filter (bankNamed s o)).foldl
            (fun b j => putAt b ((State.src s).core % 8 * 8 + j) (bankModeOf o.m) .cache) (clusterNow s).banks })) none
  | bmodeSlow (o : CBmode) (h : (State.sc s o.s.toNat).p = false) (v : (State.sc s o.s.toNat).v.toNat < 256)
      (f : ∀ j < 8, bankNamed s o j = true → BankFree s ((State.src s).core % 8 * 8 + j))
      (c : ∃ j < 8, bankNamed s o j = true ∧ bankWaits s j = true) :
      SramActs s (.bmode o)
        (State.mapWave (banksStay s o (withCluster s { clusterNow s with
          banks := (((List.range 8).filter (bankNamed s o)).filter (fun j => !bankWaits s j)).foldl
            (fun b j => putAt b ((State.src s).core % 8 * 8 + j) (bankModeOf o.m) .cache) (clusterNow s).banks
          switching := (clusterNow s).switching ++ (((List.range 8).filter (bankNamed s o)).filter (bankWaits s)).map
            (fun j => ⟨(State.src s).core % 8 * 8 + j, bankModeOf o.m, s.ctx.wave, s.ctx.lanes⟩) }))
          (fun w => { w with blocked := w.blocked ||| s.ctx.lanes })) none
  | joinNew (o : CS) (h : (State.sc s o.s.toNat).p = false) (v : (State.sc s o.s.toNat).v.toNat < 8) (g : (wgNow s).group = none) :
      SramActs s (.join o) (withWg s { wgNow s with group := some (State.sc s o.s.toNat).v.toNat }) none
  | joinSame (o : CS) (h : (State.sc s o.s.toNat).p = false) (v : (State.sc s o.s.toNat).v.toNat < 8)
      (g : (wgNow s).group = some (State.sc s o.s.toNat).v.toNat) : SramActs s (.join o) s none
  | leaveNone (o : C0) (g : (wgNow s).group = none) : SramActs s (.leave o) s none
  | leave (o : C0) (k : Nat) (g : (wgNow s).group = some k) (a : (Device.gang s.dev (wgNow s).gang).autoGroup ≠ some k)
      (u : Device.outsideUse s.dev (State.src s).wg = false) : SramActs s (.leave o) (withWg s { wgNow s with group := none }) none
  | salloc (o : CS) (b : Nat) (h : (State.sc s o.s.toNat).p = false) (v : 0 < (State.sc s o.s.toNat).v.toNat)
      (m : (State.sc s o.s.toNat).v.toNat ≤ 1048576)
      (f : RunFree s (((State.sc s o.s.toNat).v.toNat + 4095) / 4096) b)
      (low : ∀ c < b, ¬ RunFree s (((State.sc s o.s.toNat).v.toNat + 4095) / 4096) c) :
      SramActs s (.salloc o)
        (allocated s ((wgNow s).core % 8 * 2 ^ 20 + 4096 * b) (((State.sc s o.s.toNat).v.toNat + 4095) / 4096))
        (some { scals := [(o.s.toNat, ⟨BitVec.ofNat 32 ((wgNow s).core % 8 * 2 ^ 20 + 4096 * b), false⟩)] })
  | sallocNone (o : CS) (h : (State.sc s o.s.toNat).p = false) (v : 0 < (State.sc s o.s.toNat).v.toNat)
      (m : (State.sc s o.s.toNat).v.toNat ≤ 1048576)
      (f : ∀ b, ¬ RunFree s (((State.sc s o.s.toNat).v.toNat + 4095) / 4096) b) :
      SramActs s (.salloc o) s (some { scals := [(o.s.toNat, ⟨0xFFFFFFFF, false⟩)] })
  | sfree (o : CS) (x : Alloc) (h : (State.sc s o.s.toNat).p = false)
      (f : (wgNow s).allocs.find? (fun y => y.base == (State.sc s o.s.toNat).v.toNat) = some x)
      (a : ∀ e ∈ (Device.cluster s.dev ((wgNow s).core / 8)).absent, ¬ (x.base / 128 ≤ e.1 ∧ e.1 < (x.base + 4096 * x.blocks) / 128))
      (u : Device.rangeUsed s.dev ((wgNow s).core / 8) x.base (4096 * x.blocks) = false)
      (z : ∀ e ∈ s.dev.fills, e.cl = (wgNow s).core / 8 → ¬ (128 * e.line < x.base + 4096 * x.blocks ∧ x.base < 128 * e.line + 128 * e.left)) :
      SramActs s (.sfree o) (withWg s { wgNow s with allocs := (wgNow s).allocs.filter (fun y => y.base != x.base) }) none
  | presGet (o : CS) (v : Word) (h : (State.sc s o.s.toNat).p = false) (al : (State.sc s o.s.toNat).v.toNat % 128 = 0)
      (b : ∀ i < 32, v.getLsbD i =
        ((Device.localFault s.pre (State.src s).wg ((State.sc s o.s.toNat).v.toNat + 128 * i : Nat) 128).isNone
          && !Device.lineAbsent s.pre ((State.src s).core / 8) ((State.sc s o.s.toNat).v.toNat + 128 * i))) :
      SramActs s (.presGet o) s (some { scals := [(o.s.toNat + 1, ⟨v, false⟩)] })
  | presSet (o : CS) (h : (State.sc s o.s.toNat).p = false) (h' : (State.sc s (o.s.toNat + 1)).p = false)
      (al : (State.sc s o.s.toNat).v.toNat % 128 = 0) (k : 0 < (State.sc s (o.s.toNat + 1)).v.toNat)
      (m : (State.sc s (o.s.toNat + 1)).v.toNat ≤ 8192)
      (f : ∀ i < (State.sc s (o.s.toNat + 1)).v.toNat,
        Device.localFault s.pre (State.src s).wg ((State.sc s o.s.toNat).v.toNat + 128 * i : Nat) 128 = none) :
      SramActs s (.presSet o)
        (withCluster s { clusterNow s with
          absent := (clusterNow s).absent.filter (fun e => e.1 < (State.sc s o.s.toNat).v.toNat / 128
            || (State.sc s o.s.toNat).v.toNat / 128 + (State.sc s (o.s.toNat + 1)).v.toNat ≤ e.1)
          spois := (clusterNow s).spois.filter (fun e => e < (State.sc s o.s.toNat).v.toNat / 4
            || ((State.sc s o.s.toNat).v.toNat + 128 * (State.sc s (o.s.toNat + 1)).v.toNat) / 4 ≤ e) }) none
  | rinit (o : CS) (h : (State.sc s o.s.toNat).p = false) (f : RingFits s (State.sc s o.s.toNat).v) :
      SramActs s (.rinit o)
        { withCluster s { clusterNow s with
            rings := Tbl.put (clusterNow s).rings (ringDesc (State.sc s o.s.toNat).v).ring
              (freshRing (State.src s).wg (ringDesc (State.sc s o.s.toNat).v)) } with
          dev.uid := s.dev.uid + 1
          dev.mem := zeroed s.dev.mem (2 ^ 48 + (State.src s).core / 8 * 2 ^ 23 + (freshRing (State.src s).wg (ringDesc (State.sc s o.s.toNat).v)).base)
            (131072 * 2 ^ (ringDesc (State.sc s o.s.toNat).v).nb)
          dev.fills := s.dev.fills ++ [⟨s.dev.uid, (State.src s).core / 8, (freshRing (State.src s).wg (ringDesc (State.sc s o.s.toNat).v)).base / 128,
            1024 * 2 ^ (ringDesc (State.sc s o.s.toNat).v).nb, true⟩] } none
  | rinitFree (o : CS) (x : Ring) (h : (State.sc s o.s.toNat).p = false) (n : (State.sc s o.s.toNat).v.toNat < 32)
      (g : Tbl.get? (clusterNow s).rings (State.sc s o.s.toNat).v.toNat = some x) (w : x.owner = (State.src s).wg)
      (e : x.prods = [] ∧ x.cons = []) (q : Device.ringNamed s.dev ((State.src s).core / 8) (State.sc s o.s.toNat).v.toNat = false) :
      SramActs s (.rinitFree o)
        { withCluster s { clusterNow s with rings := Tbl.del (clusterNow s).rings (State.sc s o.s.toNat).v.toNat } with
          dev.fills := s.dev.fills.filter (fun f => !Ring.fills x ((State.src s).core / 8) f) } none
  | rpushRes (o : CRing) (x : Ring) (g : RingIs s o.r x) (c : RingCount s o x)
      (p : Device.prodReady s.dev ((State.src s).core / 8) x (State.sc s o.s.toNat).v.toNat = true) :
      SramActs s (.rpushRes o)
        (withRing s o.r { x with pres := x.pres + (State.sc s o.s.toNat).v,
                                 prods := x.prods ++ [⟨s.ctx.wave, false, (State.sc s o.s.toNat).v.toNat, false⟩] })
        (some { scals := [(o.s.toNat, ⟨entryAddr x x.pres, false⟩), (o.s.toNat + 1, ⟨x.pres, false⟩)] })
  | rpopRes (o : CRing) (x : Ring) (g : RingIs s o.r x) (c : RingCount s o x)
      (p : Device.consReady s.dev ((State.src s).core / 8) x (State.sc s o.s.toNat).v.toNat = true) :
      SramActs s (.rpopRes o)
        (withRing s o.r { x with cres := x.cres + (State.sc s o.s.toNat).v,
                                 cons := x.cons ++ [⟨s.ctx.wave, false, (State.sc s o.s.toNat).v.toNat, false⟩] })
        (some { scals := [(o.s.toNat, ⟨entryAddr x x.cres, false⟩), (o.s.toNat + 1, ⟨x.cres, false⟩)] })
  | rpushCmt (o : CRing) (x : Ring) (g : RingIs s o.r x) (c : RingCount s o x)
      (p : oldestOpen s.ctx.wave x.prods = some (State.sc s o.s.toNat).v.toNat) (k : Wave.counter (State.cur s) 1 = 0) (e : NoneEarlier s) :
      SramActs s (.rpushCmt o) (State.doneOp (withRing s o.r (Ring.commit x s.ctx.wave false)) 1) none
  | rpopRel (o : CRing) (x : Ring) (g : RingIs s o.r x) (c : RingCount s o x)
      (p : oldestOpen s.ctx.wave x.cons = some (State.sc s o.s.toNat).v.toNat) (k : Wave.counter (State.cur s) 0 = 0) (e : NoneEarlier s) :
      SramActs s (.rpopRel o) (State.doneOp (withRing s o.r (Ring.release x s.ctx.wave false)) 0) none
  | rlen (o : CRing) (x : Ring) (g : RingIs s o.r x) :
      SramActs s (.rlen o) s
        (some { scals := [(o.s.toNat, ⟨BitVec.ofNat 32 (x.pcom - x.cres).toNat, false⟩),
                    (o.s.toNat + 1, ⟨BitVec.ofNat 32 (x.cap - (x.pres - x.crel).toNat), false⟩)] })

/-- The registers of the wave are as a change says. -/
structure RegsLead (c : Change) (s t : State) : Prop where
  vec  : ∀ id l, l < 64 → Wave.elemOf (State.cur t) id l = Change.vec c s id l
  sc   : ∀ n, Wave.sc (State.cur t) n = Change.sc c s n
  pred : ∀ k l, l < 64 →
    ((Wave.pred (State.cur t) k).v.getLsbD l, (Wave.pred (State.cur t) k).p.getLsbD l) = Change.pred c s k l
  flag : ∀ q, Wave.flagOf (State.cur t) q = Change.flag c s q

/-- `stl` (R188): each stored byte holds the data of the highest lane that covers it, or, where an outstanding copy has written it, may hold what stood there (R270); every other byte is as before; a store of elements clears their poison (R183); bytes of an absent line are marked as stored (R184). -/
structure StoredLocal (s : State) (o : MS) (t : State) : Prop where
  rest   : OnlyLocal s t
  early  : ∀ a, Device.earlyWriter t.dev ((State.src s).core / 8) a =
    if Device.lineAbsent s.dev ((State.src s).core / 8) a = true
        ∧ ∃ l < 64, (storers s).getLsbD l = true ∧ coversLocal s o.b o.a (2 ^ o.sz.toNat) l a then some 0
    else Device.earlyWriter s.dev ((State.src s).core / 8) a
  regs   : RegsLead { reads := [(o.la, o.a.toNat)] } s t
  others : ∀ x, (∀ l < 64, (storers s).getLsbD l = true →
      ¬ (2 ^ 48 + (State.src s).core / 8 * 2 ^ 23 + (localAt s o.b o.a l).toNat ≤ x
        ∧ x < 2 ^ 48 + (State.src s).core / 8 * 2 ^ 23 + (localAt s o.b o.a l).toNat + 2 ^ o.sz.toNat)) →
    Memory.read t.dev.mem x = Memory.read s.dev.mem x
  stored : ∀ l < 64, (storers s).getLsbD l = true → ∀ k < 2 ^ o.sz.toNat,
    (∀ h < 64, l < h → (storers s).getLsbD h = true → ¬ coversLocal s o.b o.a (2 ^ o.sz.toNat) h ((localAt s o.b o.a l).toNat + k)) →
    localByte t ((localAt s o.b o.a l).toNat + k) = dataByte s o.x l k
    ∨ (Raced s (2 ^ 48 + (State.src s).core / 8 * 2 ^ 23 + (localAt s o.b o.a l).toNat + k)
      ∧ ((∀ h < l, (storers s).getLsbD h = true → ¬ coversLocal s o.b o.a (2 ^ o.sz.toNat) h ((localAt s o.b o.a l).toNat + k)) →
        localByte t ((localAt s o.b o.a l).toNat + k) = localByte s ((localAt s o.b o.a l).toNat + k)))
  poison : ∀ x, localPoison t (4 * x) = (localPoison s (4 * x)
    && !(decide (4 ≤ 2 ^ o.sz.toNat) && lanes64.any (fun l => (storers s).getLsbD l
      && decide ((localAt s o.b o.a l).toNat / 4 ≤ x ∧ x < (localAt s o.b o.a l).toNat / 4 + 2 ^ o.sz.toNat / 4))))

/-- The value that a 32-bit atomic code writes (R188): add, min and max signed and not, and, or, xor, swap, compare and swap, float add, packed bf16 add, float max. -/
def atomWord (op : Nat) (old x y : Word) : Word :=
  match op with
  | 0 => old + x
  | 1 => least old x
  | 2 => greatest old x
  | 3 => leastN old x
  | 4 => greatestN old x
  | 5 => old &&& x
  | 6 => old ||| x
  | 7 => old ^^^ x
  | 8 => x
  | 9 => if old = x then y else old
  | 10 => BitVec.ofNat 32 (Fmt.round f32 0 false false 0 (Fv.sum false [Fmt.value f32 old.toNat, Fmt.value f32 x.toNat]))
  | 11 => halves (fun a b => BitVec.ofNat 16 (Fmt.round bf16 0 false false 0 (Fv.sum false [Fmt.value bf16 a.toNat, Fmt.value bf16 b.toNat]))) old x
  | _ => BitVec.ofNat 32 (fmaxBits f32 false old.toNat x.toNat)

/-- The value that a 64-bit atomic code writes (R188): add, swap, compare and swap. -/
def atomPair (op : Nat) (old x y : DWord) : DWord :=
  if op = 12 then old + x else if op = 13 then x else if old = x then y else old

/-- Is an atomic code one of 8 bytes (R41, R187). -/
def wideAtom (op : BitVec 4) : Bool := op == 12 || op == 13 || op == 14

/-- How many registers the data of an atomic code takes (R41, R187). -/
def atomData (op : BitVec 4) : Nat := if op = 14 then 4 else if op = 9 ∨ op = 12 ∨ op = 13 then 2 else 1

/-- The number that an atomic writes: from the old number of its 4 or 8 bytes and the data elements. -/
def atomNumber (op : BitVec 4) (old : Nat) (e : Nat → Word) : Nat :=
  if wideAtom op then (atomPair op.toNat (BitVec.ofNat 64 old) (e 1 ++ e 0) (e 3 ++ e 2)).toNat
  else (atomWord op.toNat (BitVec.ofNat 32 old) (e 0) (e 1)).toNat

/-- One lane of an atomic: the z bytes at an address receive the new number, but for those that stay as they stand. -/
def atomStep (op : BitVec 4) (m : Memory) (pa : Nat) (e : Nat → Word) (keep : Nat → Bool) : Memory :=
  let z := if wideAtom op then 8 else 4
  Memory.writeN m pa ((leBytes z (atomNumber op (ofLeBytes (Memory.readN m pa z)) e)).zipIdx.map
    (fun b => if keep b.2 then Memory.read m (pa + b.2) else b.1))

/-- Which bytes stay as they stand in a lane of a store or an atomic: only such as an outstanding copy has written (R270). -/
def KeepsRaced (s : State) (pa : Nat → Nat) (keep : Nat → Nat → Bool) : Prop := ∀ l k, keep l k = true → Raced s (pa l + k)

/-- Memory as lane n of an atomic finds it: after the lanes of L below n, in ascending order (R188, R215). -/
def atomBefore (op : BitVec 4) (L : Mask) (pa : Nat → Nat) (e : Nat → Nat → Word) (keep : Nat → Nat → Bool) (m : Memory) : Nat → Memory
  | 0 => m
  | n + 1 =>
    if L.getLsbD n then atomStep op (atomBefore op L pa e keep m n) (pa n) (e n) (keep n) else atomBefore op L pa e keep m n

/-- The old number that lane l reads. -/
def atomOld (op : BitVec 4) (L : Mask) (pa : Nat → Nat) (e : Nat → Nat → Word) (keep : Nat → Nat → Bool) (m : Memory) (l : Nat) : Nat :=
  ofLeBytes (Memory.readN (atomBefore op L pa e keep m l) (pa l) (if wideAtom op then 8 else 4))

/-- The place-1 address of a lane's local access. -/
def localPa (s : State) (b : BitVec 8) (a : BitVec 6) (l : Nat) : Nat := 2 ^ 48 + (State.src s).core / 8 * 2 ^ 23 + (localAt s b a l).toNat

/-- The data elements of a lane of an atomic. -/
def atomElems (s : State) (x : BitVec 6) (l i : Nat) : Word := (State.elem s (x.toNat + i) l).v

/-- `atoml` (R185, R188): lane by lane in ascending order; the old value goes to the data registers of the lanes that are no helpers, with the poison of its elements, which stays. That one poisoned element poisons both words of an old value of 8 bytes is the model's choice (log entry 59). -/
structure AtomLocal (s : State) (o : MA) (keep : Nat → Nat → Bool) (t : State) : Prop where
  rest : OnlyLocal s t
  same : (Device.cluster t.dev ((State.src s).core / 8)).absent = (clusterNow s).absent
  kept : KeepsRaced s (localPa s o.b o.a) keep
  mem  : t.dev.mem = atomBefore o.op (storers s) (localPa s o.b o.a) (atomElems s o.x) keep s.dev.mem 64
  pois : ∀ x, localPoison t x = localPoison s x
  vec  : ∀ id l, l < 64 → Wave.elemOf (State.cur t) id l =
    (if (storers s).getLsbD l then
      if id = State.vidOf s o.x.toNat ∨ (wideAtom o.op = true ∧ id = State.vidOf s (o.x.toNat + 1)) then
        ⟨BitVec.ofNat 32 (atomOld o.op (storers s) (localPa s o.b o.a) (atomElems s o.x) keep s.dev.mem l
            / (if id = State.vidOf s o.x.toNat then 1 else 2 ^ 32)),
          localPoison s (localAt s o.b o.a l).toNat || (wideAtom o.op && localPoison s ((localAt s o.b o.a l).toNat + 4))⟩
      else Change.vec { reads := [(o.la, o.a.toNat)] } s id l
    else Change.vec { reads := [(o.la, o.a.toNat)] } s id l)
  sc   : ∀ n, Wave.sc (State.cur t) n = Wave.sc (State.cur s) n

/-- The books of a ring (R192): the reserved counts lead the committed and released ones by the open reservations. -/
def RingBooks (x : Ring) : Prop :=
  x.pres = x.pcom + BitVec.ofNat 32 (x.prods.map (fun r => r.n)).sum ∧ x.cres = x.crel + BitVec.ofNat 32 (x.cons.map (fun r => r.n)).sum

end Sys2Proof.Claim
end

