-- ==== Sys2Proof/Claims/Engine.lean ====
section
/-! DEFINITION. What the statements say of barrier registers and of the words that hand work to an engine: when each completes, what joins the core's queue, what else it changes (R195, R252 to R298, R318 to R337, R357 to R377, R407). -/

namespace Sys2Proof.Claim

open Sys2Proof.Machine

/-- A barrier register of the chain's workgroup, now. -/
def barNow (s : State) (b : BitVec 4) : Bar := (wgNow s).bars.getD b.toNat ⟨0, 0, false, false, 0, false, 0⟩

/-- The state with a barrier register of the chain's workgroup replaced. -/
def withBar (s : State) (b : BitVec 4) (x : Bar) : State :=
  withWg s { wgNow s with bars := putAt (wgNow s).bars b.toNat x ⟨0, 0, false, false, 0, false, 0⟩ }

/-- A register after an arrival without an error (R253): the pending count falls; the last one ends the phase. -/
def arrived (x : Bar) : Bar :=
  if 1 < x.pend then { x with pend := x.pend - 1 }
  else { x with lerr := x.err, lcode := x.ecode, err := false, ecode := 0, ph := !x.ph, pend := x.e }

/-- The scalar of a word, without poison and in 1 to 65,535. -/
def SmallScalar (s : State) (n : BitVec 8) : Prop := (State.sc s n.toNat).p = false ∧ (State.sc s n.toNat).v.toNat < 65536

/-- What a release writes back: every dirty byte of the cluster L1, so that it stands at its point of coherence (R230, R231, R235). -/
def releasedL1 (s : State) : State :=
  { s with dev := Device.l1WriteBack s.dev ((State.src s).core / 8) (fun _ => true) }

/-- The barrier words that complete (R255, R256). -/
inductive BarActs (s : State) : Instr → State → Option Change → Prop where
  | binit (o : CBarS) (h : SmallScalar s o.s) (v : (State.sc s o.s.toNat).v ≠ 0)
      (u : Device.barBusy s.dev (State.src s).wg o.b.toNat = false) :
      BarActs s (.binit o)
        (withBar s o.b ⟨(State.sc s o.s.toNat).v.toNat, (State.sc s o.s.toNat).v.toNat, false, false, 0, false, 0⟩) none
  | barr (o : CBar) (e : (barNow s o.b).e ≠ 0) (p : NoneEarlier s) :
      BarActs s (.barr o) (withBar (releasedL1 s) o.b (arrived (barNow s o.b))) none
  | barx (o : CBarS) (h : SmallScalar s o.s) (e : (barNow s o.b).e ≠ 0)
      (m : (barNow s o.b).pend - 1 + (State.sc s o.s.toNat).v.toNat ≤ 131071) (p : NoneEarlier s) :
      BarActs s (.barx o)
        (withBar (releasedL1 s) o.b (arrived { barNow s o.b with pend := (barNow s o.b).pend + (State.sc s o.s.toNat).v.toNat })) none
  | barw (o : CBarP) (e : (barNow s o.b).e ≠ 0) (p : (barNow s o.b).ph ≠ (o.p == 1)) : BarActs s (.barw o) s none
  | barwS (o : CBarPS) (e : (barNow s o.b).e ≠ 0) (p : (barNow s o.b).ph ≠ (o.p == 1)) :
      BarActs s (.barwS o) s
        (some { scals := [(o.s.toNat, ⟨(barNow s o.b).lcode.setWidth 32 <<< 8 ||| (if (barNow s o.b).lerr then 1 else 0), false⟩)] })
  | bart (o : CBart) (e : (barNow s o.b).e ≠ 0) :
      BarActs s (.bart o) s (some { preds := [(o.q.toNat, fun _ => ((barNow s o.b).ph != (o.p == 1), false))] })
  | cplNone (o : E3) (l : storers s = 0) (r : HasRoom s 2) : BarActs s (.cpl o) (State.doneOp s 2) none
  | cplsNone (o : E3) (l : storers s = 0) (r : HasRoom s 2) : BarActs s (.cpls o) (State.doneOp s 2) none

/-- The state in which an operation has joined the queue of its core and is outstanding in its wave (R239, R271). -/
def queued (s : State) (o : EngOp) (last : Bool) : State :=
  let c := Device.core s.dev o.core
  { s with dev :=
    { Device.setWave (Device.setCore s.dev o.core { c with queue := c.queue ++ [{ o with last := last }] }) s.ctx.wave
        (Wave.addOut (State.cur s) ⟨o.id, o.cls, false, o.dests, []⟩) with uid := s.dev.uid + 1 } }

/-- May an operation join its core's queue (R239, R271): room in its class and in the queue; `last` for the entry that only a ready one takes. -/
def MayQueue (s : State) (o : EngOp) (last : Bool) : Prop := HasRoom s o.cls ∧ Device.queueRoom s.dev o = some last

/-- The owner, address space, lanes and captured modes of an operation that the chain issues. -/
def opOf (s : State) (kind : EngKind) (cls : Nat) : EngOp :=
  { id := s.dev.uid, wave := s.ctx.wave, wg := (State.src s).wg, core := (State.src s).core,
    launch := (Device.gang s.pre (Device.wg s.pre (State.src s).wg).gang).launch, asid := Device.asidOf s.pre (State.src s),
    kind := kind, cls := cls, mask := s.ctx.lanes, helpers := Wave.helpers (State.src s), scal := [], rows := [], reg := 0, ctl := 0,
    dests := [], wb := s.ctx.wb, desc := [], lines := [], sites := [], wrote := [], dstWgs := [], bar := none, ins := [], outs := [], entries := [],
    fmt := (State.src s).fmt, shape := (State.src s).shape, snap := none, tlay := none, tcode := none, phase := 0, aux := [], err := none,
    fired := false, void := false, last := false }

/-- k scalars from n on, as an operation captures them. -/
def scalars (s : State) (n k : Nat) : List Word := (List.range k).map (fun i => (State.sc s (n + i)).v)

/-- No poison in k scalars from n on. -/
def ScalarsClean (s : State) (n k : Nat) : Prop := ∀ i < k, (State.sc s (n + i)).p = false

/-- A vector name as an operation captures it: the subset's lanes. -/
def row (s : State) (v : Nat) : List Word := mkLanes (fun l => if s.ctx.lanes.getLsbD l then (State.elem s v l).v else 0)

/-- k rows from a name on. -/
def rowsOf (s : State) (v k : Nat) : List (List Word) := (List.range k).map (fun i => row s (v + i))

/-- No poison in k names from v on, in lanes of a set. -/
def RowsClean (s : State) (L : Mask) (v k : Nat) : Prop := ∀ l < 64, L.getLsbD l = true → ∀ i < k, (State.elem s (v + i) l).p = false

/-- The lines of some local ranges become absent, as the destination of the copy that the chain issues (R183). -/
def linesGone (s : State) (rs : List (Nat × Nat)) : State :=
  withCluster s { clusterNow s with
    absent := (Device.spadLines s.dev ((State.src s).core / 8) rs).foldl (lineIns s.dev.uid) (clusterNow s).absent }

/-- The global address of a lane copy (R265). -/
def copyGlobal (s : State) (o : E3) (l : Nat) : DWord := (pairScalar s o.s.toNat).1 + (State.elem s o.a.toNat l).v.signExtend 64

/-- The local address of a lane copy (R265). -/
def copyLocal (s : State) (o : E3) (l : Nat) : Int := ((State.sc s (o.s.toNat + 2)).v.toNat : Int) + (State.elem s o.b.toNat l).v.toInt

/-- The width of a lane copy in bytes: 4, 8 or 16. -/
def copyWidth (s : State) (o : E3) : Nat := 4 * 2 ^ ((State.sc s (o.s.toNat + 3)).v.extractLsb' 0 2).toNat

/-- The barrier that a copy arrives on: bits 7:4 where bit 8 is set (R265, R266). -/
def copyBar (x : Word) : Option Nat := if x.getLsbD 8 then some (x.extractLsb' 4 4).toNat else none

/-- A lane copy that meets none of the fates of R265. -/
structure LaneCopy (s : State) (o : E3) : Prop where
  some  : storers s ≠ 0
  zero  : (State.sc s (o.s.toNat + 3)).v.extractLsb' 9 23 = 0 ∧ (State.sc s (o.s.toNat + 3)).v.extractLsb' 2 2 = 0
  width : (State.sc s (o.s.toNat + 3)).v.extractLsb' 0 2 ≠ 3
  block : ScalarsClean s o.s.toNat 4
  lanes : ∀ l < 64, (storers s).getLsbD l = true →
    (State.elem s o.a.toNat l).p = false ∧ (State.elem s o.b.toNat l).p = false
    ∧ canonical (copyGlobal s o l) = true
    ∧ Device.localFault s.pre (State.src s).wg (copyLocal s o l) (copyWidth s o) = none
    ∧ (copyGlobal s o l).toNat % copyWidth s o = 0 ∧ copyLocal s o l % (copyWidth s o : Int) = 0

/-- The local ranges that a lane copy writes or reads. -/
def laneRanges (s : State) (o : E3) : List (Nat × Nat) := (lanesOf (storers s)).map (fun l => ((copyLocal s o l).toNat, copyWidth s o))

/-- The operation of a lane copy. -/
def laneCopyOp (s : State) (o : E3) (kind : EngKind) : EngOp :=
  { opOf s kind 2 with
    scal := scalars s o.s.toNat 4, rows := [row s o.a.toNat, row s o.b.toNat], bar := copyBar (State.sc s (o.s.toNat + 3)).v
    sites := laneRanges s o }

/-- The tensor slot that a box copy names, and its record (R257, R266). -/
def boxSlot (s : State) (n : Nat) : Desc :=
  (Device.wg s.pre (State.src s).wg).descs.getD ((State.sc s n).v.extractLsb' 0 4).toNat ⟨List.replicate 256 0, false⟩

/-- The origin of a box copy. -/
def boxStart (s : State) (n rank : Nat) : List Int := (List.range rank).map (fun i => (State.sc s (n + 2 + i)).v.toInt)

/-- The destinations of a box copy (R267). -/
def boxBases (s : State) (n : Nat) : List Nat := boxDests (State.sc s n).v.toNat (State.sc s (n + 1)).v.toNat

/-- A box copy that meets none of the fates of R261 to R267. -/
structure BoxCopy (s : State) (n : Nat) (scatter : Bool) : Prop where
  zero  : (State.sc s n).v.extractLsb' 20 12 = 0 ∧ (State.sc s n).v.extractLsb' 14 2 = 0 ∧ (State.sc s n).v.extractLsb' 9 3 = 0
  multi : ((State.sc s n).v.extractLsb' 12 2 = 0 ↔ (State.sc s n).v.extractLsb' 16 4 = 0)
  store : scatter = true → (State.sc s n).v.extractLsb' 12 2 = 0 ∧ (State.sc s n).v.extractLsb' 16 4 = 0
  slot  : (boxSlot s n).pois = false
  good  : (TRec.of (boxSlot s n).bytes).bad = false
  room  : n + 1 + (TRec.of (boxSlot s n).bytes).rank ≤ 255
  block : ScalarsClean s n (2 + (TRec.of (boxSlot s n).bytes).rank)
  start : (TRec.of (boxSlot s n).bytes).originBad (boxStart s n (TRec.of (boxSlot s n).bytes).rank) = false
  align : (State.sc s (n + 1)).v.toNat % 128 = 0
  reach : ∀ b ∈ boxBases s n, Device.localFault s.pre (State.src s).wg (b : Int) (TRec.of (boxSlot s n).bytes).foot = none

/-- The local ranges that a box copy writes or reads. -/
def boxRanges (s : State) (n : Nat) : List (Nat × Nat) := (boxBases s n).map (fun b => (b, (TRec.of (boxSlot s n).bytes).foot))

/-- The operation of a box copy. -/
def boxCopyOp (s : State) (n : Nat) (kind : EngKind) : EngOp :=
  { opOf s kind 2 with
    scal := scalars s n (2 + (TRec.of (boxSlot s n).bytes).rank), desc := (boxSlot s n).bytes, aux := boxBases s n,
    bar := copyBar (State.sc s n).v, sites := boxRanges s n }

/-- The wave may use its pair (R274): it runs on the pair's leader core, and its gang owns the pair. -/
def OwnsPair (s : State) : Prop :=
  (State.src s).core % 2 = 0
  ∧ Device.pairOwner s.pre ((State.src s).core / 8 * 4 + (State.src s).core % 8 / 2) = some (Device.wg s.pre (State.src s).wg).gang

/-- The pair of the chain's core. -/
def pairNow (s : State) : Pair := Device.pair s.dev ((State.src s).core / 8 * 4 + (State.src s).core % 8 / 2)

/-- An open burst takes further operations (R301). -/
def BurstOpen (s : State) : Prop := (pairNow s).token = true ∧ (pairNow s).accept = true

/-- The operand descriptor of a matrix word (R281). -/
def operand (s : State) (n : Nat) : MDesc := MDesc.of (State.sc s n).v (State.sc s (n + 1)).v

/-- The tensor slot that a kind 2 descriptor names. -/
def operandSlot (s : State) (n : Nat) : Desc :=
  (Device.wg s.pre (State.src s).wg).descs.getD ((operand s n).base % 16) ⟨List.replicate 256 0, false⟩

/-- An operand descriptor that meets none of the fates of R275, R281 and R284, by its kind: a local tile, a ring entry, a tensor in memory; with the scalars it reads, its record, its input rings, the local ranges it reads. -/
inductive Operand (s : State) (n : Nat) (stat : Bool) : List Word → List Byte → List (Nat × Nat) → List (Nat × Nat) → Prop where
  | tile (k : (operand s n).kind = 0) (c : ScalarsClean s n 2) (al : (operand s n).base % 128 = 0)
      (r : Device.localFault s.pre (State.src s).wg ((operand s n).base : Int) ((operand s n).foot (fmtMx (State.src s).fmt)) = none) :
      Operand s n stat (scalars s n 2) [] [] [((operand s n).base, (operand s n).foot (fmtMx (State.src s).fmt))]
  | ring (x : Ring) (k : (operand s n).kind = 1) (c : ScalarsClean s n 2) (g : RingIs s (BitVec.ofNat 5 (operand s n).base) x)
      (f : (operand s n).foot (fmtMx (State.src s).fmt) ≤ 128 * 2 ^ x.esz) :
      Operand s n stat (scalars s n 2) [] [((operand s n).base, 1)] []
  | tensor (t : TRec) (ht : t = TRec.of (operandSlot s n).bytes) (k : (operand s n).kind = 2) (p : (operandSlot s n).pois = false)
      (rk : t.rankOk = true) (c : ScalarsClean s n (2 + t.rank)) (rm : n + 1 + t.rank ≤ 255)
      (g : MDesc.badRecord t (if stat then fmtB (State.src s).fmt else fmtA (State.src s).fmt) (fmtMx (State.src s).fmt)
        (State.sc s (n + 2)).v.toInt = false)
      (b : canonical (BitVec.ofNat 64 t.base) = true) (m : fmtMx (State.src s).fmt = true → canonical (BitVec.ofNat 64 t.mxbase) = true) :
      Operand s n stat (scalars s n (2 + t.rank)) (operandSlot s n).bytes [] []

/-- The conditions that every operand descriptor meets. -/
def OperandForm (s : State) (n : Nat) (stat : Bool) : Prop :=
  OwnsPair s ∧ (State.src s).fmt ≠ 0 ∧ (operand s n).reserved (fmtMx (State.src s).fmt) = false
  ∧ (operand s n).badGeom stat (State.src s).fmt = false

/-- The registers that a register-form `mmul` reads (R288). -/
def fragmentRegs (f : Word) : Nat := if fmtMx f then (if fmtW f = 4 then 34 else 33) else 32

/-- A drain's control word (R292). -/
def drainCtl (s : State) (n : Nat) : DCtl := DCtl.of (State.sc s n).v

/-- The registers that a register drain writes (R293). -/
def drainRegs (s : State) (n : Nat) (bf : Bool) : Nat := if bf then (drainCtl s n).nc / 2 else (drainCtl s n).nc

/-- A register drain that meets none of the fates of R292 and R293. -/
structure DrainReg (s : State) (o : EDrainR) (bf : Bool) : Prop where
  pair  : OwnsPair s
  clean : (State.sc s o.s.toNat).p = false
  fmt   : (State.src s).fmt ≠ 0
  float : bf = true → fmtAcc (State.src s).fmt = false
  zero  : (State.sc s o.s.toNat).v.toNat < 65536
  cols  : (drainCtl s o.s.toNat).c0 + (drainCtl s o.s.toNat).nc ≤ 128
  regs  : o.d.toNat + drainRegs s o.s.toNat bf ≤ 64
  most  : if bf then (drainCtl s o.s.toNat).nc % 2 = 0 ∧ (drainCtl s o.s.toNat).nc ≤ 64 else (drainCtl s o.s.toNat).nc ≤ 32

/-- The drain's operation: bank, destination kind and `.clr`; the workgroup's index for its draws (R69). -/
def drainWith (s : State) (n : BitVec 2) (dk : Nat) (w : BitVec 1) (scal : List Word) : EngOp :=
  { opOf s .mdrain 3 with ctl := n.toNat + 4 * dk + 32 * w.toNat, reg := Device.wgLinear s.pre (State.src s), scal := scal }

/-- The eight scalars of a drain block, those that it does not use as zero (R292). -/
def drainScalars (s : State) (n : Nat) (used : Nat → Bool) : List Word := (List.range 8).map (fun i => if used i then (State.sc s (n + i)).v else 0)

/-- Names that are allocated with the elements they show (R293, R327). -/
def keepNames (s : State) (d k : Nat) : Change :=
  { vecs := (List.range k).map (fun i => (d + i, fun l => Wave.elemOf (State.cur s) (State.vidOf s (d + i)) l, false)) }

/-- The version header's address of a word (R318): canonical and a multiple of 128. -/
def HeaderAt (s : State) (n : Nat) : Prop :=
  ScalarsClean s n 2 ∧ canonical (pairScalar s n).1 = true ∧ (pairScalar s n).1.toNat % 128 = 0

/-- The operation of a header word. -/
def headerWith (s : State) (kind : EngKind) (n : Nat) (dests : List RegId) : EngOp :=
  { opOf s kind 4 with reg := n, scal := scalars s n 2, dests := dests }

/-- The wave's bound version (R324). -/
def Bound (s : State) (b : VBind) : Prop := (State.src s).vbind = some b ∧ State.binding s = false

/-- A query's control word fits the bound version (R326). -/
def QueryFits (s : State) (b : VBind) (n : Nat) : Prop :=
  (State.sc s n).p = false ∧ hxReserved (State.sc s n).v = false
  ∧ hxL0 (State.sc s n).v + hxNl (State.sc s n).v ≤ hdrLevels b.snap

/-- The registers that a query writes: two a level with OUT = 0, else one (R327). -/
def queryRegs (x : Word) : Nat := if hxOut x = 0 then 2 * hxNl x else hxNl x

/-- The operation of a query. -/
def queryOp (s : State) (p n : Nat) (b : VBind) (dests : List RegId) (outs : List (Nat × Nat)) : EngOp :=
  let op : EngOp := { opOf s .hxq 4 with scal := [(State.sc s n).v], rows := rowsOf s p 3, dests := dests, snap := some b, outs := outs }
  { op with sites := op.hashSites }

/-- No ray slot of the subset is being filled or runs, and no binding word is outstanding (R334). -/
def RaysFree (s : State) : Prop := State.travBinding s = false ∧ Device.slotBusy s.dev s.ctx.wave s.ctx.lanes = false

/-- An address pair of an engine word: clean, canonical, a multiple of n. -/
def AddressAt (s : State) (r n : Nat) : Prop :=
  ScalarsClean s r 2 ∧ canonical (pairScalar s r).1 = true ∧ (pairScalar s r).1.toNat % n = 0

/-- A `trace` or `tstamp` that meets none of the fates of R336. -/
structure TraceGood (s : State) (o : E2) (k : Nat) : Prop where
  free  : RaysFree s
  lay   : (State.src s).tlay.isSome = true
  code  : (State.src s).tcode.isSome = true
  block : ScalarsClean s o.s.toNat 4
  lanes : RowsClean s (storers s) o.p.toNat k
  addr  : AddressAt s o.s.toNat 256

/-- The 64-bit record address of a lane of `tresume`. -/
def resumeAt (s : State) (p l : Nat) : DWord := (pairElem s p l).1

/-- A `tresume` that meets none of the fates of R372 and R373. -/
structure ResumeGood (s : State) (o : E2) : Prop where
  free  : Device.slotBusy s.dev s.ctx.wave s.ctx.lanes = false
  block : ScalarsClean s o.s.toNat 3
  addr  : AddressAt s o.s.toNat 256
  clean : RowsClean s (storers s) o.p.toNat 3
  hits  : ∀ l < 64, (storers s).getLsbD l = true → (State.elem s (o.p.toNat + 2) l).v.toNat % 4 = 3 →
    ∀ i < 4, (State.elem s (o.p.toNat + 3 + i) l).p = false
  act   : ∀ l < 64, (storers s).getLsbD l = true → (State.elem s (o.p.toNat + 2) l).v.toNat < 1024
  rec_  : ∀ l < 64, (storers s).getLsbD l = true → canonical (resumeAt s o.p.toNat l) = true ∧ (resumeAt s o.p.toNat l).toNat % 256 = 0

/-- The words that hand an operation to an engine, where they meet no fate: the machine when it joins the queue, the operation, the registers that are allocated with it. -/
inductive EngineActs (s : State) : Instr → State → EngOp → Option Change → Prop where
  | cpl (o : E3) (h : LaneCopy s o) :
      EngineActs s (.cpl o) (linesGone s (laneRanges s o))
        { laneCopyOp s o .cpl with
          lines := Device.spadLines s.dev ((State.src s).core / 8) (laneRanges s o)
          dstWgs := Device.allocOwners s.dev ((State.src s).core / 8) (laneRanges s o) } none
  | cpls (o : E3) (h : LaneCopy s o) : EngineActs s (.cpls o) s { laneCopyOp s o .cpls with dstWgs := [(State.src s).wg] } none
  | cpt (o : E1) (h : BoxCopy s o.s.toNat false) :
      EngineActs s (.cpt o) (linesGone s (boxRanges s o.s.toNat))
        { boxCopyOp s o.s.toNat .cpt with
          lines := Device.spadLines s.dev ((State.src s).core / 8) (boxRanges s o.s.toNat)
          dstWgs := Device.allocOwners s.dev ((State.src s).core / 8) (boxRanges s o.s.toNat) } none
  | cpts (o : E1) (h : BoxCopy s o.s.toNat true) :
      EngineActs s (.cpts o) s { boxCopyOp s o.s.toNat .cpts with dstWgs := [(State.src s).wg] } none
  | mload (o : EJ) (x : List Word) (d : List Byte) (r y : List (Nat × Nat)) (f : OperandForm s o.s.toNat true)
      (h : Operand s o.s.toNat true x d r y) :
      EngineActs s (.mload o) s { opOf s .mload 3 with reg := o.j.toNat, scal := x, desc := d, ins := r, sites := y } none
  | mmul (o : EMmul) (x : List Word) (d : List Byte) (r y : List (Nat × Nat)) (f : OperandForm s o.s.toNat false)
      (h : Operand s o.s.toNat false x d r y) (b : BurstOpen s) :
      EngineActs s (.mmul o) s
        { opOf s .mmul 3 with ctl := o.n.toNat + 4 * o.j.toNat + 8 * o.z.toNat, scal := x, desc := d, ins := r, sites := y } none
  | mmulReg (o : EMmulR) (p : OwnsPair s) (f : (State.src s).fmt ≠ 0) (k : o.d.toNat + fragmentRegs (State.src s).fmt ≤ 64)
      (c : ∀ l < 64, ∀ i < fragmentRegs (State.src s).fmt, (State.elem s (o.d.toNat + i) l).p = false) (b : BurstOpen s) :
      EngineActs s (.mmulReg o) s
        { opOf s .mmul 3 with
          ctl := o.n.toNat + 4 * o.j.toNat + 8 * o.z.toNat + 16
          rows := (List.range (fragmentRegs (State.src s).fmt)).map (fun i => mkLanes (fun l => (State.elem s (o.d.toNat + i) l).v)) } none
  | mdrainF32 (o : EDrainR) (h : DrainReg s o false) (ok : s.ctx.status = .ok) :
      EngineActs s (.mdrainF32 o) s
        { drainWith s o.n 0 o.w [(State.sc s o.s.toNat).v] with
          dests := (List.range (drainRegs s o.s.toNat false)).map (fun i => Wave.vid (State.src s) s.ctx.wb (o.d.toNat + i)) }
        (some (keepNames s o.d.toNat (drainRegs s o.s.toNat false)))
  | mdrainBf16 (o : EDrainR) (h : DrainReg s o true) (ok : s.ctx.status = .ok) :
      EngineActs s (.mdrainBf16 o) s
        { drainWith s o.n 1 o.w [(State.sc s o.s.toNat).v] with
          dests := (List.range (drainRegs s o.s.toNat true)).map (fun i => Wave.vid (State.src s) s.ctx.wb (o.d.toNat + i)) }
        (some (keepNames s o.d.toNat (drainRegs s o.s.toNat true)))
  | mdrainTile (o : EDrain) (u : Nat → Bool) (hu : ∀ i, u i = (i == 0 || (i == 1 && (drainCtl s o.s.toNat).scl) || i == 2 || i == 3))
      (pr : OwnsPair s) (c : ∀ i < 8, u i = true → (State.sc s (o.s.toNat + i)).p = false) (f : (State.src s).fmt ≠ 0)
      (z : drainReserved (State.src s).fmt (State.sc s o.s.toNat).v 2 = false)
      (p : (State.sc s (o.s.toNat + 3)).v.toNat % 16 = 0 ∧ (drainCtl s o.s.toNat).rb ≤ (State.sc s (o.s.toNat + 3)).v.toNat
        ∧ ((drainCtl s o.s.toNat).swiz = true → (State.sc s (o.s.toNat + 3)).v.toNat % 128 = 0))
      (a : (State.sc s (o.s.toNat + 2)).v.toNat % 128 = 0)
      (r : Device.localFault s.pre (State.src s).wg ((State.sc s (o.s.toNat + 2)).v.toNat : Int)
        ((drainCtl s o.s.toNat).foot (State.sc s (o.s.toNat + 3)).v.toNat) = none) :
      EngineActs s (.mdrainTile o)
        (linesGone s [((State.sc s (o.s.toNat + 2)).v.toNat, (drainCtl s o.s.toNat).foot (State.sc s (o.s.toNat + 3)).v.toNat)])
        { drainWith s o.n 2 o.w (drainScalars s o.s.toNat u) with
          lines := Device.spadLines s.dev ((State.src s).core / 8)
            [((State.sc s (o.s.toNat + 2)).v.toNat, (drainCtl s o.s.toNat).foot (State.sc s (o.s.toNat + 3)).v.toNat)]
          sites := [((State.sc s (o.s.toNat + 2)).v.toNat, (drainCtl s o.s.toNat).foot (State.sc s (o.s.toNat + 3)).v.toNat)] } none
  | mdrainRing (o : EDrain) (x : Ring) (u : Nat → Bool)
      (hu : ∀ i, u i = (i == 0 || (i == 1 && (drainCtl s o.s.toNat).scl) || i == 2 || i == 3))
      (pr : OwnsPair s) (c : ∀ i < 8, u i = true → (State.sc s (o.s.toNat + i)).p = false) (f : (State.src s).fmt ≠ 0)
      (z : drainReserved (State.src s).fmt (State.sc s o.s.toNat).v 3 = false) (n : (State.sc s (o.s.toNat + 2)).v.toNat < 32)
      (p : (State.sc s (o.s.toNat + 3)).v.toNat % 16 = 0 ∧ (drainCtl s o.s.toNat).rb ≤ (State.sc s (o.s.toNat + 3)).v.toNat
        ∧ ((drainCtl s o.s.toNat).swiz = true → (State.sc s (o.s.toNat + 3)).v.toNat % 128 = 0))
      (g : RingIs s (BitVec.ofNat 5 (State.sc s (o.s.toNat + 2)).v.toNat) x)
      (e : (drainCtl s o.s.toNat).foot (State.sc s (o.s.toNat + 3)).v.toNat ≤ 128 * 2 ^ x.esz) :
      EngineActs s (.mdrainRing o) s
        { drainWith s o.n 3 o.w (drainScalars s o.s.toNat u) with outs := [((State.sc s (o.s.toNat + 2)).v.toNat, 1)] } none
  | mdrainPort (o : EDrain) (u : Nat → Bool)
      (hu : ∀ i, u i = (i == 0 || (i == 1 && (drainCtl s o.s.toNat).scl) || i == 2 || i == 3 || i == 4
        || ((i == 6 || i == 7) && (drainCtl s o.s.toNat).mxo)))
      (pr : OwnsPair s) (c : ∀ i < 8, u i = true → (State.sc s (o.s.toNat + i)).p = false) (f : (State.src s).fmt ≠ 0)
      (z : drainReserved (State.src s).fmt (State.sc s o.s.toNat).v 4 = false)
      (n : (drainCtl s o.s.toNat).mxo = true → o.s.toNat ≤ 248)
      (p : (State.sc s (o.s.toNat + 4)).v.toInt % 16 = 0 ∧ (drainCtl s o.s.toNat).rb ≤ (State.sc s (o.s.toNat + 4)).v.toInt.natAbs)
      (a : (pairScalar s (o.s.toNat + 2)).1.toNat % 16 = 0) (k : canonical (pairScalar s (o.s.toNat + 2)).1 = true)
      (m : (drainCtl s o.s.toNat).mxo = true → canonical (pairScalar s (o.s.toNat + 6)).1 = true) :
      EngineActs s (.mdrainPort o) s (drainWith s o.n 4 o.w (drainScalars s o.s.toNat u)) none
  | mclr (o : EMask) (p : OwnsPair s) : EngineActs s (.mclr o) s { opOf s .mclr 3 with ctl := o.m.toNat } none
  | hxcfg (o : E1) (h : HeaderAt s o.s.toNat) :
      EngineActs s (.hxcfg o) s (headerWith s .hxcfg o.s.toNat [.scal (o.s.toNat + 2), .scal (o.s.toNat + 3)]) none
  | vpub (o : E1) (h : HeaderAt s o.s.toNat) (p : NoneEarlier s) :
      EngineActs s (.vpub o) (releasedL1 s) (headerWith s .vpub o.s.toNat [.scal (o.s.toNat + 2), .scal (o.s.toNat + 3)]) none
  | vbind (o : E1) (h : HeaderAt s o.s.toNat ∨ (ScalarsClean s o.s.toNat 2 ∧ (pairScalar s o.s.toNat).1 = 0))
      (p : NoneEarlier s) :
      EngineActs s (.vbind o) (releasedL1 s)
        (headerWith s .vbind o.s.toNat
          [.scal (o.s.toNat + 2), .scal (o.s.toNat + 3), .scal (o.s.toNat + 4), .scal (o.s.toNat + 5), .bind 0]) none
  | hxq (o : E3) (b : VBind) (h : Bound s b) (q : QueryFits s b o.s.toNat) (t : hxOut (State.sc s o.s.toNat).v ≠ 3)
      (d : o.b.toNat + queryRegs (State.sc s o.s.toNat).v ≤ 64) (c : RowsClean s s.ctx.lanes o.a.toNat 3) (ok : s.ctx.status = .ok) :
      EngineActs s (.hxq o) s
        (queryOp s o.a.toNat o.s.toNat b
          ((List.range (queryRegs (State.sc s o.s.toNat).v)).map (fun i => Wave.vid (State.src s) s.ctx.wb (o.b.toNat + i))) [])
        (some (keepNames s o.b.toNat (queryRegs (State.sc s o.s.toNat).v)))
  | hxqRing (o : E2) (b : VBind) (x : Ring) (h : Bound s b) (q : QueryFits s b o.s.toNat) (t : hxOut (State.sc s o.s.toNat).v = 3)
      (c : RowsClean s s.ctx.lanes o.p.toNat 3) (g : RingIs s ((State.sc s o.s.toNat).v.extractLsb' 0 5) x)
      (e : 64 * hxPitch (hxNl (State.sc s o.s.toNat).v) ≤ 128 * 2 ^ x.esz) (ok : s.ctx.status = .ok) :
      EngineActs s (.hxqRing o) s
        (queryOp s o.p.toNat o.s.toNat b [] [(((State.sc s o.s.toNat).v.extractLsb' 0 5).toNat, 1)]) none
  | hxqRegs (o : E2) (b : VBind) (h : Bound s b) (q : QueryFits s b o.s.toNat) (t : hxOut (State.sc s o.s.toNat).v ≠ 3)
      (c : RowsClean s s.ctx.lanes o.p.toNat 3) (ok : s.ctx.status = .ok) :
      EngineActs s (.hxqRing o) s
        (queryOp s o.p.toNat o.s.toNat b
          ((List.range (queryRegs (State.sc s o.s.toNat).v)).map (fun i => Wave.vid (State.src s) s.ctx.wb i)) [])
        (some (keepNames s 0 (queryRegs (State.sc s o.s.toNat).v)))
  | hxg (o : E3) (b : VBind) (h : Bound s b) (q : QueryFits s b o.s.toNat) (t : hxOut (State.sc s o.s.toNat).v = 0)
      (d : o.b.toNat + 2 * hxNl (State.sc s o.s.toNat).v ≤ 64) (g : hdrField b.snap 0x10 8 ≠ 0)
      (c : RowsClean s s.ctx.lanes o.a.toNat 3) (c' : RowsClean s s.ctx.lanes o.b.toNat (2 * hxNl (State.sc s o.s.toNat).v)) :
      EngineActs s (.hxg o) s
        { opOf s .hxg 4 with
          scal := [(State.sc s o.s.toNat).v]
          rows := rowsOf s o.a.toNat 3 ++ rowsOf s o.b.toNat (2 * hxNl (State.sc s o.s.toNat).v)
          snap := some b } none
  | tlayout (o : E1) (h : AddressAt s o.s.toNat 128) (u : State.boundNow s 1 = false) :
      EngineActs s (.tlayout o) s
        { opOf s .tlayout 5 with reg := o.s.toNat, scal := scalars s o.s.toNat 2, dests := [.scal (o.s.toNat + 2), .bind 1] } none
  | tcode (o : E1) (h : AddressAt s o.s.toNat 16) (u : State.boundNow s 2 = false) :
      EngineActs s (.tcode o) s
        { opOf s .tcode 5 with reg := o.s.toNat, scal := scalars s o.s.toNat 2, dests := [.scal (o.s.toNat + 2), .bind 2] } none
  | trace (o : E2) (h : TraceGood s o 10) :
      EngineActs s (.trace o) s
        { opOf s .trace 5 with
          scal := scalars s o.s.toNat 4, rows := rowsOf s o.p.toNat 10, tlay := (State.src s).tlay, tcode := (State.src s).tcode } none
  | tstamp (o : E2) (h : TraceGood s o 2) :
      EngineActs s (.tstamp o) s
        { opOf s .tstamp 5 with
          scal := scalars s o.s.toNat 4, rows := rowsOf s o.p.toNat 2, tlay := (State.src s).tlay, tcode := (State.src s).tcode } none
  | tresume (o : E2) (h : ResumeGood s o) :
      EngineActs s (.tresume o) s { opOf s .tresume 5 with scal := scalars s o.s.toNat 3, rows := rowsOf s o.p.toNat 7 } none
  | tabort (o : C0) : EngineActs s (.tabort o) s (opOf s .tabort 5) none
  | coll (o : E1) (h : AddressAt s o.s.toNat 256) (p : NoneEarlier s) :
      EngineActs s (.coll o) (releasedL1 s)
        { opOf s .coll 6 with scal := scalars s o.s.toNat 2, dests := [.scal (o.s.toNat + 2)] } none

/-- The values that `tget` gives of a lane's ray (R358): with no ray, zero; with no hit, T is infinite and the hit's fields zero. -/
def rayWord (r : Option Ray) (l i : Nat) : Word :=
  match r with
  | none => 0
  | some r =>
    if i = 0 then (if r.hit.valid then r.hit.t else 0x7F800000)
    else if i = 1 then (if r.hit.valid then r.hit.prim else 0)
    else if i = 2 then (if r.hit.valid then r.hit.inst else 0)
    else if i = 3 then (if r.hit.valid then r.hit.u else 0)
    else if i = 4 then (if r.hit.valid then r.hit.v else 0)
    else if i = 5 then BitVec.ofNat 32 r.status
    else if i = 6 then (r.slot l).extractLsb' 0 32 else (r.slot l).extractLsb' 32 32

/-- `tget`: the eight names from D on. -/
def changeTget (s : State) (o : EV) : Change :=
  { vecs := (List.range 8).map (fun i => (o.d.toNat + i, fun l => ⟨rayWord (Tbl.get? (State.src s).rays l) l i, false⟩, false)) }

end Sys2Proof.Claim
end

