-- ==== Sys2Proof/Claims/Flow.lean ====
section
/-! DEFINITION. What the statements say of control flow (R25, R26, R89 to R98, R107, R126 to R131): where lanes go, what a call leaves in its frame, what a return takes out, what an exit ends. -/

namespace Sys2Proof.Claim

open Sys2Proof.Machine

/-- The address of the branch word plus four times its signed offset (R34). -/
def wordTarget (s : State) {n : Nat} (off : BitVec n) : DWord := s.ctx.wordPc + 4 * off.signExtend 64

/-- The lanes that pass a test, in the subset. -/
def lanesWith (s : State) (f : Nat → Bool) : Mask := s.ctx.lanes &&& maskOf f

/-- The branch and jump words whose operands carry no poison: the lanes that transfer, and where each goes (R89, R90, R92). -/
inductive Transfer (s : State) : Instr → Mask → (Nat → DWord) → Prop where
  | bra (o : BF) (h : ∀ l < 64, s.ctx.lanes.getLsbD l = true → State.pp s o.p.toNat l = false) :
      Transfer s (.bra o) (lanesWith s (fun l => xor (State.pv s o.p.toNat l) (o.n == 1))) (fun _ => wordTarget s o.off)
  | sbr (o : SB) (h : (State.flag s o.q.toNat).p = false) :
      Transfer s (.sbr o) (if xor (State.flag s o.q.toNat).v (o.n == 1) then s.ctx.lanes else 0) (fun _ => wordTarget s o.off)
  | jmpS (o : CS) (h : (pairScalar s o.s.toNat).2 = false) :
      Transfer s (.jmpS o) s.ctx.lanes (fun _ => (pairScalar s o.s.toNat).1)
  | jmpV (o : CV) (h : ∀ l < 64, s.ctx.lanes.getLsbD l = true → (pairElem s o.v.toNat l).2 = false) :
      Transfer s (.jmpV o) s.ctx.lanes (fun l => (pairElem s o.v.toNat l).1)

/-- The test of R26 for the chain's wave. -/
def targetTest (s : State) (t : DWord) : Option (BitVec 8 × DWord) :=
  Device.targetFault s.pre (State.src s).core (Device.asidOf s.pre (State.src s)) t

/-- Every lane of a set has a target that passes the test of R26. -/
def TargetsPass (s : State) (L : Mask) (t : Nat → DWord) : Prop := ∀ l < 64, L.getLsbD l = true → targetTest s (t l) = none

/-- The call words whose targets carry no poison: the slide code and the targets (R128, R129). -/
inductive Calls (s : State) : Instr → BitVec 3 → (Nat → DWord) → Prop where
  | call (o : BC) : Calls s (.call o) o.sl (fun _ => wordTarget s o.off)
  | calliS (o : CCallS) (h : (pairScalar s o.s.toNat).2 = false) : Calls s (.calliS o) o.sl (fun _ => (pairScalar s o.s.toNat).1)
  | calliV (o : CCallV) (h : ∀ l < 64, s.ctx.lanes.getLsbD l = true → (pairElem s o.v.toNat l).2 = false) :
      Calls s (.calliV o) o.sl (fun l => (pairElem s o.v.toNat l).1)

/-- The return-stack entry of a call (R126, R130): the slide code in bits 59:57, bits 56:2 of the return PC. -/
def callEntry (sl : BitVec 3) (r : DWord) : DWord := (sl.setWidth 64 <<< 57) ||| ((r.extractLsb' 2 55).setWidth 64 <<< 2)

/-- The frame that a call of the chain opens: W + S, S = 8 times the slide code (R128, R130). -/
def callFrame (s : State) (sl : BitVec 3) : Nat := s.ctx.wb + 8 * sl.toNat

/-- A call of the chain fits (R125, R130): outside a handler, its window within WLIM, its frame neither spilled nor on its way back. -/
structure CallFits (s : State) (sl : BitVec 3) : Prop where
  plain : (State.src s).handler = false
  room  : callFrame s sl + 48 ≤ (State.src s).wlim
  here  : ∀ x, Tbl.get? (State.src s).frames (callFrame s sl) = some x → x.st ≠ .spilled ∧ x.st ≠ .refilling

/-- The chain of t goes on as that of s, and no other wave of the module has changed. -/
def GoesOn (s t : State) : Prop :=
  t.ctx.status = s.ctx.status ∧ t.ctx.wave = s.ctx.wave ∧ ∀ u, u ≠ s.ctx.wave → Device.wave t.dev u = Device.wave s.dev u

/-- What a call leaves in its frame: the entries of the subset's lanes beside what it held. -/
def frameAfter (s : State) (sl : BitVec 3) (x : Frame) : Prop :=
  x.st = .resident
  ∧ (∀ l < 64, x.mask.getLsbD l = (s.ctx.lanes.getLsbD l || Wave.inFrame (State.cur s) (callFrame s sl) l))
  ∧ ∀ l < 64, s.ctx.lanes.getLsbD l = true → x.entries.getD l 0 = callEntry sl s.ctx.nextPc

/-- The entry that a lane returns by: that of its own base (R131). -/
def retEntry (s : State) (l : Nat) : DWord :=
  match Tbl.get? (State.src s).frames (Wave.wbOf (State.src s) l) with
  | some x => x.entries.getD l 0
  | none => 0

/-- The slide of a return: eight times bits 59:57 of the entry. -/
def retSlide (s : State) (l : Nat) : Nat := 8 * ((retEntry s l).extractLsb' 57 3).toNat

/-- The return PC of a lane: bits 56:0 of the entry, sign-extended. -/
def retPc (s : State) (l : Nat) : DWord := ((retEntry s l).extractLsb' 0 57).signExtend 64

/-- A lane's return meets no fault of R131: the frame of its base is in place and holds its entry, which is well formed. -/
def RetGood (s : State) (l : Nat) : Prop :=
  (∃ x, Tbl.get? (State.src s).frames (Wave.wbOf (State.src s) l) = some x ∧ x.st ≠ .spilled ∧ x.st ≠ .refilling ∧ x.mask.getLsbD l = true)
  ∧ (retEntry s l).extractLsb' 57 3 ≠ 0 ∧ (retEntry s l).extractLsb' 57 3 ≠ 7
  ∧ (retEntry s l).extractLsb' 60 4 = 0 ∧ (retEntry s l).extractLsb' 0 2 = 0
  ∧ retSlide s l ≤ Wave.wbOf (State.src s) l
  ∧ targetTest s (retPc s l) = none

/-- Does a position leave view when a lane returns (R131). -/
def leavesView (s : State) (id : RegId) (l : Nat) : Prop :=
  ∃ p, id = .pos p ∧ Wave.wbOf (State.src s) l + 48 - retSlide s l ≤ p ∧ p < Wave.wbOf (State.src s) l + 48

/-- The exit words whose operand is good: the successor choice that each makes (R93). -/
inductive Exits (s : State) : Instr → Succ → Prop where
  | exitW (o : C0) : Exits s (.exitW o) .stop
  | exitS (o : CS) (h : (pairScalar s o.s.toNat).2 = false) (h96 : (pairScalar s o.s.toNat).1.toNat % 96 = 0) :
      Exits s (.exitS o) (.entry (pairScalar s o.s.toNat).1)

/-- The successor choice of the chain's workgroup. -/
def succOf (s : State) : Succ := (Device.wg s.dev (State.src s).wg).succ

/-- The synchronisation words whose mask carries no poison: the mask (R97). -/
inductive Syncs (s : State) : Instr → Mask → Prop where
  | sync (o : C0) : Syncs s (.sync o) (BitVec.allOnes 64)
  | syncm (o : CS) (h : (pairScalar s o.s.toNat).2 = false) : Syncs s (.syncm o) (pairScalar s o.s.toNat).1

/-- The mask of the open episode, or of the one that the word opens (R97): in a handler, of the handler's own. -/
def episode (s : State) (m : Mask) : Mask :=
  if Wave.waits (State.cur s) = 0 then m else if (State.cur s).handler then (State.cur s).hmask else (State.cur s).epmask

/-- The words that have no effect of their own in this model of one core that issues in order: `nop`, a LIT, a prefetch hint (R29, R98, R217). -/
inductive Idle : Instr → Prop where
  | nop (o : C0) : Idle (.nop o)
  | lit (o : LitW) : Idle (.lit o)
  | pf (o : CPf) : Idle (.pf o)

end Sys2Proof.Claim
end

