-- ==== Sys2Proof/Claims/System.lean ====
section
/-! DEFINITION. What the statements say of the moves of one lane, the special registers, the cache and translation words, fences and waits, launches, traps and the return from one (R88, R95, R106, R111 to R115, R139 to R145, R155, R219, R220, R234, R241, R258, R278, R279, R298, R397, R398, R426 to R439). -/

namespace Sys2Proof.Claim

open Sys2Proof.Machine

/-- The workgroup linear index of R114: (GX + X (GY + Y GZ)) size + member. -/
def linearIndex (s : State) : Nat :=
  let g := Device.wg s.pre (State.src s).wg
  let a := Device.gang s.pre g.gang
  let r := (Device.launch s.pre a.launch).lrec
  (a.gx + r.gx * (a.gy + r.gy * a.gz)) * a.size + g.index

/-- The values of `lid` (R114). -/
def lidOf (s : State) (k l : Nat) : Word :=
  if k = 0 then BitVec.ofNat 32 l
  else if k = 1 then BitVec.ofNat 32 (l / 4)
  else if k = 2 then BitVec.ofNat 32 (l % 4)
  else if k = 3 then (if (Wave.helpers (State.src s)).getLsbD l then 1 else 0)
  else if k = 4 then
    BitVec.ofNat 32 ((linearIndex s * (Device.wg s.pre (State.src s).wg).waves.length + (State.src s).wid) * 64 + l)
  else if k = 5 then BitVec.ofNat 32 (linearIndex s)
  else if l < 32 then (Wave.live (State.src s)).extractLsb' 0 32 else (Wave.live (State.src s)).extractLsb' 32 32

/-- Is an element of a vector name live (R101). -/
def liveIn (s : State) (n l : Nat) : Bool :=
  match Wave.reg? (State.src s) (Wave.vid (State.src s) s.ctx.wb n) with
  | some r => r.live.getLsbD l
  | none => false

/-- The words that write single lanes or clear poison (R115, R219). -/
inductive LaneWords (s : State) : Instr → Option Change → Prop where
  | wrl (o : CVSK) :
      LaneWords s (.wrl o) (some { vecs := [(o.v.toNat, fun l =>
        if l = o.k.toNat then State.sc s o.s.toNat else Wave.elemOf (State.cur s) (State.vidOf s o.v.toNat) l, false)] })
  | lid (o : CVK) (h : o.k.toNat < 7) :
      LaneWords s (.lid o) (some { vecs := [(o.d.toNat, fun l => ⟨lidOf s o.k.toNat l, false⟩, false)] })
  | pclrVClean (o : CV) (h : ∀ l < 64, s.ctx.lanes.getLsbD l = true → (State.elem s o.v.toNat l).p = false) :
      LaneWords s (.pclrV o) none
  | pclrV (o : CV) (h : ∃ l < 64, s.ctx.lanes.getLsbD l = true ∧ (State.elem s o.v.toNat l).p = true) :
      LaneWords s (.pclrV o) (some { vecs := [(o.v.toNat, fun l =>
        if liveIn s o.v.toNat l then ⟨(State.elem s o.v.toNat l).v, false⟩
        else Wave.elemOf (State.cur s) (State.vidOf s o.v.toNat) l, false)] })

/-- The value that a read of a special register gives (R111): bits 31:0 at the lower of two numbers, bits 63:32 at the higher. -/
def specialValue (s : State) (n : Nat) : Word :=
  let w := State.src s
  let g := Device.wg s.pre w.wg
  let a := Device.gang s.pre g.gang
  let p := w.core / 8 * 4 + w.core % 8 / 2
  let half (x : DWord) (hi : Bool) : Word := if hi then x.extractLsb' 32 32 else x.extractLsb' 0 32
  if n = 0x00 then BitVec.ofNat 32 w.wid
  else if n = 0x01 then BitVec.ofNat 32 a.gx
  else if n = 0x02 then BitVec.ofNat 32 a.gy
  else if n = 0x03 then BitVec.ofNat 32 a.gz
  else if n = 0x04 then BitVec.ofNat 32 (g.index % 8 + 16 * a.size)
  else if n = 0x05 then BitVec.ofNat 32 w.core
  else if n = 0x06 then half (Device.core s.pre w.core).cyc false
  else if n = 0x07 then w.cycLatch
  else if n = 0x08 then (Device.launch s.pre a.launch).lnch
  else if n = 0x10 then BitVec.ofNat 32 s.ctx.wb
  else if n = 0x11 then BitVec.ofNat 32 w.wlim
  else if n = 0x12 ∨ n = 0x13 then half w.wsp (n == 0x13)
  else if n = 0x14 then BitVec.ofNat 32 w.quota
  else if n = 0x15 then BitVec.ofNat 32 (Wave.heldUnits w)
  else if n = 0x16 then w.wdog
  else if n = 0x17 then w.fpm
  else if n = 0x20 then w.fmt
  else if n = 0x21 then w.shape.setWidth 32
  else if n = 0x22 then BitVec.ofNat 32 (Cluster.cad (Device.cluster s.pre (w.core / 8)))
  else if n = 0x23 then (if (Device.pairOwner s.pre p).isSome then (Device.pair s.pre p).org else 0)
  else if n = 0x24 then w.tokw
  else if n = 0x30 then w.trc.setWidth 32
  else if n = 0x31 ∨ n = 0x32 then half w.trlm (n == 0x32)
  else if n = 0x33 ∨ n = 0x34 then half w.tram (n == 0x34)
  else if n = 0x35 ∨ n = 0x36 then half w.trpc (n == 0x36)
  else if n = 0x37 then BitVec.ofNat 32 w.trwb
  else if n = 0x38 ∨ n = 0x39 then half w.trpa (n == 0x39)
  else if n = 0x3A then BitVec.ofNat 32 w.trqn
  else if n = 0x3B ∨ n = 0x3C then half w.tbas (n == 0x3C)
  else if n = 0x3D ∨ n = 0x3E then half w.tfrm (n == 0x3E)
  else if n = 0x41 then half (Device.die s.pre (w.core / 64)).pel.step false
  else w.stepLatch

/-- The numbers of R111. -/
def specialNumbers : List Nat :=
  [0x00, 0x01, 0x02, 0x03, 0x04, 0x05, 0x06, 0x07, 0x08, 0x10, 0x11, 0x12, 0x13, 0x14, 0x15, 0x16, 0x17, 0x20, 0x21, 0x22, 0x23, 0x24,
   0x30, 0x31, 0x32, 0x33, 0x34, 0x35, 0x36, 0x37, 0x38, 0x39, 0x3A, 0x3B, 0x3C, 0x3D, 0x3E, 0x41, 0x42]

/-- The privileged registers (R111): TBAS and TFRM. -/
def privileged (n : Nat) : Prop := n = 0x3B ∨ n = 0x3C ∨ n = 0x3D ∨ n = 0x3E

/-- The latch that a read of a counter's low half sets (R113). -/
def latched (s : State) (n : Nat) : State :=
  if n = 0x06 then
    State.mapWave s (fun w => { w with cycLatch := (Device.core s.pre (State.src s).core).cyc.extractLsb' 32 32 })
  else if n = 0x41 then
    State.mapWave s (fun w => { w with stepLatch := (Device.die s.pre ((State.src s).core / 64)).pel.step.extractLsb' 32 32 })
  else s

/-- WSP set, the spills under way abandoned: their items are resident (R139; log entry 74). -/
def withWsp (w : Wave) (v : DWord) : Wave :=
  { w with
    wsp := v
    win := w.win.map (fun e => if e.2.st = .spilling then (e.1, { e.2 with st := .resident }) else e)
    frames := w.frames.map (fun e => if e.2.st = .spilling then (e.1, { e.2 with st := .resident }) else e) }

/-- TBAS and TFRM together keep the rules of R428: TBAS zero, or a multiple of 96 with TFRM a non-zero multiple of 16 KiB. -/
def TrapBases (tbas tfrm : DWord) : Prop := tbas = 0 ∨ (tbas.toNat % 96 = 0 ∧ tfrm ≠ 0 ∧ tfrm.toNat % 16384 = 0)

/-- The writes that `mts` makes to a wave, under each register's own limits (R67, R88, R106, R139, R144, R278, R279, R428); QUOTA is judged on a given HELD. -/
inductive Sets (w : Wave) (held : Nat) (v : Word) : Nat → Wave → Prop where
  | wlim (h : w.handler = false) (l : 48 ≤ v.toNat % 65536) (m : v.toNat % 65536 ≤ 65488)
      (b : ∀ k < 64, w.exited.getLsbD k = false → w.wbs.getD k 0 + 48 ≤ v.toNat % 65536) :
      Sets w held v 0x11 { w with wlim := v.toNat % 65536 }
  | wspLow (a : v.toNat % 65536 = 0) (h : Wave.anyOut w = false) (f : w.pend.any Pend.isFlush = false) :
      Sets w held v 0x12 (withWsp w (w.wsp.extractLsb' 32 32 ++ v))
  | wspHigh (h : Wave.anyOut w = false) (f : w.pend.any Pend.isFlush = false) : Sets w held v 0x13 (withWsp w (v ++ w.wsp.extractLsb' 0 32))
  | quota (l : max 16 held ≤ v.toNat % 65536) (m : v.toNat % 65536 ≤ w.quota) :
      Sets w held v 0x14 { w with quota := v.toNat % 65536 }
  | wdog : Sets w held v 0x16 { w with wdog := v }
  | fpm (h : (v.extractLsb' 0 3).toNat < 6) : Sets w held v 0x17 { w with fpm := v &&& 0xFFFF001F }
  | fmt (h : fmtOk v = true) : Sets w held v 0x20 { w with fmt := v }
  | shape (a : v.extractLsb' 0 4 ≠ 0) (b : v.extractLsb' 4 2 ≠ 0) (c : v.extractLsb' 6 26 = 0) :
      Sets w held v 0x21 { w with shape := v.extractLsb' 0 6 }
  | tbasLow : Sets w held v 0x3B { w with tbasLo := some v }
  | tbasHigh (x : DWord) (hx : x = v ++ w.tbasLo.getD (w.tbas.extractLsb' 0 32)) (h : TrapBases x w.tfrm) :
      Sets w held v 0x3C { w with tbas := x, tbasLo := none }
  | tfrmLow : Sets w held v 0x3D { w with tfrmLo := some v }
  | tfrmHigh (x : DWord) (hx : x = v ++ w.tfrmLo.getD (w.tfrm.extractLsb' 0 32)) (h : TrapBases w.tbas x) :
      Sets w held v 0x3E { w with tfrm := x, tfrmLo := none }

/-- The state with the chain's wave replaced. -/
def withWave (s : State) (w : Wave) : State := { s with dev := Device.setWave s.dev s.ctx.wave w }

/-- Another wave of the workgroup to which R106 lets units move: the wave, the budgets after the move. -/
structure QuotaMove (s : State) (o : CS) (u a b : Nat) : Prop where
  clean : ScalarsClean s o.s.toNat 2
  wave  : (Device.wg s.pre (State.src s).wg).waves[(State.sc s o.s.toNat).v.toNat]? = some u
  other : (State.sc s o.s.toNat).v.toNat ≠ (State.src s).wid
  alive : (Device.wave s.pre u).ended = false
  mine  : (a : Int) = (State.src s).quota - (State.sc s (o.s.toNat + 1)).v.toInt
  its   : (b : Int) = (Device.wave s.pre u).quota + (State.sc s (o.s.toNat + 1)).v.toInt
  held  : max 16 (Wave.heldUnits (State.src s)) ≤ a ∧ a ≤ 65535
  held' : max 16 (Wave.heldUnits (Device.wave s.pre u)) ≤ b ∧ b ≤ 65535

/-- The state after a move of units (R106). -/
def quotaMoved (s : State) (u a b : Nat) : State :=
  let d := Device.setWave s.dev s.ctx.wave { State.cur s with quota := a }
  { s with dev := Device.setWave d u { Device.wave s.dev u with quota := b } }

/-- What a fence does (R230, R231, R234): a release writes the cluster L1 back; an acquire at die scope and beyond drops its clean bytes. -/
def fenced (s : State) (acq rel : Bool) (k : Nat) : State :=
  let cl := (State.cur s).core / 8
  let d := if rel then Device.l1WriteBack s.dev cl (fun _ => true) else s.dev
  { s with dev := if acq ∧ 3 ≤ k then Device.l1Drop d cl (fun _ => true) else d }

/-- The fence words: acquire, release, scope. -/
inductive Fences : Instr → Bool → Bool → Nat → Prop where
  | fence (o : CK) : Fences (.fence o) true true o.k.toNat
  | acq (o : CK) : Fences (.fenceAcq o) true false o.k.toNat
  | rel (o : CK) : Fences (.fenceRel o) false true o.k.toNat

/-- A range operand (R438): no poison; start and last byte canonical. -/
def RangeAt (s : State) (n : Nat) : Prop :=
  ScalarsClean s n 3 ∧ (State.sc s (n + 2)).v ≠ 0 ∧ canonical (pairScalar s n).1 = true
  ∧ canonical ((pairScalar s n).1 + BitVec.ofNat 64 ((State.sc s (n + 2)).v.toNat - 1)) = true

/-- The physical bytes of a range (R438). -/
def rangeBytes (s : State) (n : Nat) : List (Nat × Nat) := State.foot s (pairScalar s n).1 (State.sc s (n + 2)).v.toNat

/-- Every store that stands in a cluster L1 only is performed and every splinter under way is finished (R204, R246), every cached translation that a test names is gone, and the word is counted (R239, R439). -/
def withoutTlb (s : State) (sel : TlbEntry → Bool) : State :=
  let d := [0, 1, 2, 3].foldl Device.splinterDone (Device.l1AllBack s.dev)
  State.doneOp { s with dev := { d with tlbs := d.tlbs.filter (fun e => !sel e.2) } } 1

/-- May a translation word take effect now: room in its class, no fence of the wave left to take effect (R234, R239). -/
def MayDrop (s : State) : Prop := HasRoom s 1 ∧ fencesHold true (State.cur s).pend = false

/-- A translation of an address space covers a byte of a range. -/
def coversVa (s : State) (e : TlbEntry) (a n : Nat) : Bool :=
  e.asid == Device.asidOf s.pre (State.src s) && (e.va * 2 ^ e.bits < a + n && a < (e.va + 1) * 2 ^ e.bits)

/-- A record's address for `tdesc`: slot below 16, address a multiple of 256. -/
structure DescAt (s : State) (n : Nat) : Prop where
  clean : ScalarsClean s n 3
  slot  : (State.sc s (n + 2)).v.toNat < 16
  canon : canonical (pairScalar s n).1 = true
  align : (pairScalar s n).1.toNat % 256 = 0

/-- The read of a tensor record is outstanding, in class 2, with the slot as its destination (R82, R258). -/
def withDesc (s : State) (n : Nat) : State :=
  let slot := (State.sc s (n + 2)).v.toNat
  let op := { opOf s .tdesc 2 with scal := scalars s n 2, reg := slot, dests := [.desc slot], fired := true }
  let w := Wave.addOut (State.cur s) ⟨s.dev.uid, 2, false, [.desc slot], []⟩
  { s with dev := Device.setWave { s.dev with ops := s.dev.ops ++ [op], uid := s.dev.uid + 1 } s.ctx.wave w }

/-- The operations of a pair that are queued or in flight, counted to 255 (R298). -/
def pairWork (s : State) : Nat :=
  min ((Device.engineOps s.dev).filter (fun x => x.kind.engine == .pair
    && pairOf x.core == (State.src s).core / 8 * 4 + (State.src s).core % 8 / 2)).length 255

/-- The state with a pair's sticky bits clear where bit J asks for it (R298). -/
def statCleared (s : State) (j : BitVec 1) : State :=
  let p := (State.src s).core / 8 * 4 + (State.src s).core % 8 / 2
  if j = 1 then { s with dev := Device.setPair s.dev p { pairNow s with sat := false, perr := false, flt := false } } else s

/-- The instruction-cache lines of a core that hold bytes of a range are gone (R438). -/
def withoutLines (s : State) (n : Nat) : State :=
  let k := (State.src s).core
  let c := Device.core s.dev k
  { s with dev := Device.setCore s.dev k { c with icache := c.icache.filter (fun e => !Device.lineIn s.dev k (rangeBytes s n) e.1) } }

/-- Does a line of 128 bytes hold a byte of a range (R438). -/
def rangeLine (s : State) (n line : Nat) : Bool :=
  (rangeBytes s n).any (fun e => decide (e.1 / 128 ≤ line) && decide (line ≤ (e.1 + e.2 - 1) / 128))

/-- The dirty lines of the cluster L1 that hold bytes of a range are written back (R438). -/
def writtenBack (s : State) (n : Nat) : Device := Device.l1WriteBack s.dev ((State.src s).core / 8) (rangeLine s n)

/-- The depth of a launch that the chain makes (R397). -/
def nextDepth (s : State) : Nat := (Device.launchOf s.pre (State.src s)).depth + 1

/-- May the target queue take a launch of this wave (R397). -/
def QueueTakes (s : State) (t : Nat) : Prop :=
  nextDepth s ≤ 16 ∧ (Device.queue s.pre t).en = true ∧ bitOf (Device.queue s.pre t).ctl 0 = true
  ∧ (Device.queue s.pre t).asid = Device.asidOf s.pre (State.src s)

/-- An `mwait` whose 8 bytes satisfy the condition (R220): address and test scalars clean, aligned and readable; the bytes read at their point of coherence. -/
structure WaitOver (s : State) (o : CMwait) (t : Tr) : Prop where
  clean : ScalarsClean s o.s.toNat 4
  canon : canonical (pairScalar s o.s.toNat).1 = true
  align : (pairScalar s o.s.toNat).1.toNat % 8 = 0
  leaf  : Device.translate s.pre (State.src s).core (Device.asidOf s.pre (State.src s)) .r (pairScalar s o.s.toNat).1 8 = .ok t
  place : placeOf t.pa ≠ 2
  here  : placeOf t.pa = 1 → Device.lineAbsent s.pre (sramCl t.pa) (sramOff t.pa) = false
  good  : Device.memBad s.pre (replicaPa t ((State.src s).core / 64)) 8 = false
  fence : fencesHold false (State.cur s).pend = false
  binds : Device.bindsBefore s.dev s.ctx.wave s.dev.uid = false

/-- Does a line hold one of the 8 bytes that an `mwait` reads. -/
def waitLine (s : State) (t : Tr) (line : Nat) : Bool :=
  decide (replicaPa t ((State.src s).core / 64) / 128 ≤ line) && decide (line ≤ (replicaPa t ((State.src s).core / 64) + 7) / 128)

/-- The cluster L1 without its clean copy of the line; through a leaf that the L1 does not serve, what it holds of the line newer than memory goes there first (R220, R229, R232). -/
def freshFor (s : State) (t : Tr) : Device :=
  Device.l1Drop (if Tr.inL1 t = true ∨ 32 ≤ (State.src s).core / 8 then s.dev else Device.l1WriteBack s.dev ((State.src s).core / 8) (waitLine s t)) ((State.src s).core / 8) (waitLine s t)

/-- The number that the 8 bytes hold. -/
def waitValue (s : State) (t : Tr) : Nat := ofLeBytes (Device.readBytes (freshFor s t) (coreAgent (State.src s).core) t 0 8)

/-- The test of an `mwait` (R220): at least, equal, not equal. -/
def waitTest (c : BitVec 2) (v t : Nat) : Prop := if c = 0 then t ≤ v else if c = 1 then v = t else v ≠ t

/-- The state in which a flush has been taken and is outstanding (R142). -/
def flushTaken (s : State) : State :=
  let w : Wave := { State.cur s with pend := (State.cur s).pend ++ [.flush s.dev.uid (Wave.flushItems (State.src s))] }
  { withWave s (Wave.addOut w ⟨s.dev.uid, 1, false, [], []⟩) with dev.uid := s.dev.uid + 1 }

/-- The state in which a tape push has been applied (R398). -/
def tapePushed (s : State) (a : DWord) : State :=
  let d := (releasedL1 s).dev
  let q := (Device.launchOf s.pre (State.src s)).queue
  State.doneOp { s with dev := Device.tapePush d q (Device.gang s.pre (Device.wg s.pre (State.src s).wg).gang).launch a } 7

/-- The words on special registers, caches, translations and launches that complete: the machine that each leaves, and the change of registers. -/
inductive SystemActs (s : State) : Instr → State → Option Change → Prop where
  | mfs (o : SXFs) (n : o.r.toNat ∈ specialNumbers) (p : privileged o.r.toNat → (State.src s).handler = true) :
      SystemActs s (.mfs o) (latched s o.r.toNat) (some { scals := [(o.s.toNat, ⟨specialValue s o.r.toNat, false⟩)] })
  | mts (o : SXTs) (w : Wave) (c : (State.sc s o.s.toNat).p = false) (p : privileged o.r.toNat → (State.src s).handler = true)
      (h : Sets (State.cur s) (Wave.heldUnits (State.src s)) (State.sc s o.s.toNat).v o.r.toNat w) : SystemActs s (.mts o) (withWave s w) none
  | yield (o : C0) : SystemActs s (.yield o) { s with ctx.yields := true } none
  | quota (o : CS) (u a b : Nat) (h : QuotaMove s o u a b) (ne : u ≠ s.ctx.wave) :
      SystemActs s (.quota o) (quotaMoved s u a b) none
  | quotaNot (o : CS) (u : Nat) (clean : ScalarsClean s o.s.toNat 2)
      (wave : (Device.wg s.pre (State.src s).wg).waves[(State.sc s o.s.toNat).v.toNat]? = some u)
      (no : ∀ a b, ¬ QuotaMove s o u a b) :
      SystemActs s (.quota o) s (some { scals := [(o.s.toNat + 1, ⟨0, false⟩)] })
  | fmt (o : E1) (c : (State.sc s o.s.toNat).p = false) (h : fmtOk (State.sc s o.s.toNat).v = true) :
      SystemActs s (.fmt o) (withWave s { State.cur s with fmt := (State.sc s o.s.toNat).v }) none
  | mshape (o : E1) (c : (State.sc s o.s.toNat).p = false) (a : (State.sc s o.s.toNat).v.extractLsb' 0 4 ≠ 0)
      (b : (State.sc s o.s.toNat).v.extractLsb' 4 2 ≠ 0) (z : (State.sc s o.s.toNat).v.extractLsb' 6 26 = 0) :
      SystemActs s (.mshape o) (withWave s { State.cur s with shape := (State.sc s o.s.toNat).v.extractLsb' 0 6 }) none
  | mstat (o : EJ) (p : OwnsPair s) :
      SystemActs s (.mstat o)
        (statCleared s o.j)
        (some { scals :=
          [(o.s.toNat, ⟨BitVec.ofNat 32 ((if (pairNow s).sat then 1 else 0) + (if (pairNow s).perr then 2 else 0)
              + (if (pairNow s).flt then 4 else 0) + 65536 * pairWork s), false⟩),
           (o.s.toNat + 1, ⟨(pairNow s).org, false⟩)] })
  | tdesc (o : E1) (h : DescAt s o.s.toNat) (r : HasRoom s 2) : SystemActs s (.tdesc o) (withDesc s o.s.toNat) none
  | waitk (o : CWait) (h : Wave.counter (State.cur s) o.k.toNat ≤ o.n.toNat) : SystemActs s (.waitk o) s none
  | fenceNow (i : Instr) (a r : Bool) (k : Nat) (f : Fences i a r k) (p : (State.cur s).pend = []) :
      SystemActs s i (fenced s a r k) none
  | fenceLater (i : Instr) (a r : Bool) (k : Nat) (f : Fences i a r k) (p : (State.cur s).pend ≠ []) :
      SystemActs s i { s with dev := Device.setPend { s.dev with uid := s.dev.uid + 1 } s.ctx.wave ((State.cur s).pend ++ [.fence s.dev.uid a r k]) }
        none
  | mwait (o : CMwait) (t : Tr) (h : WaitOver s o t)
      (v : waitTest o.cond (waitValue s t) (pairScalar s (o.s.toNat + 2)).1.toNat) :
      SystemActs s (.mwait o)
        { s with dev := if 3 ≤ o.scope.toNat then Device.l1Drop (freshFor s t) ((State.src s).core / 8) (fun _ => true)
                        else freshFor s t } none
  | cinvI (o : E1) (h : RangeAt s o.s.toNat) : SystemActs s (.cinvI o) (withoutLines s o.s.toNat) none
  | cinvD (o : E1) (h : RangeAt s o.s.toNat) (r : HasRoom s 1) :
      SystemActs s (.cinvD o)
        (State.doneOp { s with
          dev := Device.l1Drop (writtenBack s o.s.toNat) ((State.src s).core / 8) (rangeLine s o.s.toNat) } 1) none
  | cwbL1 (o : E1) (h : RangeAt s o.s.toNat) (r : HasRoom s 1) :
      SystemActs s (.cwbL1 o) (State.doneOp { s with dev := writtenBack s o.s.toNat } 1) none
  | cwbL2 (o : E1) (h : RangeAt s o.s.toNat) (r : HasRoom s 1) :
      SystemActs s (.cwbL2 o) (State.doneOp { s with dev := Device.l2WriteBack (writtenBack s o.s.toNat) (fun pa => rangeLine s o.s.toNat (pa / 128)) } 1) none
  | rangeNone (i : Instr) (o : E1) (h : i = .cinvI o ∨ i = .cinvD o ∨ i = .cwbL1 o ∨ i = .cwbL2 o) (c : ScalarsClean s o.s.toNat 3)
      (z : (State.sc s (o.s.toNat + 2)).v = 0) : SystemActs s i s none
  | tlbinvPage (o : E1) (c : ScalarsClean s o.s.toNat 2) (k : canonical (pairScalar s o.s.toNat).1 = true) (r : MayDrop s) :
      SystemActs s (.tlbinvPage o) (withoutTlb s (fun e => coversVa s e (pairScalar s o.s.toNat).1.toNat 1)) none
  | tlbinvRange (o : E1) (c : ScalarsClean s o.s.toNat 3) (k : canonical (pairScalar s o.s.toNat).1 = true) (r : MayDrop s) :
      SystemActs s (.tlbinvRange o)
        (withoutTlb s (fun e => (State.sc s (o.s.toNat + 2)).v.toNat != 0
          && coversVa s e ((pairScalar s o.s.toNat).1.toNat / 65536 * 65536) (65536 * (State.sc s (o.s.toNat + 2)).v.toNat))) none
  | tlbinvAsid (o : C0) (r : MayDrop s) :
      SystemActs s (.tlbinvAsid o) (withoutTlb s (fun e => e.asid == Device.asidOf s.pre (State.src s))) none
  | tlbinvAll (o : C0) (h : (State.src s).handler = true) (r : MayDrop s) :
      SystemActs s (.tlbinvAll o) (withoutTlb s (fun _ => true)) none
  | launchNot (o : E1) (t : (State.sc s (o.s.toNat + 2)).v.toNat < 64) (c : ScalarsClean s o.s.toNat 3)
      (k : canonical (pairScalar s o.s.toNat).1 = true) (a : (pairScalar s o.s.toNat).1.toNat % 256 = 0)
      (q : ¬ QueueTakes s (State.sc s (o.s.toNat + 2)).v.toNat) :
      SystemActs s (.launchW o) s (some { flags := [(0, ⟨true, false⟩)] })
  | launch (o : E1) (t : (State.sc s (o.s.toNat + 2)).v.toNat < 64) (c : ScalarsClean s o.s.toNat 3)
      (k : canonical (pairScalar s o.s.toNat).1 = true) (a : (pairScalar s o.s.toNat).1.toNat % 256 = 0)
      (q : QueueTakes s (State.sc s (o.s.toNat + 2)).v.toNat) (l : (State.cur s).launches.length < 4) (r : HasRoom s 7)
      (p : NoneEarlier s) :
      SystemActs s (.launchW o)
        (State.doneOp (State.mapWave (releasedL1 s) (fun w =>
          { w with launches := w.launches ++ [⟨(pairScalar s o.s.toNat).1, (State.sc s (o.s.toNat + 2)).v.toNat, nextDepth s⟩] })) 7)
        (some { flags := [(0, ⟨false, false⟩)] })
  | tape (o : E1) (c : ScalarsClean s o.s.toNat 2) (k : canonical (pairScalar s o.s.toNat).1 = true)
      (a : (pairScalar s o.s.toNat).1.toNat % 256 = 0) (r : HasRoom s 7) (p : NoneEarlier s) :
      SystemActs s (.tapeW o)
        (tapePushed s (pairScalar s o.s.toNat).1) none
  | wflushLater (o : C0) (r : HasRoom s 1) (d : s.ctx.defer = true ∨ (State.cur s).pend.any Pend.isFence = true ∨ Device.bindsBefore s.dev s.ctx.wave s.dev.uid = true) :
      SystemActs s (.wflush o) (flushTaken s) none
  | wflushNow (o : C0) (r : HasRoom s 1) (d : s.ctx.defer = false) (f : (State.cur s).pend.any Pend.isFence = false)
      (b : Device.bindsBefore s.dev s.ctx.wave s.dev.uid = false) :
      SystemActs s (.wflush o)
        { State.doneOp s 1 with dev := Device.flushNow (State.doneOp s 1).dev s.ctx.wave (Wave.flushItems (State.src s)) } none

end Sys2Proof.Claim
end

