-- ==== Sys2Proof/Claims/Memory.lean ====
section
/-! DEFINITION. What the statements say of the global memory words: loads, stores, atomics, exact accumulation, scalar memory words (R154, R196, R202, R205, R206, R210 to R216, R221 to R224). -/

namespace Sys2Proof.Claim

open Sys2Proof.Machine

/-- The literal of the word as a 64-bit offset (R31). -/
def offset64 (s : State) : DWord := BitVec.ofInt 64 (litValue s.ctx.lits)

/-- The virtual address of a lane (R196): base pair, offset with sign, literal. -/
def globalAt (s : State) (b : BitVec 8) (a : BitVec 6) (l : Nat) : DWord :=
  (pairScalar s b.toNat).1 + (State.elem s a.toNat l).v.signExtend 64 + offset64 s

/-- The accesses of z bytes of lanes L pass R196: no address poison, canonical, aligned. -/
def GlobalPass (s : State) (b : BitVec 8) (a : BitVec 6) (L : Mask) (z : Nat) : Prop :=
  ∀ l < 64, L.getLsbD l = true →
    (pairScalar s b.toNat).2 = false ∧ (State.elem s a.toNat l).p = false
    ∧ canonical (globalAt s b a l) = true ∧ (globalAt s b a l).toNat % z = 0

/-- The chain's wave issues a word that is performed at once (R432): room in its class, nothing unfinished and no acquire to come before it (R235), its lanes live and as the turn began. -/
structure Prompt (s : State) (cls : Nat) : Prop where
  room  : HasRoom s cls
  none  : (State.cur s).pend = []
  binds : Device.bindsBefore s.dev s.ctx.wave s.dev.uid = false
  now   : s.ctx.defer = false ∨ (State.cur s).handler = true
  goes  : (State.cur s).ended = false
  live  : s.ctx.lanes &&& ~~~(Wave.live (State.cur s)) = 0
  help  : Wave.helpers (State.cur s) = Wave.helpers (State.src s)

/-- The address space of the chain's wave. -/
def asidNow (s : State) : Nat := Device.asidOf s.dev (State.cur s)

/-- The translation of a lane's access (R199 to R202). -/
def leafOf (s : State) (k : Need) (va : DWord) (z : Nat) : Except (BitVec 8) Tr :=
  Device.translate s.dev (State.cur s).core (asidNow s) k va z

/-- A byte as the chain's core reads it (R231, R232). -/
def coreByte (s : State) (d : Device) (t : Tr) (k : Nat) : Byte := Device.readByte d (coreAgent (State.cur s).core) t k

/-- The number that n such bytes hold. -/
def coreNum (s : State) (d : Device) (t : Tr) (k : Nat) : Nat → Nat
  | 0 => 0
  | n + 1 => (coreByte s d t k).toNat + 256 * coreNum s d t (k + 1) n

/-- Where one access goes through a leaf that the cluster L1 does not serve, what the L1 holds of its lines stands at its point of coherence first (R229, R232). -/
def passOne (s : State) (d : Device) (z : Nat) (va : DWord) : Device :=
  match leafOf s .r va z with
  | .ok t => Device.l1Pass d (coreAgent (State.cur s).core) t z
  | .error _ => d

/-- The device as lane n of a load finds it: behind the lanes of L below n. -/
def passedBefore (s : State) (L : Mask) (z : Nat) (va : Nat → DWord) : Nat → Device
  | 0 => s.dev
  | n + 1 => if L.getLsbD n then passOne s (passedBefore s L z va n) z (va n) else passedBefore s L z va n

/-- The i-th element of a load of z bytes (R36). -/
def elementOf (z : Nat) (sx : Bool) (num : Nat → Nat → Nat) (i : Nat) : Word :=
  if z = 1 then (if sx then (BitVec.ofNat 8 (num 0 1)).signExtend 32 else BitVec.ofNat 32 (num 0 1))
  else if z = 2 then (if sx then (BitVec.ofNat 16 (num 0 2)).signExtend 32 else BitVec.ofNat 32 (num 0 2))
  else BitVec.ofNat 32 (num (4 * i) 4)

/-- The fault or memory error that poisons a lane of a load (R205): none when its bytes are read. -/
def loadFault (s : State) (z : Nat) (va : DWord) : Option (BitVec 8) :=
  match leafOf s .r va z with
  | .error c => some c
  | .ok t => if Device.memBad s.dev (replicaPa t ((State.cur s).core / 64)) z then some 0x0F else none

/-- The i-th element that a load of z bytes gives (R205, R211): zero, poisoned, on a fault; else its bytes, with the poison of cluster SRAM. -/
def loadedElem (s : State) (d : Device) (z : Nat) (sx : Bool) (va : DWord) (i : Nat) : Elem :=
  match loadFault s z va, leafOf s .r va z with
  | none, .ok t => ⟨elementOf z sx (coreNum s d t) i, placeOf t.pa == 1 && Device.sramPois s.dev (sramCl t.pa) (sramOff t.pa + 4 * i)⟩
  | _, _ => ⟨0, true⟩

/-- A load that touches memory and nothing else: no device register (R448), no line that is absent (R184). -/
def MemoryOnly (s : State) (k : Need) (z : Nat) (va : DWord) : Prop :=
  ∀ t, leafOf s k va z = .ok t → placeOf t.pa ≠ 2 ∧ (placeOf t.pa = 1 → Device.lineAbsent s.dev (sramCl t.pa) (sramOff t.pa) = false)

/-- The first-poison record after a load: as it was, or the first lane's failure (R205). -/
def poisonAfter (s : State) (ls : List Nat) (z : Nat) (va : Nat → DWord) : Option (DWord × BitVec 8) :=
  match (State.cur s).firstPoison with
  | some x => some x
  | none => ls.findSome? (fun l => (loadFault s z (va l)).map (fun c => (va l, c)))

/-- Nothing but the wave and the count of identifiers differs from a device d, which holds memory as the load leaves it; of the wave, its registers, its outstanding operations and the first-poison record. -/
structure OnlyLoaded (s : State) (d : Device) (t : State) (fp : Option (DWord × BitVec 8)) : Prop where
  parts : t = { s with dev := { d with waves := t.dev.waves, uid := s.dev.uid + 1 }, ctx.written := t.ctx.written }
  waves : ∀ u, u ≠ s.ctx.wave → Device.wave t.dev u = Device.wave s.dev u
  wave  : State.cur t = { Wave.withRegs (State.cur s) (State.cur t) with outs := (State.cur t).outs, firstPoison := fp }

/-- Every byte of memory reads as before but those that the core's cluster L1 held newer (R231). -/
def SameButDirty (s t : State) : Prop :=
  ∀ x, (∀ e ∈ (Device.cluster s.dev ((State.cur s).core / 8)).l1, e.2.dirty = true → e.1 ≠ x) → Memory.read t.dev.mem x = Memory.read s.dev.mem x

/-- `ld`: the data registers of the subset's lanes. -/
def changeLd (s : State) (o : ML) : Change :=
  { reads := [(o.la, o.a.toNat)]
    vecs := (List.range (max 1 (2 ^ o.sz.toNat / 4))).map (fun i =>
      (o.x.toNat + i, fun l => loadedElem s (passedBefore s s.ctx.lanes (2 ^ o.sz.toNat) (globalAt s o.b o.a) (l + 1)) (2 ^ o.sz.toNat) (o.sx == 1)
        (globalAt s o.b o.a l) i, false)) }

/-- The scalar loads (R154), by their widths. -/
noncomputable def sldTable : List ((SR → Instr) × Nat) := [(.sldW, 4), (.sldD, 8), (.sldQ, 16)]

/-- The scalar stores (R154), by their widths. -/
noncomputable def sstTable : List ((SR → Instr) × Nat) := [(.sstW, 4), (.sstD, 8), (.sstQ, 16)]

/-- The address of a scalar memory word (R154): base pair and literal, or base pair and four times the signed field. -/
def smemAt (s : State) (o : SR) : DWord :=
  (pairScalar s o.a.toNat).1 + (if o.b.toNat = 63 then offset64 s else 4 * o.b.signExtend 64)

/-- A scalar memory word's address passes R154 and R196. -/
def SmemPass (s : State) (o : SR) (z : Nat) : Prop :=
  (pairScalar s o.a.toNat).2 = false ∧ canonical (smemAt s o) = true ∧ (smemAt s o).toNat % z = 0

/-- A scalar load: the scalars from D on. -/
def changeSld (s : State) (o : SR) (z : Nat) : Change :=
  { scals := (List.range (z / 4)).map (fun i => (o.d.toNat + i, loadedElem s (passOne s s.dev z (smemAt s o)) z false (smemAt s o) i)) }

/-- A lane's page lets the access pass to z bytes of a page without copies (R197, R200, R207, R208). -/
structure Writable (s : State) (k : Need) (z : Nat) (va : DWord) (t : Tr) : Prop where
  leaf  : leafOf s k va z = .ok t
  space : t.pa + z ≤ 2 ^ 52
  plain : t.attr ≠ 1 ∧ t.attr ≠ 2

/-- The mirror of a mirrored page's byte, where it can be written (R208, R450): mirroring is on in the address space's record, and its buddy is this module or one that serves it. -/
def mirrorOf (s : State) (t : Tr) : Option Nat :=
  match Device.mirror s.dev (asidNow s) t.pa with
  | (m, some pa) => if m = s.dev.sys.modnum ∨ Device.peerOk s.dev m = true then some (Device.normPa s.dev pa) else none
  | (_, none) => none

/-- Does a store through a leaf reach memory, and not a device register or cluster SRAM. -/
def toMemory (t : Tr) : Bool := placeOf t.pa != 1 && placeOf t.pa != 2

/-- Where a store through a leaf lands (R207, R208): in every copy of a replicated page, at a mirrored page's address and its mirror's, else at the address of the leaf; at no byte where it writes a device register (R448). -/
def landings (s : State) (t : Tr) : List Nat :=
  if placeOf t.pa = 2 then []
  else if toMemory t ∧ t.attr = 1 then [0, 1, 2, 3].map (fun die => die * 2 ^ 38 + t.pa % 2 ^ 38)
  else if toMemory t ∧ t.attr = 2 then t.pa :: (mirrorOf s t).toList
  else [t.pa]

/-- Does a store through a leaf fail to reach its mirror: it is logged then (R208, R452). -/
def unmirrored (s : State) (t : Tr) : Bool := toMemory t && t.attr == 2 && (mirrorOf s t).isNone

/-- Is a byte one of the ring of error records (R452). -/
def inErrorRing (s : State) (x : Nat) : Prop := s.dev.sys.errbase.toNat ≤ x ∧ x < s.dev.sys.errbase.toNat + 4096

/-- A lane's page lets a store of z bytes pass (R197, R200); where pages with mirrors are stored to, no byte that is written belongs to the record of the address space, which says where the mirror is (R199). -/
structure Storable (s : State) (z : Nat) (va : DWord) (t : Tr) : Prop where
  leaf   : leafOf s .w va z = .ok t
  space  : t.pa + z ≤ 2 ^ 52
  record : ∀ p ∈ landings s t, p + z ≤ Device.asRecord s.dev (asidNow s) + 16 ∨ Device.asRecord s.dev (asidNow s) + 32 ≤ p
  log    : unmirrored s t = true → ∀ x, Device.asRecord s.dev (asidNow s) + 16 ≤ x → x < Device.asRecord s.dev (asidNow s) + 32 → ¬ inErrorRing s x

/-- What stands in a byte as an access of a leaf finds it. -/
def standing (s : State) (t : Tr) (k : Nat) : Byte := if placeOf t.pa = 1 then Memory.read s.dev.mem (t.pa + k) else coreByte s s.dev t k

/-- Nothing but the wave, bytes of memory with what HBM holds behind them and their keys, cluster L1s, SRAM poison and the marks of stores to absent lines, the list of register writes, the counts of identifiers, of free choices and of error records differs. -/
structure OnlyStored (s t : State) : Prop where
  parts : t = { s with
    dev := { s.dev with waves := t.dev.waves, mem := t.dev.mem, hbm := t.dev.hbm, mkeys := t.dev.mkeys, clusters := t.dev.clusters,
                        inbox := t.dev.inbox, uid := s.dev.uid + 1, freeCtr := t.dev.freeCtr, sys.errwr := t.dev.sys.errwr }
    ctx.written := t.ctx.written }
  free  : (∀ x, ¬ Raced s x) → t.dev.freeCtr = s.dev.freeCtr
  waves : ∀ u, u ≠ s.ctx.wave → Device.wave t.dev u = Device.wave s.dev u
  wave  : State.cur t = { Wave.withRegs (State.cur s) (State.cur t) with outs := (State.cur t).outs }
  clusters : ∀ k, Device.cluster t.dev k =
    { Device.cluster s.dev k with
      l1 := (Device.cluster t.dev k).l1, spois := (Device.cluster t.dev k).spois, absent := (Device.cluster t.dev k).absent }
  lines : ∀ k n, (Tbl.get? (Device.cluster t.dev k).absent n).map (fun x => x.writers)
    = (Tbl.get? (Device.cluster s.dev k).absent n).map (fun x => x.writers)

/-- Does a store of z bytes through a leaf cover a byte of memory. -/
def covers (s : State) (t : Tr) (z x : Nat) : Prop := ∃ p ∈ landings s t, p ≤ x ∧ x < p + z

/-- Is a byte one of the error ring that a store of lanes L, which does not reach some mirror, may write a record to. -/
def Logged (s : State) (L : Mask) (tr : Nat → Tr) (x : Nat) : Prop :=
  inErrorRing s x ∧ ∃ l < 64, L.getLsbD l = true ∧ unmirrored s (tr l) = true

/-- A store of lanes L through their leaves, z bytes each (R207, R208, R211): the highest lane's data stands in each stored byte of every copy and mirror, or, where an outstanding copy has written, may leave what stood there (R270), said of the first lane; every other byte is as before, but for error records where a mirror is out of reach. -/
structure BytesStored (s t : State) (L : Mask) (tr : Nat → Tr) (z : Nat) (data : Nat → Nat → Byte) : Prop where
  others : ∀ x, (∀ l < 64, L.getLsbD l = true → ¬ covers s (tr l) z x) → ¬ Logged s L tr x → Memory.read t.dev.mem x = Memory.read s.dev.mem x
  stored : ∀ l < 64, L.getLsbD l = true → ∀ p ∈ landings s (tr l), ∀ k < z, ¬ Logged s L tr (p + k) →
    (∀ h < 64, l < h → L.getLsbD h = true → ¬ covers s (tr h) z (p + k)) →
    (∀ q ∈ landings s (tr l), q ≠ p → ¬ (q ≤ p + k ∧ p + k < q + z)) →
    Memory.read t.dev.mem (p + k) = data l k
      ∨ (Raced s ((tr l).pa + k)
        ∧ ((∀ h < l, L.getLsbD h = false) → Memory.read t.dev.mem (p + k) = standing s (tr l) k))
  log    : t.dev.sys.errwr = s.dev.sys.errwr + ((lanesOf L).filter (fun l => unmirrored s (tr l))).length

/-- The register writes that a store of lanes L posts, in ascending lane order (R448). -/
def registerWrites (s : State) (L : Mask) (pa : Nat → Nat) (z : Nat) (value : Nat → DWord) : List RegWrite :=
  ((lanesOf L).filter (fun l => placeOf (pa l) == 2)).map (fun l =>
    ⟨4 + (Device.launchOf s.dev (State.cur s)).queue + 64 * (Device.launchOf s.dev (State.cur s)).lnch.toNat, regDie (pa l), regOff (pa l), z, value l⟩)

/-- The data of a store of 4 or 8 bytes to a device register as a number (R448): the elements from x on. -/
def storeValue (s : State) (x : BitVec 6) (z l : Nat) : DWord :=
  if z = 4 then (State.elem s x.toNat l).v.setWidth 64 else (State.elem s (x.toNat + 1) l).v ++ (State.elem s x.toNat l).v

/-- The data of a scalar store to a device register. -/
def scalarValue (s : State) (x z : Nat) : DWord :=
  if z = 4 then (State.sc s x).v.setWidth 64 else (State.sc s (x + 1)).v ++ (State.sc s x).v

/-- Byte k of a scalar store. -/
def scalarByte (s : State) (x k : Nat) : Byte := (State.sc s (x + k / 4)).v.extractLsb' (8 * (k % 4)) 8

/-- The places that an atomic code reaches (R216): memory and SRAM; host and peer memory for add, swap and compare and swap. -/
def atomReaches (op : BitVec 4) (place : Nat) : Prop :=
  place ≠ 2 ∧ (place < 8 ∨ op = 0 ∨ op = 8 ∨ op = 9 ∨ op = 12 ∨ op = 13 ∨ op = 14)

/-- An atomic of lanes L meets plain memory: every lane's page readable and writable, under no key, no error there, no dirty copy in the cluster L1. -/
structure AtomPlain (s : State) (o : MA) (t : Nat → Tr) : Prop where
  pass  : GlobalPass s o.b o.a (storers s) (if wideAtom o.op then 8 else 4)
  data  : DataClean s o.x (atomData o.op) (storers s)
  lanes : ∀ l < 64, (storers s).getLsbD l = true → (t l).key = 0 ∧ atomReaches o.op (placeOf (t l).pa)
    ∧ Device.memBad s.dev (t l).pa (if wideAtom o.op then 8 else 4) = false
    ∧ (placeOf (t l).pa = 1 → Device.lineAbsent s.dev (sramCl (t l).pa) (sramOff (t l).pa) = false)
  keys  : s.dev.mkeys = []
  clean : ∀ e ∈ (Device.cluster s.dev ((State.cur s).core / 8)).l1, e.2.dirty = false

/-- The poison of an old value: that of cluster SRAM (R183); one poisoned element of 8 bytes poisons both words (log entry 59). -/
def oldPoison (s : State) (op : BitVec 4) (pa : Nat) : Bool :=
  placeOf pa == 1 && (Device.sramPois s.dev (sramCl pa) (sramOff pa)
    || (wideAtom op && Device.sramPois s.dev (sramCl pa) (sramOff pa + 4)))

/-- Memory after an atomic, byte for byte: the lanes act in ascending order (R215), but for bytes that stay as an outstanding copy has left them (R270). -/
def AtomMemory (s t : State) (o : MA) (tr : Nat → Tr) (keep : Nat → Nat → Bool) : Prop :=
  KeepsRaced s (fun l => (tr l).pa) keep
  ∧ ∀ x, Memory.read t.dev.mem x =
    Memory.read (atomBefore o.op (storers s) (fun l => (tr l).pa) (atomElems s o.x) keep s.dev.mem 64) x

/-- What a vector register shows after an `atom`: the old values in the data registers of the lanes that are no helpers. -/
def atomShows (s : State) (o : MA) (tr : Nat → Tr) (keep : Nat → Nat → Bool) (id : RegId) (l : Nat) : Elem :=
  if (storers s).getLsbD l = true ∧ (id = State.vidOf s o.x.toNat ∨ (wideAtom o.op = true ∧ id = State.vidOf s (o.x.toNat + 1))) then
    ⟨BitVec.ofNat 32 (atomOld o.op (storers s) (fun l => (tr l).pa) (atomElems s o.x) keep s.dev.mem l
        / (if id = State.vidOf s o.x.toNat then 1 else 2 ^ 32)), oldPoison s o.op (tr l).pa⟩
  else Change.vec { reads := [(o.la, o.a.toNat)] } s id l

/-- An open slot at a destination (R221). -/
def openAt (xs : List XOpen) (asid pa : Nat) : Bool := xs.any (fun x => x.asid == asid && x.pa == pa)

/-- `dopen` of one destination (R222): 1 when it is open already, 2 when its home holds 16,384, else 0 and it opens empty. -/
def openOne (xs : List XOpen) (x : XOpen) : List XOpen × Nat :=
  if openAt xs x.asid x.pa then (xs, 1)
  else if (xs.filter (fun y => homeDie y.pa == homeDie x.pa)).length ≥ 16384 then (xs, 2)
  else (xs ++ [x], 0)

/-- The slots as lane n of a `dopen` finds them. -/
def openBefore (xs : List XOpen) (L : Mask) (x : Nat → XOpen) : Nat → List XOpen
  | 0 => xs
  | n + 1 => if L.getLsbD n then (openOne (openBefore xs L x n) (x n)).1 else openBefore xs L x n

/-- The slot that a lane of `dopen` asks for. -/
def slotFor (s : State) (t : Nat → Tr) (l : Nat) : XOpen :=
  { asid := asidNow s, pa := (t l).pa, launch := (Device.gang s.dev (Device.wg s.dev (State.cur s).wg).gang).launch,
    attr := (t l).attr, key := (t l).key, slot := XSlot.empty }

/-- An exact-accumulation word passes: every lane's page in HBM (R221). -/
structure ExactPass (s : State) (o : MD) (k : Need) (t : Nat → Tr) : Prop where
  pass  : GlobalPass s o.b o.a (storers s) 4
  lanes : ∀ l < 64, (storers s).getLsbD l = true → Writable s k 4 (globalAt s o.b o.a l) (t l) ∧ placeOf (t l).pa = 0

/-- `dadd` of one number to an open slot (R223). -/
def addOne (xs : List XOpen) (asid pa : Nat) (x : Word) : List XOpen :=
  xs.map (fun y => if y.asid == asid && y.pa == pa then { y with slot := XSlot.add y.slot (Fmt.value f32 x.toNat) } else y)

/-- The slots after the lanes of a `dadd` below n. -/
def addBefore (s : State) (o : MD) (t : Nat → Tr) : Nat → List XOpen
  | 0 => s.dev.xslots
  | n + 1 =>
    if (storers s).getLsbD n then addOne (addBefore s o t n) (asidNow s) (t n).pa (State.elem s o.x.toNat n).v else addBefore s o t n

/-- The slots after the lanes of a `dclose` below n: each takes out what stands open at its destination. -/
def closeBefore (s : State) (t : Nat → Tr) : Nat → List XOpen
  | 0 => s.dev.xslots
  | n + 1 =>
    if (storers s).getLsbD n then (closeBefore s t n).filter (fun z => !(z.asid == asidNow s && z.pa == (t n).pa)) else closeBefore s t n

/-- The slot that lane l of a `dclose` takes out. -/
def closedSlot (s : State) (t : Nat → Tr) (l : Nat) : Option XOpen :=
  (closeBefore s t l).find? (fun z => z.asid == asidNow s && z.pa == (t l).pa)

/-- The flags of a closed slot (R224): NaN, +infinity, -infinity, overflow; bit 4 where none was open. -/
def closeFlags (x : Option XOpen) : Nat :=
  match x with
  | none => 16
  | some y => y.slot.nan.toNat + 2 * y.slot.pinf.toNat + 4 * y.slot.ninf.toNat + 8 * y.slot.ovf.toNat

/-- The sum that a closed slot gives. -/
def closeSum (x : Option XOpen) : Nat :=
  match x with
  | none => 0
  | some y => XSlot.close y.slot

/-- What a `dclose` stores (R224): at each destination whose slot was open, the rounded sum, of the highest lane that covers a byte, or, where an outstanding copy has written, perhaps not (R270); every other byte is as before. -/
structure SumsStored (s t : State) (L : Mask) (tr : Nat → Tr) : Prop where
  others : ∀ x, (∀ l < 64, L.getLsbD l = true → closedSlot s tr l ≠ none → ¬ ((tr l).pa ≤ x ∧ x < (tr l).pa + 4)) →
    Memory.read t.dev.mem x = Memory.read s.dev.mem x
  stored : ∀ l < 64, L.getLsbD l = true → ∀ y, closedSlot s tr l = some y → ∀ k < 4,
    (∀ h < 64, l < h → L.getLsbD h = true → closedSlot s tr h ≠ none → ¬ ((tr h).pa ≤ (tr l).pa + k ∧ (tr l).pa + k < (tr h).pa + 4)) →
    Memory.read t.dev.mem ((tr l).pa + k) = BitVec.ofNat 8 (XSlot.close y.slot / 2 ^ (8 * k)) ∨ Raced s ((tr l).pa + k)

/-- The wave that an exact-accumulation word leaves: its registers and its outstanding operations; no other wave differs. -/
structure WaveGoes (s t : State) : Prop where
  waves : ∀ u, u ≠ s.ctx.wave → Device.wave t.dev u = Device.wave s.dev u
  wave  : State.cur t = { Wave.withRegs (State.cur s) (State.cur t) with outs := (State.cur t).outs }

/-- `dopen` changes the wave, the open slots and the count of identifiers. -/
structure OnlyOpened (s t : State) : Prop extends WaveGoes s t where
  parts : t = { s with
    dev := { s.dev with waves := t.dev.waves, xslots := t.dev.xslots, uid := s.dev.uid + 1 }
    ctx.written := t.ctx.written }

/-- `dadd` changes the wave, the open slots, the count of identifiers and, where it drops an addition because no slot is open there, the error bit of its launch (R223, R403). -/
structure OnlyAdded (s t : State) (tr : Nat → Tr) : Prop extends WaveGoes s t where
  parts : t = { s with
    dev := { s.dev with waves := t.dev.waves, xslots := t.dev.xslots, launches := t.dev.launches, uid := s.dev.uid + 1 }
    ctx.written := t.ctx.written }
  launches : ∀ k, Tbl.get? t.dev.launches k = (Tbl.get? s.dev.launches k).map (fun x =>
    if k = Device.launchIdOf s.dev (State.cur s) ∧ (lanesOf (storers s)).any (fun l => !openAt s.dev.xslots (asidNow s) (tr l).pa) = true
    then { x with err := true } else x)

/-- `dclose` changes, beside the wave and the open slots, memory with what HBM holds behind it and its keys, cluster L1s, the counts of identifiers and of free choices. -/
structure OnlyClosed (s t : State) : Prop extends WaveGoes s t where
  parts : t = { s with
    dev := { s.dev with waves := t.dev.waves, mem := t.dev.mem, hbm := t.dev.hbm, mkeys := t.dev.mkeys, clusters := t.dev.clusters,
                        xslots := t.dev.xslots, uid := s.dev.uid + 1, freeCtr := t.dev.freeCtr }
    ctx.written := t.ctx.written }
  free  : (∀ x, ¬ Raced s x) → t.dev.freeCtr = s.dev.freeCtr
  clusters : ∀ k, Device.cluster t.dev k = { Device.cluster s.dev k with l1 := (Device.cluster t.dev k).l1 }

/-- Lanes that receive elements in names from D on, beside a last read of the offset. -/
def laneShows (s : State) (la : BitVec 1) (a : BitVec 6) (L : Mask) (d n : Nat) (e : Nat → Nat → Elem) (id : RegId) (l : Nat) : Elem :=
  match (List.range n).find? (fun i => State.vidOf s (d + i) == id) with
  | some i => if L.getLsbD l then e l i else Change.vec { reads := [(la, a.toNat)] } s id l
  | none => Change.vec { reads := [(la, a.toNat)] } s id l

end Sys2Proof.Claim
end

