-- ==== Sys2Proof/Claims/Trap.lean ====
section
/-! DEFINITION. What the statements say of exceptions: which words raise which, what entry saves, what stands in the frame, what a return restores, the replay queue (R27, R426 to R437). -/

namespace Sys2Proof.Claim

open Sys2Proof.Machine

/-- The words of a wave whose requests have not left the core, oldest first: they become the replay entries (R429, R432). -/
def entriesOf (w : Wave) : List Replay :=
  w.pend.filterMap (fun p => match p with
    | .word _ r => some r
    | _ => none)

/-- Is a number that of a word which becomes an entry. -/
def becomesEntry (w : Wave) (id : Nat) : Bool :=
  w.pend.any (fun p => match p with
    | .word i _ => i == id
    | _ => false)

/-- The fences that stand behind words which become entries, each with the number of those words (R234, R437). -/
def fencesBehind (n : Nat) : List Pend → List (Nat × Pend)
  | [] => []
  | .word _ _ :: t => fencesBehind (n + 1) t
  | .flush _ _ :: t => fencesBehind n t
  | .fence i a r k :: t => if n = 0 then fencesBehind n t else (n, .fence i a r k) :: fencesBehind n t

/-- What stays in the core: every window flush, and the fences before the first word (R429, R432). -/
def staysIn (l : List Pend) : List Pend :=
  match l with
  | [] => []
  | .word _ _ :: t => t.filter (fun p => match p with
      | .flush _ _ => true
      | _ => false)
  | p :: t => p :: staysIn t

/-- The wave as handler entry leaves it (R429): the cause in TRC to TRQN, every lane at TBAS, unfinished words as replay entries that have left their counters (R239). -/
def enteredWave (w : Wave) (code : BitVec 8) (trlm tram : Mask) (trpc : DWord) (trwb : Nat) (trpa : DWord) (num : BitVec 8) : Wave :=
  { w with
    held := entriesOf w, carried := fencesBehind 0 w.pend, pend := staysIn w.pend
    outs := outsClean (w.outs.filter (fun o => !becomesEntry w o.id))
    trc := code, trlm := trlm, tram := tram, trpc := trpc, trwb := trwb, trpa := trpa, trqn := (entriesOf w).length, trnum := num,
    tbasLo := none, tfrmLo := none, handler := true, hexit := 0, hwait := 0, hmask := 0, pcs := List.replicate 64 w.tbas }

/-- The flag byte (R431): values of q0 to q3 in bits 3:0, their poison in bits 7:4. -/
def flagByte (w : Wave) : Nat :=
  let f (q : Nat) : FReg := Wave.flagOf w q
  (List.range 4).foldr (fun q a => a + (if (f q).v then 2 ^ q else 0) + (if (f q).p then 2 ^ (4 + q) else 0)) 0

/-- The word of the frame for a lane's return entry (R431): its entry in the frame of its base; 0 where it has none; the mark where the frame is spilled or refilling. -/
def returnWord (w : Wave) (l : Nat) : DWord :=
  match Tbl.get? w.frames (Wave.wbOf w l) with
  | none => 0
  | some f =>
    if f.st = .spilled ∨ f.st = .refilling then 0x8000000000000000
    else if f.mask.getLsbD l then f.entries.getD l 0 else 0

/-- The fields of the trap frame (R431): offset, size, content. -/
inductive FrameField (w : Wave) : Nat → Nat → Nat → Prop where
  | trc : FrameField w 0x000 1 w.trc.toNat
  | trqn : FrameField w 0x001 1 w.trqn
  | trwb : FrameField w 0x002 2 w.trwb
  | num : FrameField w 0x004 1 w.trnum.toNat
  | qf : FrameField w 0x005 1 (flagByte w)
  | mode : FrameField w 0x006 1 0
  | trlm : FrameField w 0x008 8 w.trlm.toNat
  | tram : FrameField w 0x010 8 w.tram.toNat
  | trpc : FrameField w 0x018 8 w.trpc.toNat
  | trpa : FrameField w 0x020 8 w.trpa.toNat
  | fpaddr (a : DWord) (c : BitVec 8) (h : w.firstPoison = some (a, c)) : FrameField w 0x028 8 a.toNat
  | fpcode (a : DWord) (c : BitVec 8) (h : w.firstPoison = some (a, c)) : FrameField w 0x030 1 c.toNat
  | fpnone (h : w.firstPoison = none) : FrameField w 0x030 1 0
  | exit : FrameField w 0x038 8 w.exited.toNat
  | helper : FrameField w 0x040 8 w.helper.toNat
  | waiting : FrameField w 0x048 8 w.waiting.toNat
  | epmask : FrameField w 0x050 8 w.epmask.toNat
  | shi (i : Nat) (h : i < 16) : FrameField w (0x080 + 4 * i) 4 (Wave.sc w (240 + i)).v.toNat
  | ship : FrameField w 0x0C0 2 ((List.range 16).foldr (fun i a => 2 * a + (if (Wave.sc w (240 + i)).p then 1 else 0)) 0)
  | pc (l : Nat) (h : l < 64) : FrameField w (0x100 + 8 * l) 8 (Wave.pcOf w l).toNat
  | wb (l : Nat) (h : l < 64) : FrameField w (0x300 + 2 * l) 2 (Wave.wbOf w l)
  | rst (l : Nat) (h : l < 64) : FrameField w (0x380 + 8 * l) 8 (returnWord w l).toNat
  | reserved (k : Nat) (h : k = 0x007 ∨ (0x031 ≤ k ∧ k < 0x038) ∨ (0x058 ≤ k ∧ k < 0x080) ∨ (0x0C2 ≤ k ∧ k < 0x100)
      ∨ (0x580 ≤ k ∧ k < 0x600) ∨ (0x2A00 ≤ k ∧ k < 0x4000)) : FrameField w k 1 0

/-- The fields of a replay entry image (R433): offset, size, content. -/
inductive ImageField (r : Replay) : Nat → Nat → Nat → Prop where
  | w0 : ImageField r 0x000 4 r.w0.toNat
  | w1 : ImageField r 0x004 4 r.w1.toNat
  | w2 : ImageField r 0x008 4 r.w2.toNat
  | ctrl : ImageField r 0x00C 4 ((if r.valid then 1 else 0) + 2 * r.nlit + 16 * r.cls + (if r.faulted then 256 + 65536 * r.fcode.toNat else 0))
  | mask : ImageField r 0x010 8 r.mask.toNat
  | pc : ImageField r 0x018 8 r.pc.toNat
  | wb : ImageField r 0x020 2 r.wb
  | base : ImageField r 0x028 8 r.base.toNat
  | offset : ImageField r 0x030 8 r.offset.toNat
  | sdata (i : Nat) (h : i < 4) : ImageField r (0x038 + 4 * i) 4 (r.sdata.getD i 0).toNat
  | faddr : ImageField r 0x048 8 r.faddr.toNat
  | reserved (k : Nat) (h : (0x022 ≤ k ∧ k < 0x028) ∨ (0x050 ≤ k ∧ k < 0x100)) : ImageField r k 1 0
  | operand (j l : Nat) (hj : j < 5) (hl : l < 64) : ImageField r (0x100 + 256 * j + 4 * l) 4 ((r.ops.getD j []).getD l 0).toNat

/-- The number that n bytes of memory hold. -/
def memNum (d : Device) (a n : Nat) : Nat := ofLeBytes (Memory.readN d.mem a n)

/-- A wave can take a trap (R429, R430): it is not in its handler, TBAS is set, and the frame's page takes the write, to one copy, without a memory error and beside no outstanding copy's bytes (R270). -/
structure CanEnter (d : Device) (u pa : Nat) : Prop where
  user  : (Device.wave d u).handler = false
  base  : (Device.wave d u).tbas ≠ 0
  page  : ∃ t : Tr, t.pa = pa ∧ t.attr ≠ 1 ∧ t.attr ≠ 2
    ∧ Device.translate d (Device.wave d u).core (Device.asidOf d (Device.wave d u)) .w (Device.wave d u).tfrm 16384 = .ok t
  good  : Device.memBad d pa 16384 = false
  clear : ∀ o ∈ d.ops, o.id ≠ 0 → ∀ b ∈ o.wrote, ¬ (pa ≤ b ∧ b < pa + 16384)

/-- A trap that is a double fault (R430): taken in handler mode, with TBAS = 0, or with a frame that cannot be written. -/
inductive Doubles (d : Device) (u : Nat) : Prop where
  | handler (h : (Device.wave d u).handler = true)
  | base (h : (Device.wave d u).tbas = 0)
  | page (c : BitVec 8)
      (h : Device.translate d (Device.wave d u).core (Device.asidOf d (Device.wave d u)) .w (Device.wave d u).tfrm 16384 = .error c)
  | memory (t : Tr)
      (h : Device.translate d (Device.wave d u).core (Device.asidOf d (Device.wave d u)) .w (Device.wave d u).tfrm 16384 = .ok t)
      (b : Device.memBad d t.pa 16384 = true)

/-- What a double fault does to the workgroup (R404, R430): it is killed, its waves have ended, its launch's error bit is set. -/
structure Killed (d d' : Device) (g : Nat) (wg : Workgroup) : Prop where
  mark  : Device.wg d' g = { wg with killed := true }
  waves : ∀ u ∈ wg.waves, (Device.wave d' u).ended = true ∧ (Device.wave d' u).exited = BitVec.allOnes 64
    ∧ (Device.wave d' u).handler = false ∧ (Device.wave d' u).outs = [] ∧ (Device.wave d' u).held = []

/-- The per-lane global words with lanes of their own (R432): base, offset and its last-read bit, first data name, how many data names it reads, width, class, and whether it translates before any request leaves (R212). -/
inductive PerLane : Instr → BitVec 8 → BitVec 6 → BitVec 1 → BitVec 6 → Nat → Nat → Nat → Bool → Prop where
  | ld (o : ML) (h : o.sz.toNat ≤ 4) : PerLane (.ld o) o.b o.a o.la o.x 0 (2 ^ o.sz.toNat) 0 false
  | st (o : MS) (h : o.sz.toNat ≤ 4) : PerLane (.st o) o.b o.a o.la o.x (max 1 (2 ^ o.sz.toNat / 4)) (2 ^ o.sz.toNat) 1 true
  | atom (o : MA) : PerLane (.atom o) o.b o.a o.la o.x (atomData o.op) (if wideAtom o.op then 8 else 4) 0 true
  | red (o : MA) : PerLane (.red o) o.b o.a o.la o.x (atomData o.op) (if wideAtom o.op then 8 else 4) 1 true
  | dopen (o : MD) : PerLane (.dopen o) o.b o.a o.la o.x 0 4 0 true
  | dadd (o : MD) : PerLane (.dadd o) o.b o.a o.la o.x 1 4 1 true
  | dclose (o : MD) : PerLane (.dclose o) o.b o.a o.la o.x 0 4 0 true

/-- The lanes that a per-lane global word acts for (R87). -/
def actors (s : State) (store : Bool) : Mask := if store then storers s else s.ctx.lanes

/-- What a per-lane global word captures at issue (R433): the word and its LITs, its lanes, its chain and base, the base pair, the offset, the operand rows. -/
def captured (s : State) (b : BitVec 8) (a x : BitVec 6) (n cls : Nat) (store : Bool) : Replay :=
  { w0 := s.ctx.word, w1 := s.ctx.raw.getD 0 0, w2 := s.ctx.raw.getD 1 0, valid := true, nlit := s.ctx.raw.length, cls := cls,
    faulted := false, fcode := 0, mask := actors s store, subset := s.ctx.lanes, pc := s.ctx.chainPc, wb := s.ctx.wb,
    base := (pairScalar s b.toNat).1, offset := offset64 s, sdata := [], faddr := 0,
    ops := row s a.toNat :: (List.range n).map (fun i => row s (x.toNat + i)) }

/-- The wave issues a word that stays in the core (R432): room in its class and among its unfinished words, and for a `dadd` in the core's holding buffer (R223). -/
structure Waits (s : State) (i : Instr) (cls : Nat) : Prop where
  room  : HasRoom s cls
  few   : (entriesOf (State.cur s)).length < 6
  later : s.ctx.defer = true ∧ (State.cur s).handler = false
  adds  : (∃ o, i = .dadd o) → Device.holding s.dev (State.cur s).core < 16

/-- The lanes of a set that fail a test, and the lowest of them; every lane passes the tests that come before. -/
structure Fails (L : Mask) (before : List (Nat → Bool)) (f : Nat → Bool) (m : Mask) (l : Nat) : Prop where
  pass  : ∀ g ∈ before, ∀ k < 64, L.getLsbD k = true → g k = false
  lanes : ∀ k < 64, m.getLsbD k = (L.getLsbD k && f k)
  first : l < 64 ∧ m.getLsbD l = true ∧ ∀ k < l, m.getLsbD k = false

/-- Is a lane's address of a global word poisoned (R196). -/
def addressPoison (s : State) (b : BitVec 8) (a : BitVec 6) (l : Nat) : Bool := (pairScalar s b.toNat).2 || (State.elem s a.toNat l).p

/-- Is a data element of a lane poisoned. -/
def dataPoison (s : State) (x : BitVec 6) (n l : Nat) : Bool := (List.range n).any (fun i => (State.elem s (x.toNat + i) l).p)

/-- Is an address not a multiple of the width. -/
def crooked (s : State) (b : BitVec 8) (a : BitVec 6) (z l : Nat) : Bool := (globalAt s b a l).toNat % z != 0

/-- Is an address not canonical. -/
def far (s : State) (b : BitVec 8) (a : BitVec 6) (l : Nat) : Bool := !canonical (globalAt s b a l)

/-- Which order of R178 a local access fails: 1 outside the SRAM, 2 out of reach, 3 outside every allocation and ring. -/
def localOrder (s : State) (b : BitVec 8) (a : BitVec 6) (z k l : Nat) : Bool :=
  match Device.localFault s.pre (State.src s).wg (localAt s b a l) z with
  | some (o, _) => o == k
  | none => false

/-- The local address of a lane in TRPA (R188): bit 63 and the low 23 bits of the address. -/
def localForm64 (s : State) (b : BitVec 8) (a : BitVec 6) (l : Nat) : DWord :=
  0x8000000000000000 ||| (BitVec.ofInt 23 (localAt s b a l)).setWidth 64

/-- Is a lane's local address poisoned. -/
def localPoisoned (s : State) (b : BitVec 8) (a : BitVec 6) (l : Nat) : Bool := (State.sc s b.toNat).p || (State.elem s a.toNat l).p

/-- The tests that a local access passes before its alignment (R178, R188). -/
def localTests (s : State) (b : BitVec 8) (a : BitVec 6) (z : Nat) : List (Nat → Bool) :=
  [localPoisoned s b a, localOrder s b a z 1, localOrder s b a z 2, localOrder s b a z 3]

/-- The local words (R188): base, offset, first data name, how many data names it reads, width, lanes. -/
inductive LocalWord (s : State) : Instr → BitVec 8 → BitVec 6 → BitVec 6 → Nat → Nat → Mask → Prop where
  | ldl (o : ML) (h : o.sz.toNat ≤ 4) : LocalWord s (.ldl o) o.b o.a o.x 0 (2 ^ o.sz.toNat) s.ctx.lanes
  | stl (o : MS) (h : o.sz.toNat ≤ 4) : LocalWord s (.stl o) o.b o.a o.x (max 1 (2 ^ o.sz.toNat / 4)) (2 ^ o.sz.toNat) (storers s)
  | atoml (o : MA) : LocalWord s (.atoml o) o.b o.a o.x (atomData o.op) (if wideAtom o.op then 8 else 4) (storers s)

/-- Targets that fail the test of R26, of lanes L: the lowest failing lane's fault, the lanes that are reported with it and TRPA; for a misaligned target every lane with one, for a fetch fault the lanes that go to that target. -/
def TargetFails (s : State) (L : Mask) (f : Nat → DWord) (c : BitVec 8) (m : Mask) (a : DWord) : Prop :=
  ∃ l < 64, L.getLsbD l = true ∧ targetTest s (f l) = some (c, a) ∧ (∀ k < l, L.getLsbD k = true → targetTest s (f k) = none)
    ∧ ∀ k < 64, m.getLsbD k = (L.getLsbD k && (if c = 0x08 then (match targetTest s (f k) with
        | some (e, _) => e == 0x08
        | none => false) else f k == f l))

/-- Does a lane's return meet a bad entry (R131). -/
def retBad (s : State) (l : Nat) : Bool :=
  !Wave.inFrame (State.src s) (Wave.wbOf (State.src s) l) l || (retEntry s l).extractLsb' 57 3 == 0 || (retEntry s l).extractLsb' 57 3 == 7
  || (retEntry s l).extractLsb' 60 4 != 0 || (retEntry s l).extractLsb' 0 2 != 0 || decide (Wave.wbOf (State.src s) l < retSlide s l)

/-- No frame that a lane of the subset returns by is spilled or on its way back (R125). -/
def FramesHere (s : State) : Prop :=
  ∀ l < 64, s.ctx.lanes.getLsbD l = true → ∀ x, Tbl.get? (State.src s).frames (Wave.wbOf (State.src s) l) = some x → x.st ≠ .spilled ∧ x.st ≠ .refilling

/-- The scalar memory words (R154): width, and whether it stores. -/
inductive Smem : Instr → SR → Nat → Bool → Prop where
  | ldW (o : SR) : Smem (.sldW o) o 4 false
  | ldD (o : SR) : Smem (.sldD o) o 8 false
  | ldQ (o : SR) : Smem (.sldQ o) o 16 false
  | stW (o : SR) : Smem (.sstW o) o 4 true
  | stD (o : SR) : Smem (.sstD o) o 8 true
  | stQ (o : SR) : Smem (.sstQ o) o 16 true

/-- The words whose operands make them trap at issue: TRLM, code, TRPA. Addresses of global words (R196, R206), of scalar ones (R154), of local ones (R178, R188), targets (R26, R92), returns (R131), calls past WLIM and in a handler (R130, R145). -/
inductive OperandTraps (s : State) : Instr → Mask → BitVec 8 → DWord → Prop where
  | poison (i : Instr) (b a la x n z c st m l) (p : PerLane i b a la x n z c st) (f : Fails (actors s st) [] (addressPoison s b a) m l) :
      OperandTraps s i m 0x05 0
  | canonical (i : Instr) (b a la x n z c st m l) (p : PerLane i b a la x n z c st)
      (f : Fails (actors s st) [addressPoison s b a] (far s b a) m l) : OperandTraps s i m 0x07 (globalAt s b a l)
  | aligned (i : Instr) (b a la x n z c st m l) (p : PerLane i b a la x n z c st)
      (f : Fails (actors s st) [addressPoison s b a, far s b a] (crooked s b a z) m l) : OperandTraps s i m 0x08 (globalAt s b a l)
  | data (i : Instr) (b a la x n z c st m l) (p : PerLane i b a la x n z c st)
      (f : Fails (actors s st) [addressPoison s b a, far s b a, crooked s b a z] (dataPoison s x n) m l) : OperandTraps s i m 0x05 (globalAt s b a l)
  | smemPoison (i : Instr) (o : SR) (z : Nat) (st : Bool) (k : Smem i o z st) (g : st = true → storers s ≠ 0) (p : (pairScalar s o.a.toNat).2 = true) :
      OperandTraps s i s.ctx.lanes 0x05 0
  | smemFar (i : Instr) (o : SR) (z : Nat) (st : Bool) (k : Smem i o z st) (g : st = true → storers s ≠ 0) (p : (pairScalar s o.a.toNat).2 = false)
      (c : canonical (smemAt s o) = false) : OperandTraps s i s.ctx.lanes 0x07 (smemAt s o)
  | smemAligned (i : Instr) (o : SR) (z : Nat) (st : Bool) (k : Smem i o z st) (g : st = true → storers s ≠ 0)
      (p : (pairScalar s o.a.toNat).2 = false) (c : canonical (smemAt s o) = true) (al : (smemAt s o).toNat % z ≠ 0) :
      OperandTraps s i s.ctx.lanes 0x08 (smemAt s o)
  | smemData (i : Instr) (o : SR) (z : Nat) (k : Smem i o z true) (g : storers s ≠ 0) (p : SmemPass s o z)
      (d : ∃ j < z / 4, (State.sc s (o.d.toNat + j)).p = true) : OperandTraps s i s.ctx.lanes 0x05 (smemAt s o)
  | localOut (i : Instr) (b a x n z L m l) (p : LocalWord s i b a x n z L)
      (f : Fails L [localPoisoned s b a] (localOrder s b a z 1) m l) : OperandTraps s i m 0x07 (localForm64 s b a l)
  | localReach (i : Instr) (b a x n z L m l) (p : LocalWord s i b a x n z L)
      (f : Fails L [localPoisoned s b a, localOrder s b a z 1] (localOrder s b a z 2) m l) : OperandTraps s i m 0x14 (localForm64 s b a l)
  | localHole (i : Instr) (b a x n z L m l) (p : LocalWord s i b a x n z L)
      (f : Fails L [localPoisoned s b a, localOrder s b a z 1, localOrder s b a z 2] (localOrder s b a z 3) m l) :
      OperandTraps s i m 0x07 (localForm64 s b a l)
  | localAligned (i : Instr) (b a x n z L m l) (p : LocalWord s i b a x n z L)
      (f : Fails L (localTests s b a z) (fun k => decide (localAt s b a k % (z : Int) ≠ 0)) m l) : OperandTraps s i m 0x08 (localForm64 s b a l)
  | localData (i : Instr) (b a x n z L m l) (p : LocalWord s i b a x n z L)
      (f : Fails L (localTests s b a z ++ [fun k => decide (localAt s b a k % (z : Int) ≠ 0)]) (dataPoison s x n) m l) :
      OperandTraps s i m 0x05 (localForm64 s b a l)
  | target (i : Instr) (L m : Mask) (f : Nat → DWord) (c : BitVec 8) (a : DWord) (t : Transfer s i L f) (b : TargetFails s L f c m a) :
      OperandTraps s i m c a
  | callTarget (i : Instr) (sl : BitVec 3) (m : Mask) (f : Nat → DWord) (c : BitVec 8) (a : DWord) (t : Calls s i sl f)
      (b : TargetFails s s.ctx.lanes f c m a) : OperandTraps s i m c a
  | callOver (i : Instr) (sl : BitVec 3) (f : Nat → DWord) (t : Calls s i sl f) (p : TargetsPass s s.ctx.lanes f)
      (o : (State.src s).handler = true ∨ (State.src s).wlim < callFrame s sl + 48) : OperandTraps s i s.ctx.lanes 0x09 0
  | retEntry (o : C0) (m : Mask) (l : Nat) (h : FramesHere s) (f : Fails s.ctx.lanes [] (retBad s) m l) : OperandTraps s (.ret o) m 0x03 0
  | retTarget (o : C0) (m : Mask) (c : BitVec 8) (a : DWord) (h : FramesHere s) (g : ∀ l < 64, s.ctx.lanes.getLsbD l = true → retBad s l = false)
      (b : TargetFails s s.ctx.lanes (retPc s) c m a) : OperandTraps s (.ret o) m c a
  | syncMask (i : Instr) (m : Mask) (t : Syncs s i m) (h : episode s m ≠ m) : OperandTraps s i s.ctx.lanes 0x0D 0
  | syncLane (i : Instr) (m : Mask) (t : Syncs s i m) (h : episode s m = m) (g : s.ctx.lanes &&& ~~~m ≠ 0) :
      OperandTraps s i (s.ctx.lanes &&& ~~~m) 0x0D 0
  | exitChoice (i : Instr) (c : Succ) (t : Exits s i c) (h : succOf s ≠ .unset) (g : succOf s ≠ c) : OperandTraps s i s.ctx.lanes 0x13 0
  | exitEntry (o : CS) (h : (pairScalar s o.s.toNat).2 = false) (g : (pairScalar s o.s.toNat).1.toNat % 96 ≠ 0) :
      OperandTraps s (.exitS o) s.ctx.lanes 0x08 (pairScalar s o.s.toNat).1

/-- The test of R26, word for word: a multiple of 4, in slot 0 or behind a word with C = 0, which can be fetched. -/
def targetRule (s : State) (t : DWord) : Option (BitVec 8 × DWord) :=
  if t.toNat % 4 ≠ 0 then some (0x08, t)
  else if t.toNat % 12 = 0 then none
  else match Device.fetchWord s.pre (State.src s).core (Device.asidOf s.pre (State.src s)) (t - 4) with
    | .error c => some (c, t - 4)
    | .ok w => if w.getLsbD 31 then some (0x08, t) else none

/-- The words that raise a trap whatever their operands hold: the code (R111, R112, R434, R439). -/
inductive Forbidden (s : State) : Instr → BitVec 8 → Prop where
  | mfs (o : SXFs) (p : privileged o.r.toNat) (h : (State.src s).handler = false) : Forbidden s (.mfs o) 0x07
  | mts (o : SXTs) (p : privileged o.r.toNat) (h : (State.src s).handler = false) : Forbidden s (.mts o) 0x07
  | mtsRead (o : SXTs) (h : o.r.toNat ∉ [0x11, 0x12, 0x13, 0x14, 0x16, 0x17, 0x20, 0x21, 0x3B, 0x3C, 0x3D, 0x3E]) : Forbidden s (.mts o) 0x03
  | tlbinvAll (o : C0) (h : (State.src s).handler = false) : Forbidden s (.tlbinvAll o) 0x07
  | rte (o : C0) (h : (State.src s).handler = false) : Forbidden s (.rte o) 0x07
  | rqr (o : SXE) (h : (State.src s).handler = false) : Forbidden s (.rqr o) 0x07
  | rqw (o : SXE) (h : (State.src s).handler = false) : Forbidden s (.rqw o) 0x07
  | rqd (o : SXE) (h : (State.src s).handler = false) : Forbidden s (.rqd o) 0x07
  | rqrEntry (o : SXE) (h : (State.src s).handler = true) (e : (State.src s).held.length ≤ o.e.toNat) : Forbidden s (.rqr o) 0x03
  | rqwEntry (o : SXE) (h : (State.src s).handler = true) (e : (State.src s).held.length ≤ o.e.toNat) : Forbidden s (.rqw o) 0x03
  | rqdEntry (o : SXE) (h : (State.src s).handler = true) (e : (State.src s).held.length ≤ o.e.toNat) : Forbidden s (.rqd o) 0x03
  | barr (o : CBar) (h : (barNow s o.b).e = 0) : Forbidden s (.barr o) 0x03
  | barw (o : CBarP) (h : (barNow s o.b).e = 0) : Forbidden s (.barw o) 0x03
  | barwS (o : CBarPS) (h : (barNow s o.b).e = 0) : Forbidden s (.barwS o) 0x03
  | bart (o : CBart) (h : (barNow s o.b).e = 0) : Forbidden s (.bart o) 0x03
  | mclr (o : EMask) (h : ¬ OwnsPair s) : Forbidden s (.mclr o) 0x07
  | mstat (o : EJ) (h : ¬ OwnsPair s) : Forbidden s (.mstat o) 0x07
  | mload (o : EJ) (h : ¬ OwnsPair s) : Forbidden s (.mload o) 0x07
  | mmul (o : EMmul) (h : ¬ OwnsPair s) : Forbidden s (.mmul o) 0x07
  | mmulReg (o : EMmulR) (h : ¬ OwnsPair s) : Forbidden s (.mmulReg o) 0x07

/-- The words whose scalar operand is poisoned: they raise 0x05 for the whole subset (R206, R107, R176 to R186, R255, R258, R278). -/
inductive PoisonRead (s : State) : Instr → Prop where
  | mts (o : SXTs) (w : o.r.toNat ∈ [0x11, 0x12, 0x13, 0x14, 0x16, 0x17, 0x20, 0x21]) (h : (State.sc s o.s.toNat).p = true) : PoisonRead s (.mts o)
  | quota (o : CS) (h : (pairScalar s o.s.toNat).2 = true) : PoisonRead s (.quota o)
  | bmode (o : CBmode) (h : (State.sc s o.s.toNat).p = true) : PoisonRead s (.bmode o)
  | join (o : CS) (h : (State.sc s o.s.toNat).p = true) : PoisonRead s (.join o)
  | salloc (o : CS) (h : (State.sc s o.s.toNat).p = true) : PoisonRead s (.salloc o)
  | sfree (o : CS) (h : (State.sc s o.s.toNat).p = true) : PoisonRead s (.sfree o)
  | rinit (o : CS) (h : (State.sc s o.s.toNat).p = true) : PoisonRead s (.rinit o)
  | presGet (o : CS) (h : (State.sc s o.s.toNat).p = true) : PoisonRead s (.presGet o)
  | binit (o : CBarS) (h : (State.sc s o.s.toNat).p = true) : PoisonRead s (.binit o)
  | jmpS (o : CS) (h : (pairScalar s o.s.toNat).2 = true) : PoisonRead s (.jmpS o)
  | exitS (o : CS) (h : (pairScalar s o.s.toNat).2 = true) : PoisonRead s (.exitS o)
  | fmt (o : E1) (h : (State.sc s o.s.toNat).p = true) : PoisonRead s (.fmt o)
  | mshape (o : E1) (h : (State.sc s o.s.toNat).p = true) : PoisonRead s (.mshape o)
  | tape (o : E1) (h : (pairScalar s o.s.toNat).2 = true) : PoisonRead s (.tapeW o)
  | coll (o : E1) (h : (pairScalar s o.s.toNat).2 = true) : PoisonRead s (.coll o)

/-- The words whose effect is a trap at the boundary (R435): code and number. -/
inductive SoftTraps : Instr → BitVec 8 → BitVec 8 → Prop where
  | brk (o : SXN) : SoftTraps (.brk o) 0x10 o.n
  | trap (o : SXN) : SoftTraps (.trapW o) 0x11 o.n

/-- The bytes of the trap frame at an offset, as the wave reads them. -/
def frameBytes (s : State) (off n : Nat) : Except (BitVec 8) (List Byte) :=
  Device.vread s.dev (coreAgent (State.src s).core) (Device.asidOf s.pre (State.src s)) .r ((State.src s).tfrm + BitVec.ofNat 64 off) n

/-- What `rte` reads back (R431, R436). -/
structure FrameRead (s : State) (qf exit shi ship pcs : List Byte) : Prop where
  qf   : frameBytes s 0x005 1 = .ok qf
  exit : frameBytes s 0x038 8 = .ok exit
  shi  : frameBytes s 0x080 64 = .ok shi
  ship : frameBytes s 0x0C0 2 = .ok ship
  pcs  : frameBytes s 0x100 512 = .ok pcs

/-- The i-th number of k bytes in a list. -/
def numberAt (bs : List Byte) (i k : Nat) : Nat := ofLeBytes ((bs.drop (k * i)).take k)

/-- An `rte` that meets no double fault, with every entry discarded, nothing unfinished in the core and some lane left (R436). -/
structure Returns (s : State) (exit pcs : List Byte) : Prop where
  handler : (State.src s).handler = true
  done0   : Wave.counter (State.src s) 0 = 0
  done1   : Wave.counter (State.src s) 1 = 0
  same    : State.cur s = State.src s
  entries : ∀ r ∈ (State.src s).held, r.valid = false
  fences  : (State.src s).carried = [] ∧ (State.src s).pend = []
  left    : (State.src s).exited ||| BitVec.ofNat 64 (ofLeBytes exit) ≠ BitVec.allOnes 64
  targets : ∀ l < 64, ((State.src s).exited ||| BitVec.ofNat 64 (ofLeBytes exit)).getLsbD l = false →
    canonical (BitVec.ofNat 64 (numberAt pcs l 8)) = true
    ∧ Device.targetFault s.dev (State.src s).core (Device.asidOf s.pre (State.src s)) (BitVec.ofNat 64 (numberAt pcs l 8)) = none

/-- The wave after a return (R436): out of handler mode, its PCs, s240 to s255 and flags from the frame; its exited lanes joined by those the frame names; the records of the trap kept; the queue and the first-poison record empty. -/
structure Returned (w w' : Wave) (qf exit shi ship pcs : List Byte) : Prop where
  mode  : w'.handler = false
  gone  : w'.exited = w.exited ||| BitVec.ofNat 64 (ofLeBytes exit)
  pc    : ∀ l < 64, w'.exited.getLsbD l = false → Wave.pcOf w' l = BitVec.ofNat 64 (numberAt pcs l 8)
  wb    : ∀ l < 64, w'.exited.getLsbD l = false → Wave.wbOf w' l = Wave.wbOf w l
  shi   : ∀ i < 16, Wave.sc w' (240 + i) = ⟨BitVec.ofNat 32 (numberAt shi i 4), (ofLeBytes ship).testBit i⟩
  scal  : ∀ n < 240, Wave.sc w' n = Wave.sc w n
  flags : ∀ q < 4, Wave.flagOf w' q = ⟨(ofLeBytes qf).testBit q, (ofLeBytes qf).testBit (4 + q)⟩
  preds : w'.preds = w.preds
  vecs  : ∀ id l, l < 64 → w'.exited.getLsbD l = false → (∀ p, id = .pos p → ¬ (w.wlim ≤ p ∧ p < w.wlim + 48)) →
    Wave.elemOf w' id l = Wave.elemOf w id l
  reserve : ∀ p l, l < 64 → w.wlim ≤ p → p < w.wlim + 48 → Wave.elemOf w' (.pos p) l = ⟨0, false⟩
  empty : w'.held = [] ∧ w'.carried = [] ∧ w'.trqn = 0 ∧ w'.firstPoison = none
  saved : w'.trc = w.trc ∧ w'.trlm = w.trlm ∧ w'.tram = w.tram ∧ w'.trpc = w.trpc ∧ w'.trwb = w.trwb ∧ w'.trpa = w.trpa
    ∧ w'.tbas = w.tbas ∧ w'.tfrm = w.tfrm ∧ w'.wlim = w.wlim ∧ w'.wsp = w.wsp ∧ w'.quota = w.quota ∧ w'.wdog = w.wdog ∧ w'.fpm = w.fpm

/-- The address of image e (R431). -/
def imageAddr (s : State) (e : Nat) : DWord := (State.src s).tfrm + BitVec.ofNat 64 (0x600 + 0x600 * e)

/-- The device after the wave's own write of bytes of its frame. -/
def frameWritten (s : State) (a : DWord) (bs : List Byte) : Except (BitVec 8) Device :=
  Device.vwrite s.dev (Device.agentOf s.dev (State.src s)) (Device.asidOf s.pre (State.src s)) false a bs

/-- The state with a held entry replaced. -/
def withEntry (s : State) (e : Nat) (r : Replay) : State := State.mapWave s (fun w => { w with held := w.held.set e r })

/-- The replay words that complete (R437): the machine that each leaves, and the change of registers. -/
inductive ReplayActs (s : State) : Instr → State → Option Change → Prop where
  | rqr (o : SXE) (r : Replay) (d : Device) (h : (State.src s).handler = true) (e : (State.src s).held[o.e.toNat]? = some r)
      (w : frameWritten s (imageAddr s o.e.toNat) (Replay.image r) = .ok d) : ReplayActs s (.rqr o) { s with dev := d } none
  | rqd (o : SXE) (r : Replay) (x : Byte) (d : Device) (h : (State.src s).handler = true) (e : (State.src s).held[o.e.toNat]? = some r)
      (g : Device.vread s.dev (coreAgent (State.src s).core) (Device.asidOf s.pre (State.src s)) .r (imageAddr s o.e.toNat + 0x00C) 1 = .ok [x])
      (w : frameWritten s (imageAddr s o.e.toNat + 0x00C) [x &&& 0xFE] = .ok d) :
      ReplayActs s (.rqd o) (withEntry { s with dev := d } o.e.toNat { r with valid := false }) none
  | rqwNot (o : SXE) (r : Replay) (bs : List Byte) (h : (State.src s).handler = true) (e : (State.src s).held[o.e.toNat]? = some r)
      (c : Wave.counter (State.src s) 1 = 0) (g : frameBytes s (0x600 + 0x600 * o.e.toNat) 1536 = .ok bs) (b : Replay.load r bs = none) :
      ReplayActs s (.rqw o) s (some { flags := [(0, ⟨true, false⟩)] })
  | rqw (o : SXE) (r r' : Replay) (bs : List Byte) (h : (State.src s).handler = true) (e : (State.src s).held[o.e.toNat]? = some r)
      (c : Wave.counter (State.src s) 1 = 0) (g : frameBytes s (0x600 + 0x600 * o.e.toNat) 1536 = .ok bs)
      (b : Replay.load r bs = some r') :
      ReplayActs s (.rqw o) (withEntry s o.e.toNat r') (some { flags := [(0, ⟨false, false⟩)] })

end Sys2Proof.Claim
end

