-- ==== Sys2Proof/Claims/Ray.lean ====
section
/-! DEFINITION. What the statements say of the micro-operations of traversal programs (R343 to R355): what each does to the ray of its lane. -/

namespace Sys2Proof.Claim

open Sys2Proof.Machine

/-- The lane that micro-operates has a running ray with budget left (R343, R345). -/
def RayRuns (s : State) (r : Ray) : Prop :=
  Tbl.get? (Device.wave s.dev s.ctx.wave).rays s.ctx.lane = some r ∧ r.st = .running ∧ (r.lim = true → r.budget ≠ 0)

/-- The state with the lane's ray replaced. -/
def withRay (s : State) (d : Device) (r : Ray) : State :=
  let w := Device.wave d s.ctx.wave
  { s with dev := Device.setWave d s.ctx.wave { w with rays := Tbl.put w.rays s.ctx.lane r } }

/-- A ray that has executed a micro-operation (R345): the budget falls where it is limited, the program goes on at an index. -/
def ranOn (r : Ray) (at_ : Nat) : Ray := { r with budget := if r.lim then r.budget - 1 else r.budget, rf := none, mpc := at_ }

/-- The next index: the one after, except that a resumption's FETCH leaves it (R373). -/
def nextIndex (r : Ray) : Nat := if r.rf.isSome then r.mpc else r.mpc + 1

/-- The chain's wave. -/
def rayWave (s : State) : Wave := Device.wave s.dev s.ctx.wave

/-- A micro-register (R343): x0 reads 0 and discards writes. -/
def reg (r : Ray) (i : BitVec 4) : Word := if i = 0 then 0 else r.regs.getD i.toNat 0

/-- A ray with a micro-register written. -/
def setReg (r : Ray) (i : Nat) (v : Word) : Ray := if i = 0 then r else { r with regs := putAt r.regs i v 0 }

/-- The address of a handle from a base (R338): 16 times the handle. -/
def unitAt (base : DWord) (h : Word) : DWord := base + BitVec.ofNat 64 (16 * h.toNat)

/-- The result of a box test (R347, R363): the entry distance and H. Bounds or a ray that are not finite miss. -/
def BoxResult (r : Ray) (b : List Word) (x : Word) (h : Bool) : Prop :=
  let wild := b.any nanW || (r.o ++ r.d).any (fun x => !finW x) || nanW r.tmin || nanW r.tmax
  let ts := (List.range 3).map (fun a => slab (b.getD a 0) (b.getD (a + 3) 0) (r.o.getD a 0) (r.d.getD a 0))
  let tn := ts.foldl (fun m t => if fltW m t.1 then t.1 else m) r.tmin
  let tf := ts.foldl (fun m t => if fltW t.2 m then t.2 else m) r.tmax
  if wild = false ∧ fleW tn tf = true then x = tn ∧ h = true else x = 0x7F800000 ∧ h = false

/-- The key of a sort (R347): NaN counts as +infinity. -/
def keyOf (r : Ray) (a : BitVec 4) (i : Nat) : Word :=
  if nanW (reg r (BitVec.ofNat 4 (a.toNat + i))) then 0x7F800000 else reg r (BitVec.ofNat 4 (a.toNat + i))

/-- An order of n indices by rising key, equal keys by rising index (R347). -/
def Sorted (r : Ray) (a : BitVec 4) (n : Nat) (l : List Nat) : Prop :=
  l.Perm (List.range n)
  ∧ l.Pairwise (fun i j => fltW (keyOf r a j) (keyOf r a i) = false ∧ (fltW (keyOf r a i) (keyOf r a j) = true ∨ i < j))

/-- The word of eight nibbles: the sorted indices, then 15 (R347). -/
def nibbles (l : List Nat) : Word := BitVec.ofNat 32 ((List.range 8).foldr (fun j a => 16 * a + l.getD j 15) 0)

/-- A primitive's candidate (R349): a hit within tmin to tmax sets H and becomes the candidate, another clears H. -/
def hitOf (r : Ray) (kind : Nat) (prim : Word) (p : Option PHit) : Ray :=
  match p with
  | none => { r with h := false }
  | some p =>
    if fleW r.tmin p.t = true ∧ fleW p.t r.tmax = true then
      { r with h := true, cand := { valid := true, t := p.t, u := p.u, v := p.v, prim := prim, inst := if r.inInst then r.iid else 0xFFFFFFFF, kind := kind } }
    else { r with h := false }

/-- A ray with a component that is not finite hits no primitive (R363). -/
def wildRay (r : Ray) : Bool := (r.o ++ r.d).any (fun x => !finW x)

/-- The instance of a transform record (R350). -/
structure Instance where
  org : List Word
  dir : List Word
  nb  : Nat
  pb  : Nat
  iid : Word
  x0  : Word
  x1  : Word
  deriving DecidableEq, Repr

/-- Reads an instance record's 80 bytes against a ray. -/
def instanceOf (r : Ray) (bs : List Byte) : Instance :=
  let m (i : Nat) : List Word := wordsAt bs (16 * i) 4
  { org := (List.range 3).map (fun i => rowDot (m i) r.org true), dir := (List.range 3).map (fun i => rowDot (m i) r.dir false),
    nb := fieldAt bs 0x30 8, pb := fieldAt bs 0x38 8, iid := BitVec.ofNat 32 (fieldAt bs 0x40 4), x0 := BitVec.ofNat 32 (fieldAt bs 0x44 4),
    x1 := BitVec.ofNat 32 (fieldAt bs 0x48 4) }

/-- An instance that R350 enters: finite, a direction that is not zero, bases that are multiples of 16. -/
def instanceGood (x : Instance) : Bool :=
  (x.org ++ x.dir).all finW && x.dir.any (fun w => w.toNat % 2 ^ 31 != 0) && x.nb % 16 == 0 && x.pb % 16 == 0

/-- The conditions of BR (R351). -/
def brCond (r : Ray) (c : Nat) (a b : Word) : Bool :=
  if c = 0 then true
  else if c = 1 then a == b
  else if c = 2 then a != b
  else if c = 3 then a.ult b
  else if c = 4 then !a.ult b
  else if c = 5 then fltW a b
  else if c = 6 then fleW b a
  else if c = 7 then r.h
  else if c = 8 then !r.h
  else if c = 9 then r.stack.isEmpty
  else if c = 10 then !r.stack.isEmpty
  else if c = 11 then r.inInst && r.stack.length == r.xd
  else if c = 12 then r.slost
  else if c = 13 then r.hit.valid
  else if c = 14 then (a &&& b) == 0
  else (a &&& b) != 0

/-- The micro-operations that go on at the next index: the ray that each leaves. -/
inductive RayActs (s : State) (r : Ray) : Instr → Ray → Prop where
  | nop : RayActs s r .miNop r
  | fetch (o : UAK) (bs : List Byte) (n : laySize r.lay.image o.k.toNat ≠ 0)
      (h : Device.rayRead s.dev (rayWave s) (unitAt r.nbase (reg r o.a)) 16 (laySize r.lay.image o.k.toNat / 16) = .ok bs) :
      RayActs s r (.miFetch o) { r with node := bs, nodeClass := o.k.toNat, nodeAddr := unitAt r.nbase (reg r o.a) }
  | field (o : UDAF) (v : Word) (h : r.field o.f.toNat (reg r o.a).toNat = some v) :
      RayActs s r (.miField o) (setReg r o.d.toNat v)
  | box (o : UDA) (b : List Word) (x : Word) (k : Bool)
      (h : ∀ j < 6, r.field (boxField r.lay.image j) (reg r o.a).toNat = some (b.getD j 0)) (n : b.length = 6) (t : BoxResult r b x k) :
      RayActs s r (.miBox o) (setReg { r with h := k } o.d.toNat x)
  | sort (o : UDAF) (l : List Nat) (n : o.f.toNat ≤ 8) (h : Sorted r o.a o.f.toNat l) :
      RayActs s r (.miSort o)
        (setReg (setReg r o.d.toNat (nibbles l)) (o.d.toNat + 1)
          (BitVec.ofNat 32 ((List.range o.f.toNat).filter (fun i => fltW (keyOf r o.a i) 0x7F800000)).length))
  | nibble (o : USel) (m : o.m = 0) :
      RayActs s r (.miSelect o)
        (setReg r o.d.toNat ((reg r o.a >>> (4 * ((reg r o.b).toNat % 8))) &&& 15))
  | imm (o : USel) (m : o.m = 1) : RayActs s r (.miSelect o) (setReg r o.d.toNat (o.v.setWidth 32))
  | addi (o : USel) (m : o.m = 2) : RayActs s r (.miSelect o) (setReg r o.d.toNat (reg r o.a + o.v.signExtend 32))
  | add (o : USel) (m : o.m = 3) : RayActs s r (.miSelect o) (setReg r o.d.toNat (reg r o.a + reg r o.b))
  | push (o : UA) (h : r.stack.length < 12) : RayActs s r (.miPush o) { r with stack := r.stack ++ [reg r o.a] }
  | pushFull (o : UA) (h : 12 ≤ r.stack.length) :
      RayActs s r (.miPush o) { r with stack := r.stack.tail ++ [reg r o.a], slost := true, xd := r.xd - 1 }
  | pop (o : UD) (v : Word) (l : List Word) (h : r.stack = l ++ [v]) : RayActs s r (.miPop o) (setReg { r with stack := l } o.d.toNat v)
  | tri (o : UA) (bs : List Byte) (h : Device.rayRead s.dev (rayWave s) (unitAt r.pbase (reg r o.a)) 16 3 = .ok bs) :
      RayActs s r (.miTri o)
        (hitOf r 0 (reg r o.a) (if wildRay r then none else triTest (wordsAt bs 0 9) r.o r.d ((reg r 14).toNat % 4)))
  | caps (o : UA) (bs : List Byte) (h : Device.rayRead s.dev (rayWave s) (unitAt r.pbase (reg r o.a)) 16 3 = .ok bs) :
      RayActs s r (.miCaps o)
        (hitOf r 1 (reg r o.a) (if wildRay r then none else
          capsTest (wordsAt bs 0 3) (BitVec.ofNat 32 (fieldAt bs 12 4)) (wordsAt bs 16 3) (BitVec.ofNat 32 (fieldAt bs 28 4))
            (fieldAt bs 32 4 % 2 ^ 32) r.o r.d r.tmin))
  | curve (o : UA) (bs : List Byte) (h : Device.rayRead s.dev (rayWave s) (unitAt r.pbase (reg r o.a)) 16 5 = .ok bs) :
      RayActs s r (.miCurve o)
        (hitOf r 2 (reg r o.a) (if wildRay r then none else
          curveTest (wordsAt bs 0 16) (fieldAt bs 64 4 % 2 ^ 32) r.o r.d r.tmin r.tmax))
  | xform (o : UDA) (bs : List Byte) (n : r.inInst = false)
      (h : Device.rayRead s.dev (rayWave s) (unitAt r.pbase (reg r o.a)) 16 5 = .ok bs) (g : instanceGood (instanceOf r bs) = true) :
      RayActs s r (.miXform o)
        (setReg (setReg
          { r with inInst := true, iorg := (instanceOf r bs).org, idir := (instanceOf r bs).dir, inb := BitVec.ofNat 64 (instanceOf r bs).nb,
                   ipb := BitVec.ofNat 64 (instanceOf r bs).pb, iid := (instanceOf r bs).iid, ihnd := reg r o.a, xd := r.stack.length, h := true }
          o.d.toNat (instanceOf r bs).x0) (o.d.toNat + 1) (instanceOf r bs).x1)
  | xformNot (o : UDA) (bs : List Byte) (n : r.inInst = false)
      (h : Device.rayRead s.dev (rayWave s) (unitAt r.pbase (reg r o.a)) 16 5 = .ok bs) (g : instanceGood (instanceOf r bs) = false) :
      RayActs s r (.miXform o) { r with h := false }
  | popx (n : r.inInst = true) : RayActs s r .miPopx { r with inInst := false, xd := 0 }
  | accept (h : r.cand.valid = true) : RayActs s r .miAccept { r with hit := r.cand, tmax := r.cand.t, cand := ⟨false, 0, 0, 0, 0, 0, 0⟩ }
  | acceptNone (h : r.cand.valid = false) : RayActs s r .miAccept r
  | brNot (o : UBr) (h : brCond r o.d.toNat (reg r o.a) (reg r o.b) = false) : RayActs s r (.miBr o) r
  | loopEnd (o : ULoop) (h : o.a ≠ 0) (v : reg r o.a = 1) : RayActs s r (.miLoop o) (setReg r o.a.toNat 0)
  | setbEmpty (o : USetb) (m : o.m = 0) (t : r.stamp = true) :
      RayActs s r (.miSetb o) { r with org := List.replicate 3 0x7F800000, dir := List.replicate 3 0xFF800000 }
  | setbBox (o : USetb) (b : List Word) (m : o.m = 1) (t : r.stamp = true)
      (h : ∀ j < 6, r.field (boxField r.lay.image j) (reg r o.a).toNat = some (b.getD j 0)) (n : b.length = 6) (f : b.any nanW = false) :
      RayActs s r (.miSetb o)
        { r with
          org := (List.range 3).map (fun a => if fltW (b.getD a 0) (r.org.getD a 0) then b.getD a 0 else r.org.getD a 0)
          dir := (List.range 3).map (fun a => if fltW (r.dir.getD a 0) (b.getD (a + 3) 0) then b.getD (a + 3) 0 else r.dir.getD a 0) }
  | setbPrim (o : USetb) (bs : List Byte) (m : o.m = 2) (t : r.stamp = true)
      (h : Device.rayRead s.dev (rayWave s) (unitAt r.pbase (reg r o.a)) 16 (if o.k = 2 then 5 else 3) = .ok bs)
      (f : ∀ a < 3, (primAxis (primPoints o.k.toNat bs) (o.k == 0) a).1 = true
        ∨ (nanW (primAxis (primPoints o.k.toNat bs) (o.k == 0) a).2.1 = false ∧ nanW (primAxis (primPoints o.k.toNat bs) (o.k == 0) a).2.2 = false)) :
      RayActs s r (.miSetb o) (r.unite (primAxis (primPoints o.k.toNat bs) (o.k == 0)))

/-- What `stb` makes of the node (R353): the fields of the six bounds, or the origins and exponents of the three axes; with the bit ranges written. -/
def stamped (s : State) (r : Ray) (o : UStb) : StbAcc :=
  if o.m = 0 then (List.range 6).foldl (fun a j => stbField s.dev.freeCtr (reg r o.a).toNat j a) (some (r, [], 0))
  else (List.range 3).foldl (fun a j => stbAxis (reg r o.a).toNat j a) (some (r, [], 0))

/-- The micro-operations that end or leave a ray: TERM with its code (R349); what the program misuses (R355): the detail. -/
inductive RayEnds (r : Ray) : Instr → Nat → Nat → Prop where
  | term : RayEnds r .miTerm (if r.hit.valid then 2 else 1) 0
  | pop (o : UD) (h : r.stack = []) : RayEnds r (.miPop o) 8 2
  | xform (o : UDA) (h : r.inInst = true) : RayEnds r (.miXform o) 8 3
  | popx (h : r.inInst = false) : RayEnds r .miPopx 8 3
  | setb (o : USetb) (h : r.stamp = false) : RayEnds r (.miSetb o) 8 4
  | stb (o : UStb) (h : r.stamp = false) : RayEnds r (.miStb o) 8 4
  | fetch (o : UAK) (h : laySize r.lay.image o.k.toNat = 0) : RayEnds r (.miFetch o) 8 5
  | field (o : UDAF) (h : r.field o.f.toNat (reg r o.a).toNat = none) : RayEnds r (.miField o) 8 1

/-- A finished ray (R358): its code and detail; codes 4 to 6 keep the index. -/
def ended (r : Ray) (code detail : Nat) : Ray :=
  { r with st := .finished, res := code, detail := detail, rmpc := if 4 ≤ code ∧ code ≤ 6 then r.mpc else 0 }

/-- Does every unit of a ray's record translate (R356). -/
def RecordFits (d : Device) (u l : Nat) (r : Ray) (code detail : Nat) : Prop :=
  ∀ i < 32, ∃ t, Device.rayTr d (Device.wave d u) (r.slot l + BitVec.ofNat 64 (8 * i), ((r.recordBytes code detail).drop (8 * i)).take 8) = .ok t

/-- The module in which a ray's record is being written to its slot (R356): its 32 units are still to be written, in an order that is left open (R371). -/
def suspending (d : Device) (u l : Nat) (r : Ray) (code detail : Nat) : Device :=
  { Device.setWave d u
    { Device.wave d u with
      rays := Tbl.put (Device.wave d u).rays l
        { r with st := .suspending, res := code, detail := detail, todo := Device.anyOrder d (List.range 32) } } with
    freeCtr := d.freeCtr + 32 }

/-- A ray that has written unit i of its record: finished with the last (R356). -/
def wroteUnit (r : Ray) (rest : List Nat) : Ray := if rest = [] then { ended r r.res r.detail with todo := [] } else { r with todo := rest }

/-- The word that a running ray executes (R342): that of its snapshot; where software has changed the image since, by a free choice, that or the legal word that stands there now. -/
inductive MicroWord (d : Device) (w : Wave) (r : Ray) : Device → Nat → Prop where
  | same (bs : List Byte) (h : Device.rayRead d w (r.code.addr + BitVec.ofNat 64 (16 + 4 * r.mpc)) 4 1 = .ok bs)
      (e : ofLeBytes bs = codeWord r.code.image r.mpc) : MicroWord d w r d (codeWord r.code.image r.mpc)
  | unread (h : ∀ bs, Device.rayRead d w (r.code.addr + BitVec.ofNat 64 (16 + 4 * r.mpc)) 4 1 ≠ .ok bs) :
      MicroWord d w r d (codeWord r.code.image r.mpc)
  | illegal (bs : List Byte) (h : Device.rayRead d w (r.code.addr + BitVec.ofNat 64 (16 + 4 * r.mpc)) 4 1 = .ok bs)
      (e : microOk (ofLeBytes bs) (codeLen r.code.image) = false) : MicroWord d w r d (codeWord r.code.image r.mpc)
  | either (bs : List Byte) (h : Device.rayRead d w (r.code.addr + BitVec.ofNat 64 (16 + 4 * r.mpc)) 4 1 = .ok bs)
      (e : microOk (ofLeBytes bs) (codeLen r.code.image) = true) (n : ofLeBytes bs ≠ codeWord r.code.image r.mpc) :
      MicroWord d w r { d with freeCtr := d.freeCtr + 1 }
        (if (Config.freeByte d.freeCtr).getLsbD 0 = true then ofLeBytes bs else codeWord r.code.image r.mpc)

/-- SETB's union with a box that has a bound that is NaN (R352): that bound alone is a free value (DESIGN CHOICE 31). -/
def unitedNan (d : Device) (r : Ray) (b : List Word) : Ray :=
  { r with
    org := (List.range 3).map (fun a => if nanW (b.getD a 0) then Config.freeWord (d.freeCtr + a)
      else if fltW (b.getD a 0) (r.org.getD a 0) then b.getD a 0 else r.org.getD a 0)
    dir := (List.range 3).map (fun a => if nanW (b.getD (a + 3) 0) then Config.freeWord (d.freeCtr + 3 + a)
      else if fltW (r.dir.getD a 0) (b.getD (a + 3) 0) then b.getD (a + 3) 0 else r.dir.getD a 0) }

end Sys2Proof.Claim
end

