-- ==== Sys2Proof/Claims/Event.lean ====
section
/-! DEFINITION. What the statements say of the rows that have no encoding: the events of the scheduler, the Cassette, the engines, the power controller, the Peloton, the queues, the host and the management port. Each case gives the conditions under which the event occurs and the module that it leaves. -/

namespace Sys2Proof.Claim

open Sys2Proof.Machine

/-- The machine with another module, all else as before. -/
def now (s : State) (d : Device) : State := { s with dev := d }

/-- The module with a wave replaced. -/
def waveNow (s : State) (u : Nat) (w : Wave) : State := now s (Device.setWave s.dev u w)

/-- The module with a queue's state word replaced, in its descriptor too. -/
def queueNow (s : State) (q : Nat) (x : Queue) : State := now s (Device.queuePut s.dev q x)

/-- A lane as a mask. -/
def oneLane (l : Nat) : Mask := 1#64 <<< l

/-- The events of the active set, of successors and of traps (R75 to R77, R88, R93, R94, R212, R429, R480). -/
inductive WaveEvents (s : State) : Instr → State → Prop where
  | fill (core slot u : Nat) (rest : List Nat) (e : Device.inSlot s.dev core slot = none) (p : Device.readyPending s.dev core = u :: rest)
      (h : slot < 8) :
      WaveEvents s (.evActiveSlotFill core slot) (waveNow s u { Device.wave s.dev u with active := some slot, fresh := true })
  | swap (core slot u v : Nat) (rest : List Nat) (e : Device.inSlot s.dev core slot = some u)
      (c : (Device.wave s.dev u).core = core) (n : u ≠ v) (p : Device.readyPending s.dev core = v :: rest)
      (l : ∃ t ∈ (Device.wave s.dev u).stalls, t = .long ∨ (∃ b q, t = .barrier b q) ∨ ∃ f, t = .frame f)
      (r : Stall.ready ∉ (Device.wave s.dev u).stalls) :
      WaveEvents s (.evWaveSwap core slot)
        (now s (Device.setWave (Device.setWave s.dev u { Device.wave s.dev u with active := none, since := Device.now s.dev core })
          v { Device.wave s.dev v with active := some slot, fresh := true }))
  | counted (words : Nat) (h : Tbl.has s.base.waves s.ctx.wave = true) (k : (Device.wave s.base s.ctx.wave).handler = false)
      (n : words < (Device.wave s.base s.ctx.wave).wdog.toNat) :
      WaveEvents s (.evWatchdog words)
        (State.mapWave s (fun w => { w with wdog := (Device.wave s.base s.ctx.wave).wdog - BitVec.ofNat 32 words }))
  | expired (words : Nat) (h : Tbl.has s.base.waves s.ctx.wave = true) (k : (Device.wave s.base s.ctx.wave).handler = false)
      (z : (Device.wave s.base s.ctx.wave).wdog ≠ 0) (n : (Device.wave s.base s.ctx.wave).wdog.toNat ≤ words) :
      WaveEvents s (.evWatchdog words) (State.trap s 0x0C s.ctx.lanes 0)
  | entry (code : BitVec 8) (trlm trpa : BitVec 64) (num : BitVec 8) (h : Tbl.has s.base.waves s.ctx.wave = true) :
      WaveEvents s (.evTrapEntry code trlm trpa num)
        { s with dev := Device.trapEntry s.base s.ctx.wave code trlm s.ctx.lanes s.ctx.chainPc s.ctx.wb trpa num
                 ctx := { s.ctx with status := .trapped } }
  | store (wave idx id : Nat) (r : Replay) (g : GOp) (c : BitVec 8) (m : Mask) (a : DWord)
      (h : (Wave.unfinished (Device.wave s.dev wave))[idx]? = some (id, r)) (k : gopOfWord r.w0 = some g) (t : g.storeType = true)
      (n : r.faulted = false) (w : Device.mustWait s.dev wave id g r (pendBefore id (Device.wave s.dev wave).pend) = false)
      (f : Device.storeFault s.dev (Device.wave s.dev wave) g r = some (c, m, a)) (e : (Device.wave s.dev wave).ended = false)
      (i : ∃ x, Pend.word id x ∈ (Device.wave s.dev wave).pend) :
      WaveEvents s (.evStoreTranslationFault wave idx)
        (waveNow s wave
          { Device.wave s.dev wave with
            pend := (Device.wave s.dev wave).pend.map (fun p => match p with
              | .word j x => if j = id then .word id { r with faulted := true, fcode := c, faddr := a } else .word j x
              | .fence q b z k => .fence q b z k
              | .flush q y => .flush q y)
            ptraps := (Device.wave s.dev wave).ptraps
              ++ [⟨.fixed, c, 0, (Device.wave s.dev wave).handler, m, r.mask, r.pc, r.wb, a⟩] })
  | softScalar (wave n : Nat) (h : Tbl.has s.dev.waves wave = true) (k : n < 256) :
      WaveEvents s (.evSoftError wave (.scal n))
        (waveNow s wave (Wave.setSc (Device.wave s.dev wave) n ⟨(Wave.sc (Device.wave s.dev wave) n).v, true⟩))
  | softFlag (wave q : Nat) (h : Tbl.has s.dev.waves wave = true) :
      WaveEvents s (.evSoftError wave (.flag q))
        (waveNow s wave (Wave.setFlag (Device.wave s.dev wave) q (Wave.flagOf (Device.wave s.dev wave) q).v true))
  | softPred (wave k l : Nat) (h : Tbl.has s.dev.waves wave = true) (n : k ≠ 0) :
      WaveEvents s (.evSoftError wave (.pred k l))
        (waveNow s wave (Wave.setPred (Device.wave s.dev wave) k (oneLane l) (Wave.pred (Device.wave s.dev wave) k).v (oneLane l)))
  | softPos (wave p l : Nat) (r : VReg) (h : Tbl.has s.dev.waves wave = true) (k : Wave.reg? (Device.wave s.dev wave) (.pos p) = some r) :
      WaveEvents s (.evSoftError wave (.pos p l))
        (waveNow s wave (Wave.setReg (Device.wave s.dev wave) (.pos p)
          { r with pois := r.pois ||| (oneLane l &&& r.live), unif := r.unif && (r.live &&& oneLane l) == 0 }))
  | softVec (wave n l : Nat) (r : VReg) (h : Tbl.has s.dev.waves wave = true) (b : n < 16)
      (k : Wave.reg? (Device.wave s.dev wave) (.fixed n) = some r) :
      WaveEvents s (.evSoftError wave (.vec n l))
        (waveNow s wave (Wave.setReg (Device.wave s.dev wave) (.fixed n)
          { r with pois := r.pois ||| (oneLane l &&& r.live), unif := r.unif && (r.live &&& oneLane l) == 0 }))
  | softLane (wave l : Nat) (w : Wave) (h : Tbl.has s.dev.waves wave = true)
      (e : w = Wave.loseLane (Device.wave s.dev wave) l (Config.freeByte s.dev.freeCtr).toNat
        (pair64 (Config.freeWord s.dev.freeCtr) (Config.freeWord (s.dev.freeCtr + 1))).toNat) :
      WaveEvents s (.evSoftError wave (.laneState l))
        (now s { Device.setWave s.dev wave
          { w with ptraps := w.ptraps ++ [⟨.fixed, 0x0F, 0, w.handler, oneLane l, oneLane l, Wave.pcOf w l, Wave.wbOf w l, 0⟩] } with
          freeCtr := s.dev.freeCtr + 2 })
  | successor (g : Nat) (x : Workgroup) (e : DWord) (h : Tbl.get? s.dev.wgs g = some x) (c : x.succ = .entry e) (k : x.killed = false)
      (a : ∀ u ∈ x.waves, (Device.wave s.dev u).ended = true ∧ (Device.wave s.dev u).pend = []
        ∧ ∀ o ∈ (Device.wave s.dev u).outs, o.done = true ∨ o.cls = 3 ∨ o.cls = 6) :
      WaveEvents s (.evSuccessorRestart g)
        (now s (Device.setWg
          (x.waves.foldl (fun d u => Device.setWave d u
            (Wave.restart (Device.wave d u) e (Device.launch s.dev (Device.gang s.dev x.gang).launch).lrec.wdog
              (Device.now d (Device.wave d u).core) s.dev.uid)) s.dev)
          g { x with succ := .unset }))

/-- Does an item of a wave's view have a state. -/
def itemIs (w : Wave) (idx : Nat) (frame : Bool) (st : SlotSt) : Prop :=
  if frame then ∃ x, Tbl.get? w.frames idx = some x ∧ x.st = st else ∃ x, Tbl.get? w.win idx = some x ∧ x.st = st

/-- A wave with the state of an item replaced. -/
def itemNow (w : Wave) (idx : Nat) (frame : Bool) (st : SlotSt) : Wave :=
  if frame then
    match Tbl.get? w.frames idx with
    | some x => { w with frames := Tbl.put w.frames idx { x with st := st } }
    | none => w
  else
    match Tbl.get? w.win idx with
    | some x => { w with win := Tbl.put w.win idx { x with st := st } }
    | none => w

/-- A wave whose want of room is to be found anew (R104). -/
def anew (w : Wave) : Wave := { w with stalls := w.stalls.filter (fun x => x != .room) }

/-- A core's note of whether its Cassette spills ahead of time (R134): from fewer than 4,096 free units until they reach 8,192. -/
def aheadSet (d : Device) (core : Nat) : Device :=
  let b : Bool := Device.freeUnits d core < 4096 || ((Device.core d core).ahead && Device.freeUnits d core < 8192)
  if (Device.core d core).ahead = b then d else Device.setCore d core { Device.core d core with ahead := b }

/-- The module after a refill has drawn a choice for each lane (R141). -/
def chosen (s : State) : Device := { s.dev with freeCtr := s.dev.freeCtr + 64 }

/-- May a wave's item be spilled (R133, R134, R140): the wave's first candidate, for a wave that asks for room, and of which no spill is under way. -/
def SpillsNow (s : State) (u idx : Nat) (frame : Bool) (w : Wave) : Prop :=
  Tbl.get? s.dev.waves u = some w ∧ w.noSpill = false ∧ Wave.nextCand w = some (idx, frame) ∧ Wave.spillGoing w = false
    ∧ (w.stalls.contains .room = true ∨ Wave.refillWaits w = true)

/-- May a wave's item be spilled ahead of time (R134): it is the wave's turn, while no wave of the core asks for room. -/
def SpillsAhead (s : State) (u idx : Nat) (frame : Bool) (w : Wave) : Prop :=
  Tbl.get? s.dev.waves u = some w ∧ w.noSpill = false ∧ Wave.nextCand w = some (idx, frame) ∧ Wave.wantsRoom w = false
    ∧ (Device.core (aheadSet s.dev w.core) w.core).ahead = true ∧ Device.roomFirst (aheadSet s.dev w.core) w.core = false
    ∧ Device.aheadTurn (aheadSet s.dev w.core) w.core = some u

/-- The turn after a wave's, where the Cassette spills ahead of time (R134). -/
def turnOn (d : Device) (w : Wave) : Device := Device.setCore d w.core { Device.core d w.core with aheadAt := (w.rslot + 1) % 64 }

/-- Is an item of a wave the first of those in a state that a test admits, in the order of R136. -/
def FirstOf (w : Wave) (st : SlotSt) (test : Nat × Bool → Prop) (x : Nat × Bool) : Prop :=
  x ∈ Wave.itemsIn w st ∧ test x ∧ ∀ y ∈ Wave.itemsIn w st, test y → Wave.refillBefore w y x = false

/-- Is a spilled item to be read back (R125, R136, R140): it is visible, or an operation under way writes it, and no fault of its refill waits for `rte`. -/
def Due (w : Wave) (x : Nat × Bool) : Prop :=
  (Wave.itemVisible w x.1 x.2 = true ∨ (x.2 = false ∧ Wave.writing w (.pos x.1) = true)) ∧ x ∉ w.noRefill

/-- The events of the Cassette (R133 to R137, R140, R141): a spill makes its writes, the writes of a waiting flush of the item fall away, and the item spills; at its end the item is spilled, or resident where it has come into view; a refill reads what memory holds, or where that has changed what was spilled; at its end the registers hold it, where the charge fits. -/
inductive CassetteEvents (s : State) : Instr → State → Prop where
  | spill (u idx : Nat) (frame : Bool) (w : Wave) (d : Device) (h : SpillsNow s u idx frame w)
      (k : Device.cassWrites (aheadSet s.dev w.core) (Device.agentOf (aheadSet s.dev w.core) w) (Device.asidOf (aheadSet s.dev w.core) w) (Wave.spillWrites w idx frame) none
        = (d, none)) :
      CassetteEvents s (.evSpill u idx frame) (now s (Device.setWave d u (Wave.dropFlushed (itemNow w idx frame .spilling) idx frame)))
  | spillAhead (u idx : Nat) (frame : Bool) (w : Wave) (d : Device) (h : SpillsAhead s u idx frame w)
      (k : Device.cassWrites (turnOn (aheadSet s.dev w.core) w) (Device.agentOf (turnOn (aheadSet s.dev w.core) w) w) (Device.asidOf (turnOn (aheadSet s.dev w.core) w) w)
          (Wave.spillWrites w idx frame) none
        = (d, none)) :
      CassetteEvents s (.evSpill u idx frame) (now s (Device.setWave d u (Wave.dropFlushed (itemNow w idx frame .spilling) idx frame)))
  | spillFault (u idx : Nat) (frame : Bool) (w : Wave) (d : Device) (a : DWord) (b : BitVec 8) (h : SpillsNow s u idx frame w)
      (k : Device.cassWrites (aheadSet s.dev w.core) (Device.agentOf (aheadSet s.dev w.core) w) (Device.asidOf (aheadSet s.dev w.core) w) (Wave.spillWrites w idx frame) none
        = (d, some (a, b))) :
      CassetteEvents s (.evSpill u idx frame) (now s (Device.setWave d u (Wave.windowFault w a)))
  | spilled (u idx : Nat) (frame : Bool) (h : Tbl.has s.dev.waves u = true) (k : itemIs (Device.wave s.dev u) idx frame .spilling)
      (v : Wave.itemVisible (Device.wave s.dev u) idx frame = false) :
      CassetteEvents s (.evSpillComplete u idx frame)
        (State.mapDev (waveNow s u (anew (itemNow (Device.wave s.dev u) idx frame .spilled))) (fun d => aheadSet d (Device.wave s.dev u).core))
  | back (u idx : Nat) (frame : Bool) (h : Tbl.has s.dev.waves u = true) (k : itemIs (Device.wave s.dev u) idx frame .spilling)
      (v : Wave.itemVisible (Device.wave s.dev u) idx frame = true) :
      CassetteEvents s (.evSpillComplete u idx frame)
        (State.mapDev (waveNow s u (anew (itemNow (Device.wave s.dev u) idx frame .resident))) (fun d => aheadSet d (Device.wave s.dev u).core))
  | refill (u p : Nat) (w : Wave) (x : Slot) (r : VReg) (h : Tbl.get? s.dev.waves u = some w) (k : FirstOf w .spilled (Due w) (p, false))
      (i : Tbl.get? w.win p = some x) (b : Device.refillPos s.dev w p = .ok r) :
      CassetteEvents s (.evRefill u p false)
        (now s (Device.setWave (chosen s) u { w with win := Tbl.put w.win p ⟨.refilling, r, x.cut⟩ }))
  | refillFrame (u f : Nat) (w : Wave) (x : Frame) (h : Tbl.get? s.dev.waves u = some w) (k : FirstOf w .spilled (Due w) (f, true))
      (b : Device.refillFrame s.dev w f = .ok x) :
      CassetteEvents s (.evRefill u f true) (now s (Device.setWave (chosen s) u { w with frames := Tbl.put w.frames f x }))
  | refillFault (u p : Nat) (w : Wave) (a : DWord) (h : Tbl.get? s.dev.waves u = some w) (k : FirstOf w .spilled (Due w) (p, false))
      (b : Device.refillPos s.dev w p = .error a) :
      CassetteEvents s (.evRefill u p false)
        (waveNow s u { w with
          noRefill := w.noRefill ++ [(p, false)], ptraps := w.ptraps ++ [⟨.refill false p, 0x0A, 0, false, 0, 0, 0, 0, a⟩] })
  | refilled (u p : Nat) (w : Wave) (x : Slot) (r : VReg) (h : Tbl.get? s.dev.waves u = some w)
      (k : FirstOf w .refilling (fun y => Wave.refillOver w y.1 y.2 = false) (p, false)) (i : Tbl.get? w.win p = some x)
      (l : r.live = x.reg.live &&& ~~~w.exited &&& ~~~x.cut) (n : r.live ≠ 0) (o : r.pois = x.reg.pois &&& r.live) (v : r.vals = x.reg.vals)
      (q : r.unif = true ↔ ∀ l ∈ lanesOf r.live, ∀ m ∈ lanesOf r.live,
        r.vals.getD l 0 = r.vals.getD m 0 ∧ x.reg.pois.getLsbD l = x.reg.pois.getLsbD m) :
      CassetteEvents s (.evRefillComplete u p false)
        (State.mapDev (waveNow s u { w with win := Tbl.put w.win p ⟨.resident, r, 0⟩ }) (fun d => aheadSet d w.core))
  | refilledFrame (u f : Nat) (w : Wave) (x y : Frame) (h : Tbl.get? s.dev.waves u = some w)
      (k : FirstOf w .refilling (fun y => Wave.refillOver w y.1 y.2 = false) (f, true)) (i : Tbl.get? w.frames f = some x)
      (l : y.mask = x.mask &&& ~~~w.exited) (n : y.mask ≠ 0) (o : y.st = .resident) (v : y.entries = x.entries)
      (q : y.unif = true ↔ ∀ l ∈ lanesOf y.mask, ∀ m ∈ lanesOf y.mask, y.entries.getD l 0 = y.entries.getD m 0) :
      CassetteEvents s (.evRefillComplete u f true)
        (State.mapDev (waveNow s u { w with frames := Tbl.put w.frames f y }) (fun d => aheadSet d w.core))
  | refillEmpty (u p : Nat) (w : Wave) (x : Slot) (h : Tbl.get? s.dev.waves u = some w)
      (k : FirstOf w .refilling (fun y => Wave.refillOver w y.1 y.2 = false) (p, false)) (i : Tbl.get? w.win p = some x)
      (n : x.reg.live &&& ~~~w.exited &&& ~~~x.cut = 0) :
      CassetteEvents s (.evRefillComplete u p false)
        (State.mapDev (waveNow s u { w with win := Tbl.del w.win p }) (fun d => aheadSet d w.core))

/-- The machine with the power block of a die changed. -/
def tokenPower (s : State) (die : Nat) (f : Power → Power) : State :=
  now s (Device.setPower s.dev die (f (Device.powerOf s.dev die)))

/-- The barrier arrival of a copy at its end in every destination (R268). -/
def landed (s : State) (o : EngOp) : Device := Device.copyArrive (Device.linesDone s.dev o.id o.lines) o

/-- A pair and its cluster as one more row of the pair has been injected (R289, R302, R306). -/
def injected (d : Device) (pair row : Nat) : Device :=
  let d := Device.setPair d pair { Device.pair d pair with row := row + 1, quiet := 0 }
  Device.setCluster d (pair / 4) { Device.cluster d (pair / 4) with rampRows := (Device.cluster d (pair / 4)).rampRows + 1 }

/-- The module once a pair's operation has retired (R276, R296): the next of its stream is its oldest, and the flags that the operation raised are set. -/
def retired (d : Device) (pair : Nat) (o : EngOp) : Device :=
  Device.endOp (Device.setPair d pair
    { Device.pair d pair with
      stream := (Device.pair d pair).stream.tail, row := 0, sat := (Device.pair d pair).sat || o.aux.contains 0,
      perr := (Device.pair d pair).perr || o.aux.contains 1, flt := (Device.pair d pair).flt || o.aux.contains 2 }) o

/-- The events of the engines and of the exact-accumulation slots (R195, R221, R239, R268, R271, R275, R289, R322 to R324, R357). -/
inductive EngineEvents (s : State) : Instr → State → Prop where
  | complete (u cls : Nat) (o : OutOp) (h : Tbl.has s.dev.waves u = true) (c : cls ≤ 1)
      (f : (Device.wave s.dev u).outs.find? (fun o => o.cls == cls && !o.done) = some o)
      (n : (Device.wave s.dev u).pend.find? (fun p => p.id == o.id) = none) :
      EngineEvents s (.evOperationComplete u cls)
        (now s (Device.setWave (Device.l1WriteBack s.dev ((Device.wave s.dev u).core / 8) (linesOfFoot o.foot)) u
          (Wave.finish (Device.wave s.dev u) o.id)))
  | completeHash (u : Nat) (o : EngOp) (h : Tbl.has s.dev.waves u = true) (f : Device.hashNext s.dev u = some o) (k : o.kind = .hxq)
      (t : Device.hashTurn s.dev o = true) (m : Device.mayAct s.dev o = true) (w : Device.hashWaits s.dev o = false) :
      EngineEvents s (.evOperationComplete u 4) (now s (Device.endOp (Device.hashQuery s.dev o) o))
  | completeRays (u : Nat) (o : EngOp) (h : Tbl.has s.dev.waves u = true)
      (z : ∀ x ∈ s.dev.ops, x.wave = u → x.kind.engine = .trav → x.phase ≠ 0)
      (f : (s.dev.ops.filter (fun o => o.wave == u && o.kind.engine == .trav)).find? (fun o => Device.raysDone s.dev o) = some o) :
      EngineEvents s (.evOperationComplete u 5) (now s (Device.endOp s.dev o))
  | dispatch (core idx : Nat) (o : EngOp) (h : Device.canDispatch s.dev core idx = some o) :
      EngineEvents s (.evEngineDispatch core idx) (now s (Device.dispatch s.dev core idx o))
  | fire (op i : Nat) (o : EngOp)
      (f : (Device.outstanding s.dev).find? (fun o => o.id == op && !(o.ins.isEmpty && o.outs.isEmpty)) = some o)
      (g : (Device.core s.dev o.core).queue.findIdx? (fun x => x.id == op) = some i) (h : Device.canDispatch s.dev o.core i = some o) :
      EngineEvents s (.evEngineOpFire op) (now s (Device.dispatch s.dev o.core i o))
  | arrive (op : Nat) (o : EngOp) (h : Device.op? s.dev op = some o) (c : o.cls = 2) (t : o.tiles ≤ o.phase) (n : o.kind ≠ .tdesc)
      (m : Device.mayAct s.dev o = true) (v : ∀ g ∈ o.dstWgs, ∀ sv ∈ s.dev.saved, ∀ e ∈ sv.wgs, e.1 ≠ g) :
      EngineEvents s (.evCopyArrival op) (now s (Device.endOp (landed s o) o))
  | desc (op : Nat) (o : EngOp) (bs : List Byte) (h : Device.op? s.dev op = some o) (c : o.cls = 2) (k : o.kind = .tdesc)
      (t : o.tiles ≤ o.phase) (z : o.dstWgs = []) (m : Device.mayAct s.dev o = true) (g : Tbl.has s.dev.wgs o.wg = true)
      (r : Device.vread s.dev (Device.engAgent s.dev o) o.asid .r (pair64 (o.scal.getD 0 0) (o.scal.getD 1 0)) 256 = .ok bs) :
      EngineEvents s (.evCopyArrival op)
        (now s (Device.endOp (Device.setWg s.dev o.wg
          { Device.wg s.dev o.wg with descs := putAt (Device.wg s.dev o.wg).descs o.reg ⟨bs, false⟩ ⟨List.replicate 256 0, false⟩ }) o))
  | descFault (op : Nat) (o : EngOp) (b : BitVec 8) (h : Device.op? s.dev op = some o) (c : o.cls = 2) (k : o.kind = .tdesc)
      (t : o.tiles ≤ o.phase) (z : o.dstWgs = []) (m : Device.mayAct s.dev o = true) (g : Tbl.has s.dev.wgs o.wg = true) (w : Tbl.has s.dev.waves o.wave = true)
      (f : (Device.wave s.dev o.wave).firstPoison = none)
      (r : Device.vread s.dev (Device.engAgent s.dev o) o.asid .r (pair64 (o.scal.getD 0 0) (o.scal.getD 1 0)) 256 = .error b) :
      EngineEvents s (.evCopyArrival op)
        (now s (Device.endOp (Device.setWave (Device.setWg s.dev o.wg
          { Device.wg s.dev o.wg with
            descs := putAt (Device.wg s.dev o.wg).descs o.reg ⟨List.replicate 256 0, true⟩ ⟨List.replicate 256 0, false⟩ })
          o.wave { Device.wave s.dev o.wave with firstPoison := some (pair64 (o.scal.getD 0 0) (o.scal.getD 1 0), b) }) o))
  | start (pair : Nat) (o : EngOp) (h : Device.pairHead s.dev pair = some o) (z : o.phase = 0)
      (g : (Device.gang s.dev (Device.wg s.dev o.wg).gang).st ≠ .saving) (m : o.void = true ∨ Device.mayAct s.dev o = true) :
      EngineEvents s (.evPairOpStart pair) (now s (Device.setOp s.dev { o with phase := 1 }))
  | row (pair : Nat) (o o' : EngOp) (d : Device) (h : Device.pairHead s.dev pair = some o) (k : o.kind = .mmul) (v : o.void = false)
      (z : 1 ≤ o.phase) (b : o.phase < 64) (w : Device.rowWaits s.dev o (o.phase - 1) = false)
      (e : Device.mmulRow s.dev o (o.phase - 1) = (d, o')) (i : o'.phase = o.phase) (j : o'.kind = .mmul) :
      EngineEvents s (.evRowInjection pair) (now s (Device.setOp (injected d pair (o.phase - 1)) { o' with phase := o.phase + 1 }))
  | lastRow (pair : Nat) (o o' : EngOp) (d : Device) (h : Device.pairHead s.dev pair = some o) (k : o.kind = .mmul) (v : o.void = false)
      (b : o.phase = 64) (w : Device.rowWaits s.dev o 63 = false) (e : Device.mmulRow s.dev o 63 = (d, o')) (i : o'.phase = 64)
      (j : o'.kind = .mmul) :
      EngineEvents s (.evRowInjection pair)
        (now s (Device.setOp (Device.dropRings (injected d pair 63) { o' with phase := 65, outs := [] }) { o' with phase := 65, ins := [] }))
  | retire (pair : Nat) (o o' : EngOp) (d : Device) (h : Device.pairHead s.dev pair = some o) (z : o.phase = o.rowsOf + 1)
      (v : o.void = false) (w : o.kind = .mload → Device.loadWaits s.dev o = false) (u : Device.destsOut s.dev o = false)
      (e : Device.pairEffect s.dev o = (d, o')) (l : o'.lines = []) :
      EngineEvents s (.evPairOpRetire pair) (now s (retired d pair o'))
  | retireVoid (pair : Nat) (o o' : EngOp) (d : Device) (h : Device.pairHead s.dev pair = some o) (z : o.phase ≠ 0) (v : o.void = true)
      (e : Device.matFault s.dev o (some (0, 0x07)) = (d, o')) (l : o'.lines = []) :
      EngineEvents s (.evPairOpRetire pair) (now s (retired d pair o'))
  | slotOpen (asid pa launch : Nat) (n : Device.slot? s.dev asid pa = none)
      (r : (s.dev.xslots.filter (fun y => homeDie y.pa == homeDie pa)).length < 16384) :
      EngineEvents s (.evSlotOpen asid pa launch)
        (now s { s.dev with xslots := s.dev.xslots ++ [⟨asid, pa, launch, 0, 0, XSlot.empty⟩] })
  | slotAdd (asid pa : Nat) (x : Word) (launch : Nat) (y : XOpen) (h : Device.slot? s.dev asid pa = some y) :
      EngineEvents s (.evSlotAddition asid pa x launch)
        (now s { s.dev with xslots := s.dev.xslots.map (fun y =>
          if y.asid = asid ∧ y.pa = pa then { y with slot := XSlot.add y.slot (Fmt.value f32 x.toNat) } else y) })
  | slotClose (asid pa : Nat) (y : XOpen) (h : Device.slot? s.dev asid pa = some y) :
      EngineEvents s (.evSlotClose asid pa)
        (now s (Device.writeBytes { s.dev with xslots := s.dev.xslots.filter (fun z => !(z.asid == asid && z.pa == pa)) }
          { dieAgent (homeDie y.pa) with lnch := (Device.launch s.dev y.launch).lnch } asid false ⟨pa, y.attr, 1, y.key⟩ (leBytes 4 (XSlot.close y.slot))))
  | config (op : Nat) (o : EngOp) (d : Device) (v : VOut) (h : Device.op? s.dev op = some o) (k : o.kind = .hxcfg)
      (t : Device.hashTurn s.dev o = true) (m : Device.mayAct s.dev o = true) (g : Device.versionStep s.dev o = (d, v)) :
      EngineEvents s (.evVersionStep op) (now s (Device.endOp (Device.versionDone d o v) o))
  | version (op : Nat) (o : EngOp) (d : Device) (v : VOut) (h : Device.op? s.dev op = some o) (k : o.kind = .vpub)
      (t : Device.hashTurn s.dev o = true) (m : Device.mayAct s.dev o = true) (g : Device.versionStep s.dev o = (d, v)) :
      EngineEvents s (.evVersionStep op) (now s (Device.endOp (Device.versionDone (Device.fenceAct d (o.core / 8) true true 4) o v) o))
  | bind (op : Nat) (o : EngOp) (b : VBind) (d : Device) (v : VOut) (h : Device.op? s.dev op = some o) (k : o.kind = .vbind)
      (t : Device.hashTurn s.dev o = true) (m : Device.mayAct s.dev o = true) (e : (Device.wave s.dev o.wave).ended = false)
      (f : (Device.wave s.dev o.wave).born ≤ o.id) (x : (Device.wave s.dev o.wave).vbind = some b)
      (w : Device.drained s.dev o.wave o.id = true)
      (g : Device.versionStep (Device.releaseStep s.dev ⟨b.header, b.ver, o.asid, o.core, o.wave, o.id, (Device.launch s.dev o.launch).lnch⟩) o = (d, v)) :
      EngineEvents s (.evVersionStep op) (now s (Device.endOp (Device.versionDone (Device.fenceAct d (o.core / 8) true true 4) o v) o))
  | release (idx : Nat) (r : Release) (h : s.dev.pins[idx]? = some r) (t : Device.drained s.dev r.wave r.before = true) :
      EngineEvents s (.evBindingRelease idx) (now s (Device.releaseStep { s.dev with pins := s.dev.pins.eraseIdx idx } r))
  | budget (u lane : Nat) (r : Ray) (h : Tbl.get? (Device.wave s.dev u).rays lane = some r) (n : r.st = .running)
      (l : r.lim = true) (z : r.budget = 0)
      (w : RecordFits s.dev u lane r 5 0) :
      EngineEvents s (.evBudgetExhausted u lane) (now s (suspending s.dev u lane r 5 0))

/-- An island's status word with a new voltage and frequency (R307). -/
def islandWord (old : DWord) (volt freq : Nat) : DWord :=
  BitVec.ofNat 64 (volt % 1024 + freq % 4096 * 1024 + old.toNat / 2 ^ 22 * 2 ^ 22)

/-- The frequency of an island's clock becomes f, and every island that runs on it reports that (R299, R307). -/
def clockAt (d : Device) (island f : Nat) : Device :=
  (onClock island).foldl (fun d i => Device.setIsland d i (fun x => islandWord x (x.extractLsb' 0 10).toNat f)) d

/-- A frequency lowered to the ceilings of the tables of the islands on a clock, where they are set (R312): it is under each, and it is the old one or one of them. -/
def UnderCeilings (plans : List Plan) (i old f : Nat) : Prop :=
  f ≤ old ∧ (∀ j ∈ onClock i, (plans.getD j Plan.reset).ceil ≠ 0 → f ≤ max 400 (plans.getD j Plan.reset).ceil)
    ∧ (f = old ∨ ∃ j ∈ onClock i, (plans.getD j Plan.reset).ceil ≠ 0 ∧ f = max 400 (plans.getD j Plan.reset).ceil)

/-- The frequency of an island's clock. -/
def clockFreq (s : State) (island : Nat) : Nat := islFreq ((Device.powerOf s.dev (island / 44)).islstat.getD (clockIsland island % 44) 0)

/-- The events of the power controller, the token ring and the clocks (R113, R300 to R315, R454). -/
inductive PowerEvents (s : State) : Instr → State → Prop where
  | hop (die idx c : Nat) (h : (Device.powerOf s.dev die).idle[idx]? = some c)
      (n : ¬((c + 1) % 8 = 0 ∧ 0 < (Device.powerOf s.dev die).owed)) (t : Device.tokenTaker s.dev (8 * die + (c + 1) % 8) = none) :
      PowerEvents s (.evTokenHop die idx) (tokenPower s die (fun p => { p with idle := p.idle.set idx ((c + 1) % 8) }))
  | withdrawn (die idx c : Nat) (h : (Device.powerOf s.dev die).idle[idx]? = some c) (z : (c + 1) % 8 = 0)
      (n : 0 < (Device.powerOf s.dev die).owed) :
      PowerEvents s (.evTokenHop die idx) (tokenPower s die (fun p => { p with idle := p.idle.eraseIdx idx, owed := p.owed - 1 }))
  | taken (die idx c pair : Nat) (h : (Device.powerOf s.dev die).idle[idx]? = some c)
      (n : ¬((c + 1) % 8 = 0 ∧ 0 < (Device.powerOf s.dev die).owed)) (t : Device.tokenTaker s.dev (8 * die + (c + 1) % 8) = some pair) :
      PowerEvents s (.evTokenHop die idx)
        (State.mapDev (tokenPower s die (fun p => { p with idle := p.idle.eraseIdx idx })) (fun d => Device.openBurst d pair))
  | quiet (pair : Nat) (t : (Device.pair s.dev pair).token = true) (a : (Device.pair s.dev pair).accept = true)
      (h : 33 ≤ (Device.pair s.dev pair).quiet) (g : 33 ≤ (Device.pair s.dev pair).age) :
      PowerEvents s (.evBurstQuietClose pair) (now s (Device.setPair s.dev pair { Device.pair s.dev pair with accept := false }))
  | limit (pair : Nat) (t : (Device.pair s.dev pair).token = true) (a : (Device.pair s.dev pair).accept = true)
      (h : 8192 ≤ (Device.pair s.dev pair).age) :
      PowerEvents s (.evBurstTimeLimit pair) (now s (Device.setPair s.dev pair { Device.pair s.dev pair with accept := false }))
  | release (pair : Nat) (t : (Device.pair s.dev pair).token = true) (a : (Device.pair s.dev pair).accept = false)
      (h : Device.injecting s.dev pair = false)
      (o : (Device.powerOf s.dev (pair / 32)).owed ≤ (Device.powerOf s.dev (pair / 32)).idle.length) :
      PowerEvents s (.evTokenRelease pair)
        (now s (Device.setPower (Device.setPair s.dev pair { Device.pair s.dev pair with token := false }) (pair / 32)
          { Device.powerOf s.dev (pair / 32) with idle := (Device.powerOf s.dev (pair / 32)).idle ++ [pair / 4 % 8] }))
  | ramp (cl : Nat) (h : 64 ≤ (Device.cluster s.dev cl).rampRows) :
      PowerEvents s (.evRampStep cl)
        (now s (Device.setCluster s.dev cl
          { Device.cluster s.dev cl with
            rampRows := (Device.cluster s.dev cl).rampRows - 64, ramp := max 1 ((Device.cluster s.dev cl).ramp - 1) }))
  | warning (die cl : Nat) (b : cl < 8) (h : 115 * 8 ≤ (Device.powerOf s.dev die).temps.getD cl 0) :
      PowerEvents s (.evThermalTripWarning die cl)
        (State.mapDev (tokenPower s die (fun p => { p with tripw := true }))
          (fun d => Device.logError d 9 die 3 cl (wrap64 ((Device.powerOf s.dev die).temps.getD cl 0)) 0 0))
  | shrunk (island volt freq : Nat) (m : BitVec 10) (x : DWord) (p q : Power) (t : Plan) (h : p = Device.powerOf s.dev (island / 44))
      (i : x = p.islstat.getD (island % 44) 0) (j : t = p.plans.getD (island % 44) Plan.reset) (n : m.toNat < (x.extractLsb' 22 10).toNat)
      (a : volt = (x.extractLsb' 0 10).toNat + ((x.extractLsb' 22 10).toNat - m.toNat)) (b : volt ≤ 780)
      (k : q = { p with
        plans := putAt p.plans (island % 44)
          { t with rev := t.rev + 1, replans := t.replans + 1, lift := t.lift + ((x.extractLsb' 22 10).toNat - m.toNat), kept := none } Plan.reset
        islstat := putAt p.islstat (island % 44)
          (islandWord (regOf [(0, 22, x.toNat), (22, 10, m.toNat), (32, 32, x.toNat / 2 ^ 32)]) volt (x.extractLsb' 10 12).toNat) 0 })
      (c : UnderCeilings q.plans (island % 44) (islFreq (q.islstat.getD (clockIsland island % 44) 0)) freq) :
      PowerEvents s (.evMarginMeasurement island m) (now s (clockAt (Device.setPower s.dev (island / 44) q) island freq))
  | lowered (island volt freq : Nat) (m : BitVec 10) (x : DWord) (p q : Power) (t : Plan) (h : p = Device.powerOf s.dev (island / 44))
      (i : x = p.islstat.getD (island % 44) 0) (j : t = p.plans.getD (island % 44) Plan.reset) (n : m.toNat < (x.extractLsb' 22 10).toNat)
      (a : volt = (x.extractLsb' 0 10).toNat + ((x.extractLsb' 22 10).toNat - m.toNat)) (b : 780 < volt)
      (k : q = { p with
        plans := putAt p.plans (island % 44)
          { t with rev := t.rev + 1, replans := t.replans + 1, lift := t.lift + ((x.extractLsb' 22 10).toNat - m.toNat), kept := none,
                   ceil := max 400 ((x.extractLsb' 10 12).toNat - 1) } Plan.reset
        islstat := putAt p.islstat (island % 44)
          (islandWord (regOf [(0, 22, x.toNat), (22, 10, m.toNat), (32, 32, x.toNat / 2 ^ 32)]) 780 (x.extractLsb' 10 12).toNat) 0 })
      (c : UnderCeilings q.plans (island % 44) (islFreq (q.islstat.getD (clockIsland island % 44) 0)) freq) :
      PowerEvents s (.evMarginMeasurement island m) (now s (clockAt (Device.setPower s.dev (island / 44) q) island freq))
  | grown (island : Nat) (m : BitVec 10) (x : DWord) (p : Power) (t : Plan) (h : p = Device.powerOf s.dev (island / 44))
      (i : x = p.islstat.getD (island % 44) 0) (j : t = p.plans.getD (island % 44) Plan.reset)
      (n : (x.extractLsb' 22 10).toNat < m.toNat) (l : 0 < t.lift) :
      PowerEvents s (.evMarginMeasurement island m)
        (now s (Device.setPower s.dev (island / 44)
          { p with
            plans := putAt p.plans (island % 44)
              { t with replans := t.replans + 1, kept := some (t.kept.getD t.lift - (m.toNat - (x.extractLsb' 22 10).toNat)) } Plan.reset
            islstat := putAt p.islstat (island % 44) (regOf [(0, 22, x.toNat), (22, 10, m.toNat), (32, 32, x.toNat / 2 ^ 32)]) 0 }))
  | replay (island : Nat) :
      PowerEvents s (.evTimingReplay island)
        (now s (Device.setIsland s.dev island (fun x => regOf [(0, 32, x.toNat), (32, 32, x.toNat / 2 ^ 32 + 1)])))
  | rateUp (island step : Nat) :
      PowerEvents s (.evReplayRateStep island true step)
        (now s (Device.setIsland s.dev island (fun x =>
          islandWord x (max 480 (min 780 ((x.extractLsb' 0 10).toNat + step))) (x.extractLsb' 10 12).toNat)))
  | rateDown (island step : Nat) : 
      PowerEvents s (.evReplayRateStep island false step) (now s (clockAt s.dev island (max 400 (min 2100 (clockFreq s island - step)))))
  | throttle (island step : Nat) (h : 400 < clockFreq s island) :
      PowerEvents s (.evReplayThrottle island step) (now s (clockAt s.dev island (max 400 (min 2100 (clockFreq s island - step)))))
  | fenced (island step : Nat) (h : clockFreq s island ≤ 400) :
      PowerEvents s (.evReplayThrottle island step) (now s (Device.fenceIsland s.dev island))
  | pstat (die : Nat) : PowerEvents s (.evPstatRead die) (tokenPower s die (fun p => { p with rej := false }))
  | cycle (core : Nat) : PowerEvents s (.evCoreCycle core) (now s (Device.coreCycle s.dev core))

/-- What a controller period sets while the clocks run (R303, R306 to R310): the pool within the telemetry, 16 and POOLMAX, empty where bring-up is not over; tokens placed at cluster 0 or owed; the sensors' words; the energy within the power cap. Other dies, and all but the power of this one, stay. -/
structure PeriodSets (s t : State) (die : Nat) (inp : Telemetry) : Prop where
  temps : ∀ c < 8, (Device.powerOf t.dev die).temps.getD c 0 = inp.temp.getD c 0
  pool  : (Device.powerOf t.dev die).pool
    = if s.dev.sys.bootst ≠ 6 then 0 else min (min inp.pool 16) ((Device.powerOf s.dev die).poolmax.toNat % 32)
  placed : (Device.powerOf t.dev die).idle
    = (Device.powerOf s.dev die).idle ++ List.replicate ((Device.powerOf t.dev die).pool - (Device.powerOf s.dev die).pool) 0
  owed  : (Device.powerOf t.dev die).owed
    = (Device.powerOf s.dev die).owed + ((Device.powerOf s.dev die).pool - (Device.powerOf t.dev die).pool)
  thr   : (Device.powerOf t.dev die).thr = true ↔ ∃ c < 8, 95 * 8 ≤ inp.temp.getD c 0
  ilim  : (Device.powerOf t.dev die).ilim = inp.ilim
  energy : (Device.powerOf t.dev die).energy = (Device.powerOf s.dev die).energy
    + BitVec.ofNat 64 (if (Device.powerOf s.dev die).pcap.toNat % 65536 = 0 then inp.power
        else min inp.power (10 * ((Device.powerOf s.dev die).pcap.toNat % 65536)))
  slow  : ∀ c < 8, 95 * 8 ≤ inp.temp.getD c 0 → ∀ i < 5, 400 ≤ islFreq ((Device.powerOf s.dev die).islstat.getD (5 * c) 0) →
    islFreq ((Device.powerOf t.dev die).islstat.getD (5 * c + i) 0)
      ≤ max 400 (islFreq ((Device.powerOf s.dev die).islstat.getD (5 * c) 0) - 1)
  ask   : (Device.powerOf t.dev die).pcap = (Device.powerOf s.dev die).pcap ∧ (Device.powerOf t.dev die).poolmax = (Device.powerOf s.dev die).poolmax
    ∧ (Device.powerOf t.dev die).cluctl = (Device.powerOf s.dev die).cluctl
  other : ∀ k ≠ die, Device.powerOf t.dev k = Device.powerOf s.dev k
  rest  : t = now s { s.dev with dies := t.dev.dies, clusters := t.dev.clusters }

/-- The device once every clock has stopped at 120 °C (R310, R454). -/
structure Stopped (s t : State) : Prop where
  work  : t.dev.waves = [] ∧ t.dev.wgs = [] ∧ t.dev.gangs = [] ∧ t.dev.launches = [] ∧ t.dev.ops = [] ∧ t.dev.saved = [] ∧ t.dev.xslots = []
  boot  : t.dev.sys = { s.dev.sys with bootst := 0x90, held := true }
  memory : t.dev.mem = s.dev.mem
  queues : ∀ e ∈ t.dev.queues, e.2.en = false
  cores : ∀ e ∈ t.dev.cores, e.2.queue = []

/-- A writer of a line has ended; after the last the line is present (R183). -/
def linePresent (d : Device) (cl id line : Nat) : Device :=
  Device.setCluster d cl { Device.cluster d cl with absent := lineRem id (Device.cluster d cl).absent line }

/-- What a zero-fill or a copy leaves in memory (R183, R184, R270): its bytes, but for a byte that another writer wrote while its line was absent, or that an outstanding copy wrote, which may keep that value; every other byte is as before. -/
structure Arrived (d : Device) (cl id a : Nat) (bs : List Byte) (t : Device) : Prop where
  clean : ∀ i < bs.length, (∀ w, Device.earlyWriter d cl (a + i) = some w → w = id) →
    (Device.earlyWriter d cl (a + i) = none → ∀ o ∈ d.ops, o.id ≠ id → (2 ^ 48 + cl * 2 ^ 23 + a + i) ∉ o.wrote) → Memory.read t.mem (2 ^ 48 + cl * 2 ^ 23 + a + i) = bs.getD i 0
  early : ∀ i < bs.length, Memory.read t.mem (2 ^ 48 + cl * 2 ^ 23 + a + i) = bs.getD i 0
    ∨ Memory.read t.mem (2 ^ 48 + cl * 2 ^ 23 + a + i) = Memory.read d.mem (2 ^ 48 + cl * 2 ^ 23 + a + i)
  other : ∀ x, (x < 2 ^ 48 + cl * 2 ^ 23 + a ∨ 2 ^ 48 + cl * 2 ^ 23 + a + bs.length ≤ x) → Memory.read t.mem x = Memory.read d.mem x

/-- The events of the cluster's memory: a line read again from its point of coherence (R231), a fill of a line (R181, R183, R191), a bank's change of mode (R176), an instruction line's arrival (R248). -/
inductive ClusterEvents (s : State) : Instr → State → Prop where
  | refresh (cl line : Nat) :
      ClusterEvents s (.evL1LineRefresh cl line)
        (now s (Device.setCluster s.dev cl
          { Device.cluster s.dev cl with
            l1 := (Device.cluster s.dev cl).l1.map (fun e =>
              if e.1 / 128 = line ∧ e.2.dirty = false then (e.1, { e.2 with b := Device.memByteT s.dev e.2.tag e.1 }) else e) }))
  | zeroLast (idx : Nat) (f : Fill) (h : s.dev.fills[idx]? = some f) (r : f.ring = false) (n : f.left ≤ 1) :
      ClusterEvents s (.evZeroFill idx)
        (now s { linePresent (Device.arriveWrite s.dev f.cl f.id (128 * f.line) (zeros 128)) f.cl f.id f.line with
          fills := s.dev.fills.eraseIdx idx })
  | zeroMore (idx : Nat) (f : Fill) (h : s.dev.fills[idx]? = some f) (r : f.ring = false) (n : 1 < f.left) :
      ClusterEvents s (.evZeroFill idx)
        (now s { linePresent (Device.arriveWrite s.dev f.cl f.id (128 * f.line) (zeros 128)) f.cl f.id f.line with
          fills := s.dev.fills.set idx { f with line := f.line + 1, left := f.left - 1 } })
  | zeroRing (idx : Nat) (f : Fill) (h : s.dev.fills[idx]? = some f) (r : f.ring = true) (n : f.left ≤ 1) :
      ClusterEvents s (.evZeroFill idx)
        (now s { s.dev with fills := s.dev.fills.eraseIdx idx })
  | zeroRingMore (idx : Nat) (f : Fill) (h : s.dev.fills[idx]? = some f) (r : f.ring = true) (n : 1 < f.left) :
      ClusterEvents s (.evZeroFill idx)
        (now s { s.dev with fills := s.dev.fills.set idx { f with line := f.line + 1, left := f.left - 1 } })
  | packet (core asid line : Nat) (bs : List Byte) (h : Device.lineWords s.dev core asid line = some bs) :
      ClusterEvents s (.evPacketArrival core asid line)
        (now s (Device.setCore s.dev core
          { Device.core s.dev core with icache := Tbl.put (Device.core s.dev core).icache (icKey asid line) bs }))

/-- What a bank's change of mode leaves (R176): every bank of the core's slice that was switching has its new mode and none still switches; the cluster holds no line in its L1; other clusters stay. -/
structure Switched (s t : State) (core : Nat) : Prop where
  modes : ∀ x ∈ (Device.cluster s.dev (core / 8)).switching, x.bank / 8 = core % 8 → x.bank < 64 →
    (∀ y ∈ (Device.cluster s.dev (core / 8)).switching, y.bank = x.bank → y.mode = x.mode) →
    (Device.cluster t.dev (core / 8)).banks.getD x.bank .cache = x.mode
  still : ∀ x ∈ (Device.cluster t.dev (core / 8)).switching, x.bank / 8 ≠ core % 8
  empty : (Device.cluster t.dev (core / 8)).l1 = []
  other : ∀ k ≠ core / 8, Device.cluster t.dev k = Device.cluster s.dev k

/-- A Peloton whose program is at a step, not its last (R405, R410), that waits for no absent line (R184), of a workgroup that is not killed (R423) and with no abort of its tag in staging (R421). -/
structure AtStep (s : State) (die : Nat) (p : PProg) (word : Nat) : Prop where
  runs : (Device.pel s.dev die).running = some p
  step : p.stepAt p.pc = word
  more : p.pc + 1 < p.len
  present : Device.pelParks s.dev die p = false
  lives : (Device.wg s.dev (Device.wave s.dev p.wave).wg).killed = false
  calm : p.tag ∉ (Device.pel s.dev die).aborts

/-- A program that goes on at a step: its hop is 0 there until the step takes a message (R414, R420). -/
def goesOn (s : State) (d : Device) (die : Nat) (p : PProg) (i : Nat) : State :=
  now s (Device.setPel d die { Device.pel d die with running := some { p with pc := i, hop := 0, cover := none, taken := none } })

/-- The message that a receiving step takes, which matches the step's tag and length, and the module once it is taken (R414, R415). -/
def Takes (s : State) (die : Nat) (f : PData) (p : PProg) (m : PMsg) (d : Device) : Prop :=
  ∃ rest, takeMsg (p.gbase + p.fromR) (Device.pel s.dev die).msgs = some (m, rest) ∧ m.tag = p.tag ∧ m.len = f.len.toNat
    ∧ d = Device.setPel s.dev die { Device.pel s.dev die with msgs := rest }

/-- A forwarding step of the message it has taken, at a hop (R414): it emits the reduction of the message with its source. -/
def Forwards (d : Device) (die : Nat) (f : PData) (p : PProg) (m : PMsg) (hop : Nat) (d' : Device) : Prop :=
  ∃ bs, Device.pelReadN d die p (p.srcAt f) f.len.toNat = .ok bs
    ∧ Device.emitTo d die (p.gbase + p.toR) ⟨Device.rankOf d die, p.tag, f.len.toNat, hop,
        pelReduce f.ty.toNat p.key hop (p.elem0 f) (16 * f.len.toNat / pelWidth f.ty.toNat) m.data bs⟩ = some d'

/-- The steps of a Peloton program and the messages between dies (R405 to R424), where the program goes on. -/
inductive PelotonEvents (s : State) (die : Nat) : Instr → State → Prop where
  | start (p : PProg) (rest : List PProg) (n : (Device.pel s.dev die).running = none) (h : (Device.pel s.dev die).queue = p :: rest)
      (m : ∀ o, Device.op? s.dev p.op = some o → Device.mayAct s.dev o = true) :
      PelotonEvents s die (.evProgramStart die)
        (now s (Device.pelStart (Device.setPel s.dev die { Device.pel s.dev die with queue := rest }) die p))
  | send (f : PData) (p : PProg) (bs : List Byte) (d : Device) (h : AtStep s die p (PData.word 1 f))
      (l : Device.sendHeld s.dev die (p.gbase + p.toR) (16 * f.len.toNat) = false)
      (r : Device.pelReadN s.dev die p (p.srcAt f) f.len.toNat = .ok bs)
      (e : Device.emitTo s.dev die (p.gbase + p.toR) ⟨Device.rankOf s.dev die, p.tag, f.len.toNat, 0, bs⟩ = some d) :
      PelotonEvents s die (.evSend die f) (goesOn s d die p (p.pc + 1))
  | recv (f : PData) (p q : PProg) (m : PMsg) (d d' : Device) (h : AtStep s die p (PData.word 2 f)) (t : Takes s die f p m d)
      (i : q = { p with cover := none })
      (w : Device.pelMap d d die q 0 (p.dstAt f) f.len.toNat 0 .none (fun i _ => (m.data.drop (16 * i)).take 16) = (d', none)) :
      PelotonEvents s die (.evRecv die f) (goesOn s d' die p (p.pc + 1))
  | rrs (f : PData) (p : PProg) (m : PMsg) (d d' : Device) (h : AtStep s die p (PData.word 3 f)) (n : p.taken = none)
      (t : Takes s die f p m d) (b : m.hop < 255) (l : Device.sendHeld d die (p.gbase + p.toR) (16 * f.len.toNat) = false)
      (e : Forwards d die f { p with hop := m.hop + 1, cover := none, taken := some m } m (m.hop + 1) d') :
      PelotonEvents s die (.evRrs die f) (goesOn s d' die p (p.pc + 1))
  | rrsHeld (f : PData) (p : PProg) (m : PMsg) (d : Device) (h : AtStep s die p (PData.word 3 f)) (n : p.taken = none)
      (t : Takes s die f p m d) (b : m.hop < 255) (l : Device.sendHeld d die (p.gbase + p.toR) (16 * f.len.toNat) = true) :
      PelotonEvents s die (.evRrs die f)
        (now s (Device.setPel d die
          { Device.pel d die with running := some { p with hop := m.hop + 1, cover := none, taken := some m } }))
  | rrsLater (f : PData) (p : PProg) (m : PMsg) (d' : Device) (h : AtStep s die p (PData.word 3 f)) (n : p.taken = some m)
      (b : p.hop ≤ 255) (l : Device.sendHeld s.dev die (p.gbase + p.toR) (16 * f.len.toNat) = false)
      (e : Forwards s.dev die f p m p.hop d') :
      PelotonEvents s die (.evRrs die f)
        (now s (Device.setPel d' die { Device.pel d' die with running := some { p with pc := p.pc + 1, hop := 0, taken := none } }))
  | rrw (f : PData) (p q : PProg) (m : PMsg) (d d' : Device) (h : AtStep s die p (PData.word 4 f)) (t : Takes s die f p m d)
      (b : m.hop < 255) (i : q = { p with cover := if f.ty = 5 then some (p.dstAt f, 16 * f.len.toNat) else none })
      (w : Device.pelMap d d die q (p.srcAt f) (p.dstAt f) f.len.toNat 0 .before (fun i y =>
        pelReduce f.ty.toNat p.key (m.hop + 1) (p.elem0 f + 16 / pelWidth f.ty.toNat * i) (16 / pelWidth f.ty.toNat)
          ((m.data.drop (16 * i)).take 16) y) = (d', none)) :
      PelotonEvents s die (.evRrw die f)
        (now s (Device.setPel d' die { Device.pel d' die with running := some { q with pc := p.pc + 1, hop := 0, taken := none } }))
  | copy (f : PData) (p q : PProg) (d : Device) (h : AtStep s die p (PData.word 5 f)) (i : q = { p with cover := none })
      (w : Device.pelMap s.dev s.dev die q (p.srcAt f) (p.dstAt f) f.len.toNat 0 .either (fun _ y => y) = (d, none)) :
      PelotonEvents s die (.evCopy die f) (goesOn s d die p (p.pc + 1))
  | wait (c : BitVec 2) (b : BitVec 4) (off : BitVec 20) (thr : BitVec 32) (p : PProg) (bs : List Byte)
      (h : AtStep s die p (6 * 2 ^ 58 + c.toNat * 2 ^ 56 + b.toNat * 2 ^ 52 + off.toNat * 2 ^ 32 + thr.toNat))
      (r : Device.pelRead s.dev die p (p.base b.toNat + BitVec.ofNat 64 (8 * off.toNat)) 8 = .ok bs)
      (k : mwaitHolds c (ofLeBytes bs) thr.toNat = true) :
      PelotonEvents s die (.evWait die c b off thr) (goesOn s s.dev die p (p.pc + 1))
  | loop (j : BitVec 2) (n : BitVec 32) (p : PProg) (h : AtStep s die p (7 * 2 ^ 58 + j.toNat * 2 ^ 56 + n.toNat)) (z : n ≠ 0) :
      PelotonEvents s die (.evPelotonLoop die j n)
        (goesOn s s.dev die { p with cs := putAt p.cs j.toNat n 0, ls := putAt p.ls j.toNat (some (p.pc + 1)) none } (p.pc + 1))
  | endl (j : BitVec 2) (p : PProg) (t : Nat) (h : AtStep s die p (8 * 2 ^ 58 + j.toNat * 2 ^ 56)) (k : p.ls.getD j.toNat none = some t)
      (b : t < p.len) :
      PelotonEvents s die (.evEndl die j)
        (goesOn s s.dev die { p with cs := putAt p.cs j.toNat (p.cs.getD j.toNat 0 - 1) 0 }
          (if p.cs.getD j.toNat 0 = 1 then p.pc + 1 else t))
  | peer (r : BitVec 2) (x : BitVec 1) (m j : BitVec 2) (imm : BitVec 32) (p : PProg) (v : Nat)
      (h : AtStep s die p (9 * 2 ^ 58 + r.toNat * 2 ^ 56 + x.toNat * 2 ^ 55 + m.toNat * 2 ^ 53 + j.toNat * 2 ^ 51 + imm.toNat))
      (k : p.peerValue x m j imm = some v) :
      PelotonEvents s die (.evPeer die r x m j imm)
        (goesOn s s.dev die (if r = 0 then { p with toR := v } else if r = 1 then { p with fromR := v } else { p with ch := v }) (p.pc + 1))
  | srk (key : BitVec 32) (p : PProg) (h : AtStep s die p (10 * 2 ^ 58 + key.toNat)) :
      PelotonEvents s die (.evSrk die key) (goesOn s s.dev die { p with key := key } (p.pc + 1))
  | done (b : BitVec 4) (off : BitVec 20) (inc : BitVec 32) (p : PProg) (d : Device)
      (h : AtStep s die p (11 * 2 ^ 58 + b.toNat * 2 ^ 52 + off.toNat * 2 ^ 32 + inc.toNat))
      (w : Device.dieAdd64 s.dev { dieAgent die with lnch := (Device.launchOf s.dev (Device.wave s.dev p.wave)).lnch } p.asid (p.base b.toNat + BitVec.ofNat 64 (8 * off.toNat)) inc.toNat = .ok d) :
      PelotonEvents s die (.evDone die b off inc) (goesOn s d die p (p.pc + 1))
  | stepx (b : BitVec 4) (off : BitVec 20) (p : PProg) (c : DWord) (n : Nat) (bs : List Byte)
      (h : AtStep s die p (12 * 2 ^ 58 + b.toNat * 2 ^ 52 + off.toNat * 2 ^ 32)) (k : p.cover = some (c, n))
      (i : (p.base b.toNat + BitVec.ofNat 64 (4 * off.toNat) - c).toNat + 4 ≤ n)
      (r : Device.pelRead s.dev die p (p.base b.toNat + BitVec.ofNat 64 (4 * off.toNat)) 4 = .ok bs) :
      PelotonEvents s die (.evStepx die b off)
        (goesOn s (if ofLeBytes bs = 0 then
            Device.setPel s.dev die { Device.pel s.dev die with step := (Device.pel s.dev die).step + 1 } else s.dev) die p (p.pc + 1))
  | message (m : PMsg) (d : die < 4) (o : m.src / 4 ≠ s.dev.sys.modnum)
      (r : (Device.pel s.dev die).staged + m.data.length ≤ 8 * 2 ^ 20 ∨ Device.awaits s.dev die m.src = true) :
      PelotonEvents s die (.evMessageArrival die m)
        (now s (Device.setPel s.dev die { Device.pel s.dev die with msgs := (Device.pel s.dev die).msgs ++ [m] }))
  | abortWaits (tag : BitVec 16) (n : ∀ p, (Device.pel s.dev die).running = some p → p.started = true → p.tag = tag → p.taken ≠ none) :
      PelotonEvents s die (.evAbortFlit die tag)
        (now s (Device.setPel s.dev die { Device.pel s.dev die with aborts := (Device.pel s.dev die).aborts ++ [tag] }))
  | abort (tag : BitVec 16) (p : PProg) (h : (Device.pel s.dev die).running = some p) (k : p.started = true) (t : p.tag = tag)
      (n : p.taken = none) :
      PelotonEvents s die (.evAbortFlit die tag) (now s (Device.pelFinish s.dev die p (collStatus false p.pc 0 5)))
  | stop (link : Nat) (h : (4 ≤ link ∧ link < 20 ∧ (link - 4) / 4 = die)
        ∨ (die < 4 ∧ link ∈ diesBeside die ∧ 7 * 2 ^ 20 < (Device.pel s.dev link).staged)) :
      PelotonEvents s die (.evLinkStop die link true)
        (now s (Device.setPel s.dev die { Device.pel s.dev die with stops := NSet.ins (Device.pel s.dev die).stops link }))
  | go (link : Nat) (h : (4 ≤ link ∧ link < 20 ∧ (link - 4) / 4 = die)
        ∨ (die < 4 ∧ link ∈ diesBeside die ∧ (Device.pel s.dev link).staged ≤ 6 * 2 ^ 20)) :
      PelotonEvents s die (.evLinkStop die link false)
        (now s (Device.setPel s.dev die { Device.pel s.dev die with stops := NSet.rem (Device.pel s.dev die).stops link }))
  | flush (v : BitVec 64) (g : v.getLsbD 63 = true) (z : v.extractLsb' 16 47 = 0) :
      PelotonEvents s die (.evPflush die v)
        (now s (Device.setPel s.dev die
          { Device.pel s.dev die with
            msgs := (Device.pel s.dev die).msgs.filter (fun m => m.tag != v.extractLsb' 0 16)
            aborts := (Device.pel s.dev die).aborts.filter (fun t => t != v.extractLsb' 0 16) }))
  | pstep (v : BitVec 64) (src : Nat) (q : (Device.pel s.dev die).queue = []) (n : (Device.pel s.dev die).running = none) :
      PelotonEvents s die (.evPstepWrite die v src) (now s (Device.setPel s.dev die { Device.pel s.dev die with step := v }))

/-- A doorbell's write index and the queue's state after it (R381, R382). -/
def rung (x : Queue) (wr : Word) : Queue :=
  { x with wr := wr, stat := if x.stat = 0 ∧ wr ≠ x.rd then 1 else if x.stat = 1 ∧ wr = x.rd ∧ x.head = .none then 0 else x.stat }

/-- The events of the queues, of placement and of the end of work (R379 to R404, R440). -/
inductive QueueEvents (s : State) : Instr → State → Prop where
  | doorbell (q src : Nat) (v : BitVec 64) (b : q < 64) (a : Device.admits s.dev q src = true)
      (f : (Device.queue s.dev q).ctl.testBit 0 = false) (e : (Device.queue s.dev q).en = true)
      (n : (v.setWidth 32 - (Device.queue s.dev q).rd).toNat ≤ 2 ^ (Device.queue s.dev q).rsz) :
      QueueEvents s (.evDoorbell q v src) (queueNow s q (rung (Device.queue s.dev q) (v.setWidth 32)))
  | tooFar (q src : Nat) (v : BitVec 64) (b : q < 64) (a : Device.admits s.dev q src = true)
      (f : (Device.queue s.dev q).ctl.testBit 0 = false) (e : (Device.queue s.dev q).en = true)
      (n : 2 ^ (Device.queue s.dev q).rsz < (v.setWidth 32 - (Device.queue s.dev q).rd).toNat) :
      QueueEvents s (.evDoorbell q v src) (queueNow s q { Device.queue s.dev q with stat := 3 })
  | badEntry (q : Nat) (h : Device.headEntry s.dev q = some (.ok .bad)) :
      QueueEvents s (.evLaunchEntry q) (queueNow s q { Device.queue s.dev q with stat := 3 })
  | unread (q : Nat) (c : BitVec 8) (h : Device.headEntry s.dev q = some (.error c)) :
      QueueEvents s (.evLaunchEntry q) (queueNow s q { Device.queue s.dev q with stat := 5 })
  | badRecord (q : Nat) (a : DWord) (bs : List Byte) (h : Device.headEntry s.dev q = some (.ok (.launch a)))
      (r : Device.recordRead s.dev (Device.queue s.dev q) a = .ok bs) (b : (LRec.of bs).bad (Device.queue s.dev q) = true) :
      QueueEvents s (.evLaunchEntry q)
        (now s (Device.headStep (Device.queuePut s.dev q { Device.queue s.dev q with stat := 4, head := .none }) q))
  | launch (q : Nat) (a : DWord) (bs : List Byte) (h : Device.headEntry s.dev q = some (.ok (.launch a)))
      (r : Device.recordRead s.dev (Device.queue s.dev q) a = .ok bs) (b : (LRec.of bs).bad (Device.queue s.dev q) = false) :
      QueueEvents s (.evLaunchEntry q) (now s (Device.headStep (Device.startLaunch s.dev q a false) q))
  | tapeEmpty (q : Nat) (e : (Device.queue s.dev q).en = true) (u : (Device.queue s.dev q).susp = false)
      (c : Queue.halted (Device.queue s.dev q) = false) (h : (Device.queue s.dev q).head = .tape none) (z : (Device.queue s.dev q).ttop = 0) :
      QueueEvents s (.evTapeRun q) (queueNow s q (Queue.finished (Device.queue s.dev q)))
  | tape (q : Nat) (bs : List Byte) (e : (Device.queue s.dev q).en = true) (u : (Device.queue s.dev q).susp = false)
      (c : Queue.halted (Device.queue s.dev q) = false) (h : (Device.queue s.dev q).head = .tape none)
      (z : (Device.queue s.dev q).ttop ≠ 0)
      (r : Device.queueRead s.dev (Device.queue s.dev q)
        ((Device.queue s.dev q).tbase + BitVec.ofNat 64 (8 * ((Device.queue s.dev q).ttop - 1))) 8 = .ok bs)
      (k : canonical (BitVec.ofNat 64 (ofLeBytes bs)) = true) (m : (BitVec.ofNat 64 (ofLeBytes bs)).toNat % 256 = 0) :
      QueueEvents s (.evTapeRun q)
        (now s (Device.startLaunch
          (Device.queuePut s.dev q { Device.queue s.dev q with ttop := (Device.queue s.dev q).ttop - 1, head := .tape none }) q
          (BitVec.ofNat 64 (ofLeBytes bs)) true))
  | tapeUnread (q : Nat) (c : BitVec 8) (e : (Device.queue s.dev q).en = true) (u : (Device.queue s.dev q).susp = false)
      (c' : Queue.halted (Device.queue s.dev q) = false) (h : (Device.queue s.dev q).head = .tape none)
      (z : (Device.queue s.dev q).ttop ≠ 0)
      (r : Device.queueRead s.dev (Device.queue s.dev q)
        ((Device.queue s.dev q).tbase + BitVec.ofNat 64 (8 * ((Device.queue s.dev q).ttop - 1))) 8 = .error c) :
      QueueEvents s (.evTapeRun q)
        (State.mapDev (now s (Device.queuePut s.dev q { Device.queue s.dev q with ttop := (Device.queue s.dev q).ttop - 1, head := .tape none }))
          (fun d => Device.queuePut d q { Device.queue d q with stat := 5, head := .none }))
  | mark (q : Nat) (m : DWord) (h : Device.headEntry s.dev q = some (.ok (.mark m))) :
      QueueEvents s (.evFrameMark q)
        (State.mapDev (now s ((lanesOf m).foldl (fun d i => Device.queuePut d i { Device.queue d i with used := 0 }) s.dev))
          (fun d => Device.queuePut d q (Queue.finished (Device.queue d q))))
  | condition (q id : Nat) (bs : List Byte) (h : Queue.headLaunch (Device.queue s.dev q) = some id) (e : (Device.queue s.dev q).en = true)
      (w : (Device.queue s.dev q).stat = 2) (n : (Device.launch s.dev id).c0 = false) (m : (Device.launch s.dev id).c1 = false)
      (r : Device.queueRead s.dev (Device.queue s.dev q) (Device.launch s.dev id).lrec.cond0.1 8 = .ok bs)
      (k : (Device.launch s.dev id).lrec.cond0.2.toNat ≤ ofLeBytes bs) :
      QueueEvents s (.evLaunchConditionsHold q 0)
        (now s (Device.headStep (Device.setLaunch s.dev id { Device.launch s.dev id with c0 := true }) q))
  | placeHead (q low : Nat) (d e : Device) (b : d = Device.readBudgets s.dev) (h : Device.choose d = some (.head q))
      (k : e = { d with served := putAt d.served (Device.candRec d (.head q)).prio q 63 })
      (t : Device.target e (.head q) = some low) : QueueEvents s .evPlaceGang (now s (Device.placeGang e q low))
  | placeBack (sv : Saved) (low : Nat) (d : Device) (b : d = Device.readBudgets s.dev) (h : Device.choose d = some (.back sv))
      (t : Device.target d (.back sv) = some low) :
      QueueEvents s .evPlaceGang
        (now s (Device.restoreGang (Device.savedBanks { d with clock := d.clock + 1 } sv (low / 8)) sv (low / 8)))
  | drain (q k : Nat) (d : Device) (e : d = Device.readBudgets s.dev) (b : q < 64) (o : Device.offers d q = true)
      (t : 64 ≤ (Device.queue d q).tries) (n : (Device.queue d q).drain = none) (l : Device.drainSet d (.head q) = some k) :
      QueueEvents s (.evClusterDrain q) (now s (Device.queuePut d q { Device.queue d q with drain := some k }))
  | preempted (gid : Nat) (g : Gang) (h : Tbl.get? s.dev.gangs gid = some g) (t : g.st = .saving) (r : Device.saveReady s.dev gid = true)
      (n : (Device.gangWgs s.dev gid).length ≤ (Device.freeSlots s.dev (g.low / 64)).length) :
      QueueEvents s (.evPreemptionComplete gid) (now s (Device.saveGang s.dev gid))
  | append (u : Nat) (p : PLaunch) (d : Device) (x : Queue) (h : Device.firstLaunch s.dev u = some p) (k : Device.queue s.dev p.queue = x)
      (e : x.en = true) (c : Queue.halted x = false) (n : (x.wr - x.rd).toNat < 2 ^ x.rsz)
      (w : Device.vwrite s.dev { dieAgent 0 with lnch := (Device.launchOf s.dev (Device.wave s.dev u)).lnch } x.asid false (x.rbase + BitVec.ofNat 64 (16 * (x.wr.toNat % 2 ^ x.rsz)))
        (leBytes 8 1 ++ leBytes 8 p.record.toNat) = .ok d) (i : Device.queue d p.queue = x) :
      QueueEvents s (.evPendingLaunchAppend u)
        (now s (Device.dropLaunch (Device.queuePut d p.queue
          { x with wr := x.wr + 1, stat := if x.stat = 0 then 1 else x.stat, depths := x.depths ++ [(x.wr.toNat, p.depth)] }) u))
  | budget (q : Nat) (b : (Device.queue s.dev q).budget.toNat ≤ (Device.queue s.dev q).used.toNat)
      (c : bitOf (Device.queue s.dev q).ctl 1 = true) (n : Device.offers s.dev q = false) :
      QueueEvents s (.evBackgroundBudgetReached q) s
  | workgroup (g : Nat) (x : Workgroup) (d : Device) (h : Tbl.get? s.dev.wgs g = some x)
      (n : x.killed = true ∨ ∀ e, x.succ ≠ .entry e) (e : ∀ u ∈ x.waves, (Device.wave s.dev u).ended = true)
      (w : Device.workDone s.dev x = true) (r : Device.ringsUsed s.dev g = false) (t : (Device.gang s.dev x.gang).st ≠ .saved)
      (k : Device.quietWg (Device.unbindRings s.dev g (x.core / 8)) g x = true)
      (c : d = Device.l1WriteBack (Device.unbindRings s.dev g (x.core / 8)) (x.core / 8) everyLine) :
      QueueEvents s (.evWorkgroupRetire g)
        (now s (Device.gangRetire
          (Device.banksBack
            { d with
              wgs := Tbl.del d.wgs g, waves := d.waves.filter (fun e => !x.waves.contains e.1)
              orphans := d.orphans ++ x.waves.flatMap (fun u => (Device.wave d u).launches.map (fun p => (u, p))) }
            (x.core / 8) x.autoBanks) x.gang))
  | unbinds (g : Nat) (x : Workgroup) (h : Tbl.get? s.dev.wgs g = some x)
      (n : x.killed = true ∨ ∀ e, x.succ ≠ .entry e) (e : ∀ u ∈ x.waves, (Device.wave s.dev u).ended = true)
      (w : Device.workDone s.dev x = true) (r : Device.ringsUsed s.dev g = false) (t : (Device.gang s.dev x.gang).st ≠ .saved)
      (k : Device.quietWg (Device.unbindRings s.dev g (x.core / 8)) g x = false) :
      QueueEvents s (.evWorkgroupRetire g) (now s (Device.unbindRings s.dev g (x.core / 8)))
  | launchDone (id : Nat) (l : Launch) (h : Tbl.get? s.dev.launches id = some l) (a : l.allPlaced = true) (n : l.live = [])
      (q : (Device.queue s.dev l.queue).head = .launch id → Queue.halted (Device.queue s.dev l.queue) = true)
      (b : ∀ r ∈ s.dev.pins, r.lnch ≠ l.lnch) :
      QueueEvents s (.evLaunchRetire id) (now s (Device.retireLaunch s.dev id l))

/-- The bytes of an answer of the management port (R453): the request's opcode with bit 7 set, the length of what follows, the status and the result, the CRC of all that. The order of the two bytes of the length and of the CRC is the model's (DESIGN CHOICE 43). -/
def answerFrame (op status : Nat) (data : List Byte) : List Byte :=
  let body := (BitVec.ofNat 8 op ||| 0x80) :: leBytes 2 (data.length + 1) ++ BitVec.ofNat 8 status :: data
  body ++ leBytes 2 (crc16 body)

/-- The management port answers (R453). -/
def answered (s : State) (d : Device) (op status : Nat) (data : List Byte) : State :=
  now s { d with outbox := d.outbox ++ [.resp (answerFrame op status data)] }

/-- The system block with a change. -/
def sysNow (s : State) (f : SysBlock → SysBlock) : Device := { s.dev with sys := f s.dev.sys }

/-- The events at the module's registers, ports and links (R204, R404, R447 to R452). -/
inductive HostEvents (s : State) : Instr → State → Prop where
  | enable (q src : Nat) (b : q < 64) (a : Device.admits s.dev q src = true) (r : s.dev.sys.bootst = 6)
      (m : Device.memBad s.dev (s.dev.sys.qtb.toNat + 64 * q) 64 = false)
      (k : qdescOk (Device.plain s.dev (s.dev.sys.qtb.toNat + 64 * q) 64) (Device.qowner s.dev q) = true) :
      HostEvents s (.evQcmdEnable q src) (now s (Device.queueEnable s.dev q src))
  | disable (q src : Nat) (b : q < 64) (a : Device.admits s.dev q src = true) :
      HostEvents s (.evQcmdDisable q src) (now s (Device.setQueue s.dev q { Device.queue s.dev q with en := false, res := 0 }))
  | suspend (q src : Nat) (b : q < 64) (a : Device.admits s.dev q src = true)
      (r : ∀ die < 4, Device.membersOn s.dev (Device.queueGangs s.dev q) die + Device.claimed s.dev die ≤ (Device.freeSlots s.dev die).length) :
      HostEvents s (.evQcmdSuspend q src) (now s (Device.queueSuspend s.dev q))
  | noRoom (q src : Nat) (die : Nat) (b : q < 64) (a : Device.admits s.dev q src = true) (k : die < 4)
      (r : (Device.freeSlots s.dev die).length < Device.membersOn s.dev (Device.queueGangs s.dev q) die + Device.claimed s.dev die) :
      HostEvents s (.evQcmdSuspend q src) (now s (Device.setQueue s.dev q { Device.queue s.dev q with res := 3 }))
  | kill (q src : Nat) (b : q < 64) (a : Device.admits s.dev q src = true) :
      HostEvents s (.evQcmdKill q src)
        (State.mapDev (now s (((s.dev.launches.filter (fun e => e.2.queue == q)).map (fun e => e.1)).foldl Device.killLaunch s.dev))
          (fun d => Device.setQueue d q { Device.queue d q with en := false, res := 0 }))
  | refused (q src : Nat) (b : q < 64) (a : Device.admits s.dev q src = false) :
      HostEvents s (.evQcmdKill q src)
        (State.mapDev (now s (Device.setQueue s.dev q { Device.queue s.dev q with res := 1 }))
          (fun d => Device.logError d 3 0 (srcByte src) (0x100 + 8 * q) 0 (srcLnch src) 0))
  | killl (lnch : BitVec 32) (src id : Nat) (l : Launch) (h : s.dev.launches.find? (fun e => e.2.lnch == lnch) = some (id, l))
      (a : Device.admits s.dev (lnch.toNat / 2 ^ 26) src = true) : HostEvents s (.evKilll lnch src) (now s (Device.killLaunch s.dev id))
  | kilnone (lnch : BitVec 32) (src : Nat) (h : ∀ e ∈ s.dev.launches, e.2.lnch ≠ lnch)
      (a : Device.admits s.dev (lnch.toNat / 2 ^ 26) src = true) :
      HostEvents s (.evKilll lnch src) (now s (Device.logError s.dev 10 0 (srcByte src) lnch.toNat 0 lnch 0))
  | key (v : BitVec 64) (src : Nat) (a : Device.mayConfigure s.dev src = true) (g : v.getLsbD 63 = true) (z : v.extractLsb' 4 59 = 0)
      (k : v.extractLsb' 0 4 ≠ 0) :
      HostEvents s (.evKeyLoad v src)
        (now s (sysNow s (fun x =>
          { x with keycmd := v, keys := Tbl.put x.keys (v.extractLsb' 0 4).toNat x.keybuf, keybuf := List.replicate 8 0
                   keyMats := if x.keyMats.contains x.keybuf then x.keyMats else x.keyMats ++ [x.keybuf] })))
  | astb (die : Nat) (v : BitVec 64) (src : Nat) (a : Device.mayConfigure s.dev src = true) (b : v.toNat < 2 ^ 48) (z : v.toNat % 2 ^ 18 = 0) :
      HostEvents s (.evRegisterWrite die 0x008 8 v src) (now s (sysNow s (fun x => { x with astb := v })))
  | bar0Write (port off : Nat) (bs : List Byte) (p : port < 2) (u : Device.portUp s.dev port = true) (c : s.dev.sys.held = false)
      (d : off / 2 ^ 24 < 4) (n : bs.length = 4 ∨ bs.length = 8) (z : off % 2 ^ 24 % bs.length = 0) :
      HostEvents s (.evHostBarAccess port 0 off (.wr bs))
        (now s { s.dev with
          inbox := s.dev.inbox ++ [⟨port, off / 2 ^ 24, off % 2 ^ 24, bs.length, BitVec.ofNat 64 (ofLeBytes bs)⟩]
          outbox := s.dev.outbox ++ [.host port (some [])] })
  | bar2Write (port off : Nat) (bs : List Byte) (p : port < 2) (u : Device.portUp s.dev port = true) (c : s.dev.sys.held = false)
      (d : off < 2 ^ 36) (n : (s.dev.sys.winb.extractLsb' (8 * port) 8).toNat * 2 ^ 36 + off + bs.length ≤ 2 ^ 40)
      (r : Device.raced s.dev 0 ((s.dev.sys.winb.extractLsb' (8 * port) 8).toNat * 2 ^ 36 + off) bs.length = false) :
      HostEvents s (.evHostBarAccess port 2 off (.wr bs))
        (State.mapDev (now s (Device.memWrite s.dev ((s.dev.sys.winb.extractLsb' (8 * port) 8).toNat * 2 ^ 36 + off) bs))
          (fun d => { d with outbox := d.outbox ++ [.host port (some [])] }))
  | bar2Raced (port off pa : Nat) (bs xs : List Byte) (p : port < 2) (u : Device.portUp s.dev port = true) (c : s.dev.sys.held = false)
      (d : off < 2 ^ 36) (a : pa = (s.dev.sys.winb.extractLsb' (8 * port) 8).toNat * 2 ^ 36 + off) (n : pa + bs.length ≤ 2 ^ 40)
      (r : Device.raced s.dev 0 pa bs.length = true) (l : xs.length = bs.length)
      (e : ∀ i < bs.length, xs.getD i 0 =
        if Device.raced s.dev 0 (pa + i) 1 = true ∧ (Config.freeByte (s.dev.freeCtr + i)).getLsbD 0 = true then Device.memByteT s.dev 0 (pa + i)
        else bs.getD i 0) :
      HostEvents s (.evHostBarAccess port 2 off (.wr bs))
        (State.mapDev (now s (Device.memWrite { s.dev with freeCtr := s.dev.freeCtr + bs.length } pa xs))
          (fun d => { d with outbox := d.outbox ++ [.host port (some [])] }))
  | peerRead (module addr n : Nat) (a : s.dev.sys.peeracc.getLsbD module = true) (r : s.dev.sys.bootst = 6)
      (l : s.dev.sys.linkst.extractLsb' 0 16 ≠ 0) (k : module ∈ s.dev.reach) (b : addr + n ≤ 2 ^ 40)
      (m : Device.memBad s.dev addr n = false) :
      HostEvents s (.evPeerAccess module addr (.rd n))
        (now s { s.dev with outbox := s.dev.outbox ++ [.peer module (some (Device.physRead s.dev addr n))] })
  | peerRefused (module addr : Nat) (acc : BusAccess) (a : s.dev.sys.peeracc.getLsbD module = false) :
      HostEvents s (.evPeerAccess module addr acc) (now s { s.dev with outbox := s.dev.outbox ++ [.peer module none] })
  | linkUp (host : Bool) (idx : Nat) (b : if host then idx < 2 else idx < 16) :
      HostEvents s (.evLinkStateChange host idx true)
        (now s (sysNow s (fun x => { x with linkst := x.linkst ||| 1#64 <<< (if host then 16 + idx else idx) })))
  | linkDown (host : Bool) (idx : Nat) (b : if host then idx < 2 else idx < 16) :
      HostEvents s (.evLinkStateChange host idx false)
        (now s (sysNow s (fun x => { x with linkst := x.linkst &&& ~~~(1#64 <<< (if host then 16 + idx else idx)) })))
  | splinter (die : Nat) (v : BitVec 64) (i : (Device.die s.dev die).splst ≠ 1) (g : v.getLsbD 63 = true) (y : v.extractLsb' 17 46 = 0)
      (z : v.extractLsb' 12 4 = 0) :
      HostEvents s (.evSplinter die v)
        (State.mapDev (now s (Device.splintStart s.dev (Device.die s.dev die).splva (v.toNat % 4096) (v.getLsbD 16)).1) (fun d =>
          Device.setDie d die
            { Device.die d die with
              splcmd := v, splst := 1, splint := some (Device.splintStart s.dev (Device.die s.dev die).splva (v.toNat % 4096) (v.getLsbD 16)).2 }))
  | splinterFails (die c : Nat) (k : (Device.die s.dev die).splint = some (.fails c)) :
      HostEvents s (.evSplinterDone die) (now s (Device.setDie s.dev die { Device.die s.dev die with splst := c, splint := none }))
  | splinterDone (die a pte block : Nat) (d : Device) (k : (Device.die s.dev die).splint = some (.work a pte block))
      (w : d = Device.memWrite s.dev block
        (if (Device.die s.dev die).splcmd.getLsbD 16 then splinterLeaves pte 512 (2 ^ 21) else splinterLeaves pte 32 (2 ^ 16)))
      (l : ofLeBytes (Memory.readN d.mem a 8) = pte) :
      HostEvents s (.evSplinterDone die)
        (State.mapDev (now s (Device.memWrite d a (leBytes 8 (3 + block)))) (fun d =>
          Device.setDie d die { Device.die d die with splst := 2, splint := none }))
  | splinterLate (die a pte block : Nat) (d : Device) (k : (Device.die s.dev die).splint = some (.work a pte block))
      (w : d = Device.memWrite s.dev block
        (if (Device.die s.dev die).splcmd.getLsbD 16 then splinterLeaves pte 512 (2 ^ 21) else splinterLeaves pte 32 (2 ^ 16)))
      (l : ofLeBytes (Memory.readN d.mem a 8) ≠ pte) :
      HostEvents s (.evSplinterDone die) (now s (Device.setDie d die { Device.die d die with splst := 2, splint := none }))

/-- The module as power-on or a reset leaves it (R454): every unit in its reset state, BOOTST 1; with `keep`, HBM as it was, without what only an L2 held (R11); what lies outside the module as it was. Its firmware's tables stay too (DESIGN CHOICE 63). -/
structure Restarted (d d' : Device) (keep : Bool) : Prop where
  work : d'.waves = [] ∧ d'.wgs = [] ∧ d'.gangs = [] ∧ d'.launches = [] ∧ d'.ops = [] ∧ d'.saved = [] ∧ d'.inbox = []
  units : d'.cores = [] ∧ d'.clusters = [] ∧ d'.pairs = [] ∧ d'.queues = [] ∧ d'.tlbs = [] ∧ d'.hbm = []
  dies : ∀ i, Device.die d' i = { Die.reset with power := { Power.reset with plans := (Device.powerOf d i).plans } }
  boot : d'.sys = { SysBlock.reset with keyMats := d.sys.keyMats, fuseKey := d.sys.fuseKey, fuseVer := d.sys.fuseVer, reqs := d.sys.reqs }
  outside : ∀ a, 4 ≤ placeOf a → Memory.read d'.mem a = Memory.read d.mem a
  hbm : keep = true → ∀ a, placeOf a = 0 → (∀ e ∈ d.hbm, e.1 ≠ a) → Memory.read d'.mem a = Memory.read d.mem a
  lost : keep = true → ∀ a b, placeOf a = 0 → (∀ e ∈ d.hbm, e.1 = a → e.2 = b) → (∃ e ∈ d.hbm, e.1 = a) → Memory.read d'.mem a = b
  sram : ∀ a, placeOf a = 1 → Memory.read d'.mem a = 0

/-- Measurement i extended by bytes (R456): the SHA-256 of its old value and the digest. -/
def extended (x : SysBlock) (i : Nat) (digest : List Byte) : SysBlock :=
  { x with meas := putAt x.meas i (BitVec.ofNat 256 (ofLeBytes (sha256 (leBytes 32 (x.meas.getD i 0).toNat ++ digest)))) 0 }

/-- The boot states in which RESYNC and QUOTE are served (R453). -/
def Live (n : Nat) : Prop := (2 ≤ n ∧ n ≤ 6) ∨ n = 0x82 ∨ n = 0x90

/-- The request that an event makes at the management port (R453). -/
inductive Asks : Instr → MReq → Prop where
  | read (die : BitVec 8) (off : BitVec 32) : Asks (.evRead die off) (.read die off)
  | write (die : BitVec 8) (off : BitVec 32) (v : BitVec 64) : Asks (.evWrite die off v) (.write die off v)
  | resync : Asks .evResync .resync
  | quote (nonce : BitVec 256) : Asks (.evQuote nonce) (.quote nonce)
  | cert : Asks .evCert .cert
  | cold : Asks .evColdReset .cold
  | warm : Asks .evWarmReset .warm
  | retrain (port : Nat) : Asks (.evPortRetrain port) (.retrain port)
  | release : Asks .evRelease .release
  | kill (lnch : BitVec 32) : Asks (.evKill lnch) (.kill lnch)
  | extend (i : Nat) (digest : BitVec 256) : Asks (.evExtend i digest) (.extend i digest)
  | bad (frame : List Byte) (n : frame ≠ []) (c : crcBad frame = true ∨ frameBad frame = true) : Asks (.evBadFrame frame) (.bad frame)

/-- Does the ROM accept a firmware image (R456): the signature holds under a key whose digest is the fused one, and the version is not below the fused one. -/
structure Accepted (s : State) (image : List Byte) (modulus exponent sig : Nat) : Prop where
  signed : pssVerify modulus exponent image sig = true
  key : rsaDigest modulus exponent = s.dev.sys.fuseKey
  version : s.dev.sys.fuseVer ≤ Config.imageVersion image

/-- What the management port answers to a request at once (R453 to R456). -/
inductive Answers (s : State) : MReq → State → Prop where
  | read (die : BitVec 8) (off : BitVec 32) (d : Device) (v : Nat) (b : die.toNat < 4) (z : off.toNat % 8 = 0)
      (r : Device.regRead s.dev die.toNat off.toNat 8 = (d, v)) : Answers s (.read die off) (answered s d 1 0 (leBytes 8 v))
  | write (die : BitVec 8) (off : BitVec 32) (v : BitVec 64) (b : die.toNat < 4) (z : off.toNat % 8 = 0) (r : s.dev.sys.bootst = 6) :
      Answers s (.write die off v) (answered s (State.regWrite s die.toNat off.toNat 8 v 2) 2 0 [])
  | writeNot (die : BitVec 8) (off : BitVec 32) (v : BitVec 64) (r : s.dev.sys.bootst < 2) :
      Answers s (.write die off v) (answered s s.dev 2 3 [])
  | resync (r : Live s.dev.sys.bootst) : Answers s .resync (now s (sysNow s (fun x => { x with resync := some (0, []) })))
  | quote (nonce : BitVec 256) (r : Live s.dev.sys.bootst) :
      Answers s (.quote nonce)
        (answered s s.dev 4 0 (Device.quoteBody s.dev nonce
          ++ (List.range 384).map (fun i => (Config.sign (Device.quoteBody s.dev nonce)).getD i 0)))
  | quoteNot (nonce : BitVec 256) (r : s.dev.sys.bootst = 1) : Answers s (.quote nonce) (answered s s.dev 4 3 [])
  | cert (r : (1 ≤ s.dev.sys.bootst ∧ s.dev.sys.bootst ≤ 6) ∨ s.dev.sys.bootst = 0x81 ∨ s.dev.sys.bootst = 0x82 ∨ s.dev.sys.bootst = 0x90) :
      Answers s .cert (answered s s.dev 5 0 Config.cert)
  | cold : Answers s .cold (answered s (Device.restart s.dev false) 6 0 [])
  | warm : Answers s .warm (answered s (Device.restart s.dev true) 6 0 [])
  | retrain (port : Nat) (p : port < 2) :
      Answers s (.retrain port) (answered s (sysNow s (fun x => { x with linkst := x.linkst &&& ~~~(1#64 <<< (16 + port)) })) 6 0 [])
  | noPort (port : Nat) (p : 2 ≤ port) : Answers s (.retrain port) (answered s s.dev 6 2 [])
  | release (r : s.dev.sys.bootst = 0x90) (c : ∀ die < 4, ∀ t ∈ (Device.powerOf s.dev die).temps, t < 95 * 8) :
      Answers s .release (answered s (Device.restart s.dev true) 7 0 [])
  | hot (die : Nat) (t : Int) (r : s.dev.sys.bootst = 0x90) (k : die < 4) (c : t ∈ (Device.powerOf s.dev die).temps) (h : 95 * 8 ≤ t) :
      Answers s .release (answered s s.dev 7 4 [])
  | kill (lnch : BitVec 32) (r : s.dev.sys.bootst = 6) : Answers s (.kill lnch) (answered s (Device.killByName s.dev lnch 2) 8 0 [])
  | extend (i : Nat) (digest : BitVec 256) (r : 2 ≤ s.dev.sys.bootst ∧ s.dev.sys.bootst ≤ 6) (a : 3 ≤ i) (b : i ≤ 7) :
      Answers s (.extend i digest) (answered s (sysNow s (fun x => extended x i (leBytes 32 digest.toNat))) 9 0 [])
  | extendBad (i : Nat) (digest : BitVec 256) (r : 2 ≤ s.dev.sys.bootst ∧ s.dev.sys.bootst ≤ 6) (a : i < 3 ∨ 7 < i) :
      Answers s (.extend i digest) (answered s s.dev 9 2 [])
  | extendNot (i : Nat) (digest : BitVec 256) (r : s.dev.sys.bootst < 2 ∨ 6 < s.dev.sys.bootst) :
      Answers s (.extend i digest) (answered s s.dev 9 3 [])
  | badCrc (frame : List Byte) (n : 5 ≤ frame.length)
      (c : crc16 (frame.take (frame.length - 2)) ≠ fieldAt frame (frame.length - 2) 2) :
      Answers s (.bad frame) (answered s s.dev (fieldAt frame 0 1) 1 [])
  | badOpcode (frame : List Byte) (n : 5 ≤ frame.length)
      (c : crc16 (frame.take (frame.length - 2)) = fieldAt frame (frame.length - 2) 2) (k : frameBad frame = true) :
      Answers s (.bad frame) (answered s s.dev (fieldAt frame 0 1) 2 [])

/-- What the management port does when it goes on (R453, R455): a RESYNC under way reads its next field as the module stands now, and answers with the last; else the oldest waiting request is served. -/
inductive PortGoes (s : State) : State → Prop where
  | field (n : Nat) (bs : List Byte) (h : s.dev.sys.resync = some (n, bs)) (m : n + 1 < (Device.resyncFields s.dev).length) :
      PortGoes s (now s (sysNow s (fun x => { x with resync := some (n + 1, bs ++ (Device.resyncFields s.dev).getD n []) })))
  | last (n : Nat) (bs : List Byte) (h : s.dev.sys.resync = some (n, bs)) (m : n + 1 = (Device.resyncFields s.dev).length) :
      PortGoes s (answered s (sysNow s (fun x => { x with resync := none })) 3 0 (bs ++ (Device.resyncFields s.dev).getD n []))
  | next (r : MReq) (rs : List MReq) (t : State) (h : s.dev.sys.resync = none) (q : s.dev.sys.reqs = r :: rs)
      (a : Answers (now s (sysNow s (fun x => { x with reqs := rs }))) r t) : PortGoes s t

/-- The requests of the management port, the boot and the bring-up (R312, R453 to R456): a request is answered at once where none is being served, and else waits behind the others. -/
inductive ManageEvents (s : State) : Instr → State → Prop where
  | served (i : Instr) (r : MReq) (t : State) (q : Asks i r) (h : s.dev.sys.resync = none) (k : s.dev.sys.reqs = []) (a : Answers s r t) :
      ManageEvents s i t
  | waits (i : Instr) (r : MReq) (q : Asks i r) (h : s.dev.sys.resync ≠ none ∨ s.dev.sys.reqs ≠ []) :
      ManageEvents s i (now s (sysNow s (fun x => { x with reqs := x.reqs ++ [r] })))
  | power :
      ManageEvents s .evModuleReset (State.mapDev (now s (Device.restart s.dev false)) (fun d => { d with sys := { d.sys with reqs := [] } }))
  | verified (image : List Byte) (modulus exponent sig : Nat) (r : s.dev.sys.bootst = 1) (v : Accepted s image modulus exponent sig) :
      ManageEvents s (.evFirmwareVerify image (Config.imageVersion image) (rsaDigest modulus exponent) modulus exponent sig)
        (now s (sysNow s (fun x => { extended x 0 (sha256 image) with bootst := 2 })))
  | unverified (image : List Byte) (modulus exponent sig : Nat) (r : s.dev.sys.bootst = 1) (v : ¬ Accepted s image modulus exponent sig) :
      ManageEvents s (.evFirmwareVerify image (Config.imageVersion image) (rsaDigest modulus exponent) modulus exponent sig)
        (now s (sysNow s (fun x => { x with bootst := 0x81 })))
  | step4 (r : s.dev.sys.bootst = 4) (m : s.dev.sys.modSet = true) :
      ManageEvents s (.evBringupStep true) (now s (sysNow s (fun x => { x with bootst := 5 })))
  | step5 (r : s.dev.sys.bootst = 5) : ManageEvents s (.evBringupStep true) (now s (sysNow s (fun x => { x with bootst := 6 })))
  | stepFails (r : 2 ≤ s.dev.sys.bootst) (q : s.dev.sys.bootst ≤ 4) :
      ManageEvents s (.evBringupStep false) (now s (sysNow s (fun x => { x with bootst := 0x82 })))

end Sys2Proof.Claim
end

