-- ==== Sys2Proof/Claims/Float.lean ====
section
/-! DEFINITION. What the statements say of the floating-point words (R156 to R171): operands read exactly, one exact result, one rounding under the mode of the word. -/

namespace Sys2Proof.Claim

open Sys2Proof.Machine

/-- The flush bit for 32-bit operands, FPM bit 3 (R65). -/
def flush32 (m : Word) : Bool := m.getLsbD 3
/-- The flush bit for 16-bit operands, FPM bit 4 (R65). -/
def flush16 (m : Word) : Bool := m.getLsbD 4
/-- The default rounding mode, FPM bits 2:0 (R65). -/
def modeOf (m : Word) : Nat := (m.extractLsb' 0 3).toNat

/-- An f32 operand as an exact value. -/
def in32 (m a : Word) : Fv := Fmt.read f32 (flush32 m) a.toNat
/-- Half h of a packed operand as an exact value of a 16-bit type. -/
def inHalf (t : Fmt) (m a : Word) (h : Nat) : Fv := Fmt.read t (flush16 m) (a.extractLsb' (16 * h) 16).toNat
/-- An exact value rounded once to f32 under the default mode. -/
def out32 (m : Word) (draw : Nat) (x : Fv) : Word := BitVec.ofNat 32 (Fmt.round f32 (modeOf m) false (flush32 m) draw x)
/-- An exact value rounded once to a 16-bit type under the default mode. -/
def outHalf (t : Fmt) (m : Word) (draw : Nat) (x : Fv) : BitVec 16 :=
  BitVec.ofNat 16 (Fmt.round t (modeOf m) false (flush16 m) draw x)
/-- An exact sum; a sum of zeros of both signs is -0 under rdn alone (R62). -/
def exactSum (m : Word) (l : List Fv) : Fv := Fv.sum (decide (modeOf m = 2)) l
/-- Two halves as a packed word. -/
def pack (f : Nat → BitVec 16) : Word := f 1 ++ f 0

/-- The result of a word on its mode word, its draws, and its operands a, b, d. -/
abbrev FloatFn := Word → (Nat → Nat) → Word → Word → Word → Word

/-- The FALU words of two or three operands (R159 to R162): the constructors of both forms, the draws a lane takes, whether the old destination is read, the result. -/
noncomputable def faluTable : List ((VR → Instr) × (VS → Instr) × Nat × Bool × FloatFn) :=
  [(.faddF32, .faddF32S, 1, false, fun m r a b _ => out32 m (r 0) (exactSum m [in32 m a, in32 m b])),
   (.fsubF32, .fsubF32S, 1, false, fun m r a b _ => out32 m (r 0) (exactSum m [in32 m a, Fv.opp (in32 m b)])),
   (.fmulF32, .fmulF32S, 1, false, fun m r a b _ => out32 m (r 0) (Fv.mul (in32 m a) (in32 m b))),
   (.fmaF32, .fmaF32S, 1, true, fun m r a b d => out32 m (r 0) (exactSum m [Fv.mul (in32 m a) (in32 m b), in32 m d])),
   (.fnmaF32, .fnmaF32S, 1, true, fun m r a b d => out32 m (r 0) (exactSum m [in32 m d, Fv.opp (Fv.mul (in32 m a) (in32 m b))])),
   (.fminF32, .fminF32S, 0, false, fun m _ a b _ => BitVec.ofNat 32 (fminBits f32 (flush32 m) a.toNat b.toNat)),
   (.fmaxF32, .fmaxF32S, 0, false, fun m _ a b _ => BitVec.ofNat 32 (fmaxBits f32 (flush32 m) a.toNat b.toNat)),
   (.fldexpF32, .fldexpF32S, 1, false, fun m r a b _ => fldexp32 m r a b),
   (.flerpF32, .flerpF32S, 1, true, fun m r a b d => flerp32 m r a b d),
   (.faddF16x2, .faddF16x2S, 2, false, fun m r a b _ => pack (fun h => outHalf f16 m (r h) (exactSum m [inHalf f16 m a h, inHalf f16 m b h]))),
   (.fmulF16x2, .fmulF16x2S, 2, false, fun m r a b _ => pack (fun h => outHalf f16 m (r h) (Fv.mul (inHalf f16 m a h) (inHalf f16 m b h)))),
   (.fmaF16x2, .fmaF16x2S, 2, true, fun m r a b d =>
      pack (fun h => outHalf f16 m (r h) (exactSum m [Fv.mul (inHalf f16 m a h) (inHalf f16 m b h), inHalf f16 m d h]))),
   (.fminF16x2, .fminF16x2S, 0, false, fun m _ a b _ =>
      pack (fun h => BitVec.ofNat 16 (fminBits f16 (flush16 m) (a.extractLsb' (16 * h) 16).toNat (b.extractLsb' (16 * h) 16).toNat))),
   (.fmaxF16x2, .fmaxF16x2S, 0, false, fun m _ a b _ =>
      pack (fun h => BitVec.ofNat 16 (fmaxBits f16 (flush16 m) (a.extractLsb' (16 * h) 16).toNat (b.extractLsb' (16 * h) 16).toNat))),
   (.faddBf16x2, .faddBf16x2S, 2, false, fun m r a b _ =>
      pack (fun h => outHalf bf16 m (r h) (exactSum m [inHalf bf16 m a h, inHalf bf16 m b h]))),
   (.fmulBf16x2, .fmulBf16x2S, 2, false, fun m r a b _ => pack (fun h => outHalf bf16 m (r h) (Fv.mul (inHalf bf16 m a h) (inHalf bf16 m b h)))),
   (.fmaBf16x2, .fmaBf16x2S, 2, true, fun m r a b d =>
      pack (fun h => outHalf bf16 m (r h) (exactSum m [Fv.mul (inHalf bf16 m a h) (inHalf bf16 m b h), inHalf bf16 m d h]))),
   (.fminBf16x2, .fminBf16x2S, 0, false, fun m _ a b _ =>
      pack (fun h => BitVec.ofNat 16 (fminBits bf16 (flush16 m) (a.extractLsb' (16 * h) 16).toNat (b.extractLsb' (16 * h) 16).toNat))),
   (.fmaxBf16x2, .fmaxBf16x2S, 0, false, fun m _ a b _ =>
      pack (fun h => BitVec.ofNat 16 (fmaxBits bf16 (flush16 m) (a.extractLsb' (16 * h) 16).toNat (b.extractLsb' (16 * h) 16).toNat))),
   (.fdot2Bf16, .fdot2Bf16S, 1, true, fun m r a b d => out32 m (r 0)
      (exactSum m [in32 m d, Fv.mul (inHalf bf16 m a 0) (inHalf bf16 m b 0), Fv.mul (inHalf bf16 m a 1) (inHalf bf16 m b 1)])),
   (.fdot2F16, .fdot2F16S, 1, true, fun m r a b d => out32 m (r 0)
      (exactSum m [in32 m d, Fv.mul (inHalf f16 m a 0) (inHalf f16 m b 0), Fv.mul (inHalf f16 m a 1) (inHalf f16 m b 1)]))]

/-- By how much a word advances the stochastic count (R69): by its draws per lane under mode 4, else not at all. -/
def countOf (mode draws : Nat) : Nat := if mode == 4 then draws else 0

/-- A FALU word: each lane's result, poisoned when an element read is; the stochastic count. -/
def changeFalu (s : State) (o : VR) (k : Nat) (acc : Bool) (f : FloatFn) : Change :=
  { reads := [(o.la, o.a.toNat), (o.lb, o.b.toNat)]
    vecs := [(o.d.toNat, fun l =>
      ⟨f (State.src s).fpm (State.draw s l) (State.elem s o.a.toNat l).v (State.elem s o.b.toNat l).v
        (if acc then (State.elem s o.d.toNat l).v else 0),
       (State.elem s o.a.toNat l).p || (State.elem s o.b.toNat l).p || (if acc then (State.elem s o.d.toNat l).p else false)⟩, false)]
    count := countOf (modeOf (State.src s).fpm) k }

/-- A FALU.S word. -/
def changeFaluS (s : State) (o : VS) (k : Nat) (acc : Bool) (f : FloatFn) : Change :=
  { reads := [(o.la, o.a.toNat)]
    vecs := [(o.d.toNat, fun l =>
      ⟨f (State.src s).fpm (State.draw s l) (State.elem s o.a.toNat l).v (bOperand s o.b).v (if acc then (State.elem s o.d.toNat l).v else 0),
       (State.elem s o.a.toNat l).p || (bOperand s o.b).p || (if acc then (State.elem s o.d.toNat l).p else false)⟩, false)]
    count := countOf (modeOf (State.src s).fpm) k }

/-- The FALU words of one operand (R159, R161), in both forms, with their draws. -/
noncomputable def faluUnaryTable : List ((VU → Instr) × (VU → Instr) × Nat × (Word → (Nat → Nat) → Word → Word)) :=
  [(.fabsF32, .fabsF32S, 0, fun _ _ a => (0 : BitVec 1) ++ a.extractLsb' 0 31),
   (.fnegF32, .fnegF32S, 0, fun _ _ a => (~~~(a.extractLsb' 31 1)) ++ a.extractLsb' 0 31),
   (.fsignF32, .fsignF32S, 0, fun m _ a => match in32 m a with
      | .nan => 0x7FC00000
      | .inf n => if n then 0xBF800000 else 0x3F800000
      | .fin n k _ => if k = 0 then (if n then 0x80000000 else 0) else if n then 0xBF800000 else 0x3F800000),
   (.ffracF32, .ffracF32S, 1, fun m r a => ffrac32 m r a),
   (.fclassF32, .fclassF32S, 0, fun _ _ a => BitVec.ofNat 32 (fclassBits a.toNat))]

/-- A FALU word of one operand. -/
def changeFaluU (s : State) (o : VU) (k : Nat) (f : Word → (Nat → Nat) → Word → Word) : Change :=
  { reads := [(o.la, o.a.toNat)]
    vecs := [(o.d.toNat, fun l => ⟨f (State.src s).fpm (State.draw s l) (State.elem s o.a.toNat l).v, (State.elem s o.a.toNat l).p⟩, false)]
    count := countOf (modeOf (State.src s).fpm) k }

/-- An element read as a compare type (R38): 0 f32, 1 f16 of the low half, 2 bf16 of the low half. -/
def compareIn (m : Word) (ty : Nat) (a : Word) : Fv :=
  if ty = 0 then in32 m a else if ty = 1 then inHalf f16 m a 0 else inHalf bf16 m a 0

/-- A floating-point comparison (R37, R163): with a NaN only `ne` and `uo` hold; 6 asks for a NaN, 7 for its absence. -/
def comparesF (cond : Nat) (x y : Fv) : Bool :=
  let nan := x == .nan || y == .nan
  if cond = 0 then !nan && Fv.eqv x y
  else if cond = 1 then nan || !Fv.eqv x y
  else if cond = 2 then !nan && Fv.lt x y
  else if cond = 3 then !nan && !Fv.lt y x
  else if cond = 4 then !nan && Fv.lt y x
  else if cond = 5 then !nan && !Fv.lt x y
  else if cond = 6 then nan
  else !nan

/-- FCMP (R163). -/
def changeFcmp (s : State) (o : VP) : Change :=
  { reads := [(o.la, o.a.toNat), (o.lb, o.b.toNat)]
    preds := [(o.pd.toNat, fun l =>
      (comparesF o.cond.toNat (compareIn (State.src s).fpm o.ty.toNat (State.elem s o.a.toNat l).v)
        (compareIn (State.src s).fpm o.ty.toNat (State.elem s o.b.toNat l).v),
       (State.elem s o.a.toNat l).p || (State.elem s o.b.toNat l).p))] }

/-- FCMP.S (R163). -/
def changeFcmpS (s : State) (o : VPS) : Change :=
  { reads := [(o.la, o.a.toNat)]
    preds := [(o.pd.toNat, fun l =>
      (comparesF o.cond.toNat (compareIn (State.src s).fpm o.ty.toNat (State.elem s o.a.toNat l).v)
        (compareIn (State.src s).fpm o.ty.toNat (bOperand s o.b).v),
       (State.elem s o.a.toNat l).p || (bOperand s o.b).p))] }

/-- The mode of a conversion (R40): its own code, or the default for code 6. -/
def convMode (m : Word) (rm : BitVec 3) : Nat := if rm.toNat < 6 then rm.toNat else modeOf m

/-- FCVT (R164 to R166): the source read exactly as its type, rounded once to the destination type. -/
def changeFcvt (s : State) (o : VX) : Change :=
  { reads := [(o.la, o.a.toNat)]
    vecs := [(o.d.toNat, fun l =>
      ⟨cvtWrite (State.src s).fpm o.dt.toNat (convMode (State.src s).fpm o.rm) (o.sat == 1) (State.draw s l 0)
        (cvtRead (State.src s).fpm o.st.toNat (State.elem s o.a.toNat l).v), (State.elem s o.a.toNat l).p⟩, false)]
    count := countOf (convMode (State.src s).fpm o.rm) 1 }

/-- An integral value of the sign of x (R167): NaN stays the canonical NaN, an infinity itself. -/
def integral (m : Word) (mode draw : Nat) (a : Word) : Word :=
  match in32 m a with
  | .nan => 0x7FC00000
  | .inf n => if n then 0xFF800000 else 0x7F800000
  | .fin n k e => BitVec.ofNat 32 (Fmt.round f32 0 false false 0 (.fin n (Fv.toInt mode draw (.fin n k e)).natAbs 0))

/-- FRND (R167). -/
def changeFrnd (s : State) (o : VRnd) : Change :=
  { reads := [(o.la, o.a.toNat)]
    vecs := [(o.d.toNat, fun l =>
      ⟨integral (State.src s).fpm (convMode (State.src s).fpm o.rm) (State.draw s l 0) (State.elem s o.a.toNat l).v,
       (State.elem s o.a.toNat l).p⟩, false)]
    count := countOf (convMode (State.src s).fpm o.rm) 1 }

/-- The special functions of one operand (R170, R171). -/
noncomputable def fspcTable : List ((VU → Instr) × (Fv → Fv)) :=
  [(.frcp, Fv.rcp), (.frsq, Fv.rsqrt), (.fsqrt, Fv.sqrt), (.fexp2, Fv.exp2), (.flog2, Fv.log2), (.fsinp, Fv.sinPi), (.fcosp, Fv.cosPi),
   (.ftanh, Fv.tanh)]

/-- A special function: rounded to nearest even, whatever the mode of FPM (R170). -/
def changeFspc (s : State) (o : VU) (f : Fv → Fv) : Change :=
  changeVU s o (fun a => BitVec.ofNat 32 (Fmt.round f32 0 false (flush32 (State.src s).fpm) 0 (f (in32 (State.src s).fpm a))))

/-- FDIV (R170, R171). -/
def changeFdiv (s : State) (o : VR) : Change :=
  changeVR s o (fun a b =>
    BitVec.ofNat 32 (Fmt.round f32 0 false (flush32 (State.src s).fpm) 0 (Fv.div (in32 (State.src s).fpm a) (in32 (State.src s).fpm b))))

/-- The block of 32 lanes from 32g that MXQ quantises: lanes outside the subset count as +0 (R168). -/
def mxBlock (s : State) (a g : Nat) : List Fv :=
  (List.range 32).map (fun i => if s.ctx.lanes.getLsbD (32 * g + i) then in32 (State.src s).fpm (State.elem s a (32 * g + i)).v else .fin false 0 0)

/-- What a block quantises to: scale code, elements, overflow (R59, R168). -/
def mxResult (s : State) (t : Fmt) (a g : Nat) : Nat × List Nat × Bool :=
  mxQuant t (modeOf (State.src s).fpm) ((List.range 32).map (fun i => State.draw s (32 * g + i) 0)) (mxBlock s a g)

/-- Is a lane of the block in the subset poisoned. -/
def mxPoison (s : State) (a g : Nat) : Bool :=
  (List.range 32).any (fun i => s.ctx.lanes.getLsbD (32 * g + i) && (State.elem s a (32 * g + i)).p)

/-- MXQ (R168): elements to the vector; the two codes and overflow bits to the scalar. -/
def changeMxq (s : State) (o : CVSK) (t : Fmt) : Change :=
  { vecs := [(o.v.toNat, fun l =>
      ⟨BitVec.ofNat 32 ((mxResult s t o.k.toNat (l / 32)).2.1.getD (l % 32) 0), mxPoison s o.k.toNat (l / 32)⟩, false)]
    scals := [(o.s.toNat, ⟨BitVec.ofNat 32 ((mxResult s t o.k.toNat 0).1 + 2 ^ 8 * (mxResult s t o.k.toNat 1).1
        + (if (mxResult s t o.k.toNat 0).2.2 then 2 ^ 16 else 0) + (if (mxResult s t o.k.toNat 1).2.2 then 2 ^ 17 else 0)),
      mxPoison s o.k.toNat 0 || mxPoison s o.k.toNat 1⟩)]
    count := countOf (modeOf (State.src s).fpm) 1 }

/-- MXDQ (R169): lane l takes the code of its block from the scalar. -/
def changeMxdq (s : State) (o : CVSK) (t : Fmt) (bits : Nat) : Change :=
  { vecs := [(o.v.toNat, fun l =>
      ⟨BitVec.ofNat 32 (Fmt.round f32 0 false (flush32 (State.src s).fpm) 0
        (mxDequant t (if l < 32 then ((State.sc s o.s.toNat).v.extractLsb' 0 8).toNat else ((State.sc s o.s.toNat).v.extractLsb' 8 8).toNat)
          ((State.elem s o.k.toNat l).v.toNat % 2 ^ bits))),
       (State.elem s o.k.toNat l).p || (State.sc s o.s.toNat).p⟩, false)] }

/-- The quantising and dequantising words. -/
noncomputable def mxqTable : List ((CVSK → Instr) × Fmt) := [(.mxqF8e4, f8e4), (.mxqF8e5, f8e5), (.mxqF4, f4)]
/-- MXDQ by element type, with the bits of an element. -/
noncomputable def mxdqTable : List ((CVSK → Instr) × Fmt × Nat) := [(.mxdqF8e4, f8e4, 8), (.mxdqF8e5, f8e5, 8), (.mxdqF4, f4, 4)]

/-! ## The functions of R59, R160, R161 and R171, from their rules -/

/-- The rational that a finite value is. -/
noncomputable def ratOf : Fv → ℚ
  | .fin neg m e => (if neg then -1 else 1) * (m : ℚ) * (2 : ℚ) ^ e
  | _ => 0

/-- The order of values that are not NaN. -/
inductive Less : Fv → Fv → Prop where
  | bottom (y : Fv) (h : y ≠ .nan) (n : y ≠ .inf true) : Less (.inf true) y
  | top (n : Bool) (m : Nat) (e : Int) : Less (.fin n m e) (.inf false)
  | finite (a b : Bool) (m n : Nat) (e f : Int) (h : ratOf (.fin a m e) < ratOf (.fin b n f)) : Less (.fin a m e) (.fin b n f)

/-- A pattern as it enters an operation (R64, R160): under a flush bit a subnormal is the zero of its sign. -/
def flushed (t : Fmt) (fl : Bool) (b : Nat) : Nat :=
  if fl = true ∧ b % 2 ^ Fmt.width t < 2 ^ t.mbits then b / 2 ^ Fmt.width t * 2 ^ Fmt.width t else b

/-- What fmin (or fmax, when `big`) gives for two patterns as they enter (R160). -/
inductive Selects (t : Fmt) (big : Bool) (a b : Nat) : Nat → Prop where
  | nans (x : Fmt.value t a = .nan) (y : Fmt.value t b = .nan) : Selects t big a b t.nanBits
  | right (x : Fmt.value t a = .nan) (y : Fmt.value t b ≠ .nan) : Selects t big a b b
  | left (x : Fmt.value t a ≠ .nan) (y : Fmt.value t b = .nan) : Selects t big a b a
  | zeros (n m : Bool) (e f : Int) (x : Fmt.value t a = .fin n 0 e) (y : Fmt.value t b = .fin m 0 f) :
      Selects t big a b (if (if big then n && m else n || m) then 2 ^ Fmt.width t else 0)
  | first (x : Fmt.value t a ≠ .nan) (y : Fmt.value t b ≠ .nan) (z : ¬ ∃ n m e f, Fmt.value t a = .fin n 0 e ∧ Fmt.value t b = .fin m 0 f)
      (h : ¬ if big then Less (Fmt.value t a) (Fmt.value t b) else Less (Fmt.value t b) (Fmt.value t a)) : Selects t big a b a
  | second (x : Fmt.value t a ≠ .nan) (y : Fmt.value t b ≠ .nan)
      (h : if big then Less (Fmt.value t a) (Fmt.value t b) else Less (Fmt.value t b) (Fmt.value t a)) : Selects t big a b b

/-- The class mask of an f32 pattern (R161). -/
inductive ClassOf (a : Word) : Nat → Prop where
  | nan (e : a.extractLsb' 23 8 = 255) (m : a.extractLsb' 0 23 ≠ 0) : ClassOf a 256
  | inf (e : a.extractLsb' 23 8 = 255) (m : a.extractLsb' 0 23 = 0) : ClassOf a (if a.getLsbD 31 then 1 else 128)
  | normal (e : a.extractLsb' 23 8 ≠ 255) (n : a.extractLsb' 23 8 ≠ 0) : ClassOf a (if a.getLsbD 31 then 2 else 64)
  | subnormal (e : a.extractLsb' 23 8 = 0) (m : a.extractLsb' 0 23 ≠ 0) : ClassOf a (if a.getLsbD 31 then 4 else 32)
  | zero (e : a.extractLsb' 23 8 = 0) (m : a.extractLsb' 0 23 = 0) : ClassOf a (if a.getLsbD 31 then 8 else 16)

/-- fldexp (R161): under a mode word and a draw. -/
inductive Scales (m : Word) (draw : Nat) (a b : Word) : Word → Prop where
  | nan (x : in32 m a = .nan) : Scales m draw a b 0x7FC00000
  | inf (n : Bool) (x : in32 m a = .inf n) : Scales m draw a b (if n then 0xFF800000 else 0x7F800000)
  | zero (n : Bool) (e : Int) (x : in32 m a = .fin n 0 e) : Scales m draw a b (if n then 0x80000000 else 0)
  | finite (n : Bool) (k : Nat) (e : Int) (x : in32 m a = .fin n k e) (h : k ≠ 0) : Scales m draw a b (out32 m draw (.fin n k (e + b.toInt)))

/-- ffrac (R161). -/
inductive Fraction (m : Word) (draw : Nat) (a : Word) : Word → Prop where
  | none (x : ∀ n k e, in32 m a ≠ .fin n k e) : Fraction m draw a 0x7FC00000
  | finite (n : Bool) (k : Nat) (e : Int) (q : Int) (r : Word) (x : in32 m a = .fin n k e)
      (f : (q : ℚ) ≤ ratOf (.fin n k e) ∧ ratOf (.fin n k e) < q + 1) (s : r = out32 m draw (exactSum m [.fin n k e, Fv.ofInt (-q)])) :
      Fraction m draw a (if r = 0x3F800000 then 0x3F7FFFFF else if r = 0x80000000 then 0 else r)

/-- Is a value finite. -/
def IsFinite (x : Fv) : Prop := ∃ n m e, x = .fin n m e

/-- flerp of a, b and t (R161), where its exact value is not zero. -/
inductive Lerps (m : Word) (draw : Nat) (a b t : Word) : Word → Prop where
  | nan (x : in32 m a = .nan ∨ in32 m b = .nan ∨ in32 m t = .nan) : Lerps m draw a b t 0x7FC00000
  | finite (n : Bool) (k : Nat) (e : Int) (x : IsFinite (in32 m a)) (y : IsFinite (in32 m b)) (z : IsFinite (in32 m t)) (h : k ≠ 0)
      (v : ratOf (.fin n k e) = ratOf (in32 m a) * (1 - ratOf (in32 m t)) + ratOf (in32 m b) * ratOf (in32 m t)) :
      Lerps m draw a b t (out32 m draw (.fin n k e))
  | common (n : Bool) (z : IsFinite (in32 m t)) (x : in32 m a = .inf n) (y : in32 m b = .inf n) :
      Lerps m draw a b t (if n then 0xFF800000 else 0x7F800000)
  | other (x : in32 m a ≠ .nan ∧ in32 m b ≠ .nan ∧ in32 m t ≠ .nan)
      (y : ¬ (IsFinite (in32 m a) ∧ IsFinite (in32 m b) ∧ IsFinite (in32 m t))) (z : ¬ (IsFinite (in32 m t) ∧ in32 m a = in32 m b)) :
      Lerps m draw a b t 0x7FC00000

/-- The weight of a finite number's leading bit. -/
def topBit : Fv → Int
  | .fin _ m e => Nat.log2 m + e
  | _ => 0

/-- The largest magnitude of a block is finite and not zero, with its leading bit of weight 2^k. -/
structure Peak (x : List Fv) (k : Int) : Prop where
  finite : ∀ v ∈ x, IsFinite v
  met    : ∃ n m e, Fv.fin n m e ∈ x ∧ m ≠ 0 ∧ topBit (.fin n m e) = k
  top    : ∀ n m e, Fv.fin n m e ∈ x → m ≠ 0 → topBit (.fin n m e) ≤ k

/-- A value divided by 2^k. -/
def dividedBy (k : Int) : Fv → Fv
  | .fin n m e => .fin n m (e - k)
  | v => v

/-- The elements of a block under the scale 2^k, saturating (R59). -/
def quantised (t : Fmt) (rm : Nat) (draws : List Nat) (x : List Fv) (k : Int) : List Nat :=
  List.zipWith (fun v r => Fmt.round t rm true false r (dividedBy k v)) x draws

/-- `mx_quant` (R59): code, elements, overflow. -/
inductive Quantises (t : Fmt) (emax : Int) (nan rm : Nat) (draws : List Nat) (x : List Fv) : Nat × List Nat × Bool → Prop where
  | nan (h : Fv.nan ∈ x) : Quantises t emax nan rm draws x (255, x.map (fun _ => nan), false)
  | inf (n : Bool) (h : Fv.nan ∉ x) (i : Fv.inf n ∈ x) : Quantises t emax nan rm draws x (254, quantised t rm draws x 127, true)
  | zero (h : ∀ v ∈ x, ∃ n e, v = .fin n 0 e) : Quantises t emax nan rm draws x (0, x.map (fun _ => 0), false)
  | over (k : Int) (p : Peak x k) (h : 127 < k - emax) : Quantises t emax nan rm draws x (254, quantised t rm draws x 127, true)
  | block (k : Int) (p : Peak x k) (h : k - emax ≤ 127) :
      Quantises t emax nan rm draws x ((max (k - emax) (-127) + 127).toNat, quantised t rm draws x (max (k - emax) (-127)), false)

/-- The element types of microscaled blocks, their EMAX and their NaN elements (R59). -/
def blockTypes : List (Fmt × Int × Nat) := [(f8e4, 8, 0x7F), (f8e5, 15, 0x7E), (f4, 2, 0)]

/-- An f32 rounding to nearest even. -/
def nearest (fl : Bool) (v : Fv) : Nat := Fmt.round f32 0 false fl 0 v

/-- The result of a special function (R170). -/
def spcOf (f : Fv → Fv) (fl : Bool) (a : Word) : Word := BitVec.ofNat 32 (nearest fl (f (Fmt.read f32 fl a.toNat)))

/-- The table of R171: function, results for minus infinity, -0, +0, plus infinity. -/
noncomputable def specialRows : List ((Fv → Fv) × Word × Word × Word × Word) :=
  [(Fv.rcp, 0x80000000, 0xFF800000, 0x7F800000, 0), (Fv.rsqrt, 0x7FC00000, 0xFF800000, 0x7F800000, 0),
   (Fv.sqrt, 0x7FC00000, 0x80000000, 0, 0x7F800000), (Fv.exp2, 0, 0x3F800000, 0x3F800000, 0x7F800000),
   (Fv.log2, 0x7FC00000, 0xFF800000, 0xFF800000, 0x7F800000), (Fv.sinPi, 0x7FC00000, 0x80000000, 0, 0x7FC00000),
   (Fv.cosPi, 0x7FC00000, 0x3F800000, 0x3F800000, 0x7FC00000), (Fv.tanh, 0xBF800000, 0x80000000, 0, 0x3F800000)]

/-- Special values of the special functions, and values that are exact (R170, R171). -/
inductive Special (fl : Bool) : (Fv → Fv) → Word → Word → Prop where
  | nan (e : (Fv → Fv) × Word × Word × Word × Word) (a : Word) (m : e ∈ specialRows) (x : Fmt.read f32 fl a.toNat = .nan) :
      Special fl e.1 a 0x7FC00000
  | minusInf (e : (Fv → Fv) × Word × Word × Word × Word) (m : e ∈ specialRows) : Special fl e.1 0xFF800000 e.2.1
  | minusZero (e : (Fv → Fv) × Word × Word × Word × Word) (m : e ∈ specialRows) : Special fl e.1 0x80000000 e.2.2.1
  | zero (e : (Fv → Fv) × Word × Word × Word × Word) (m : e ∈ specialRows) : Special fl e.1 0 e.2.2.2.1
  | inf (e : (Fv → Fv) × Word × Word × Word × Word) (m : e ∈ specialRows) : Special fl e.1 0x7F800000 e.2.2.2.2
  | negative (f : Fv → Fv) (a : Word) (k : Nat) (e : Int) (m : f = Fv.rsqrt ∨ f = Fv.sqrt ∨ f = Fv.log2)
      (x : Fmt.read f32 fl a.toNat = .fin true (k + 1) e) : Special fl f a 0x7FC00000
  | power (a : Word) (j : Int) (x : IsFinite (Fmt.read f32 fl a.toNat)) (v : ratOf (Fmt.read f32 fl a.toNat) = j) (b : -126 ≤ j ∧ j ≤ 127) :
      Special fl Fv.exp2 a (BitVec.ofNat 32 ((j + 127).toNat * 2 ^ 23))
  | small (a : Word) (j : Int) (f : fl = false) (x : IsFinite (Fmt.read f32 fl a.toNat)) (v : ratOf (Fmt.read f32 fl a.toNat) = j)
      (b : -149 ≤ j ∧ j < -126) : Special fl Fv.exp2 a (BitVec.ofNat 32 (2 ^ (j + 149).toNat))
  | log (a : Word) (j : Int) (x : IsFinite (Fmt.read f32 fl a.toNat)) (v : ratOf (Fmt.read f32 fl a.toNat) = (2 : ℚ) ^ j) :
      Special fl Fv.log2 a (BitVec.ofNat 32 (nearest false (Fv.ofInt j)))
  | root (a : Word) (k : Nat) (e : Int) (x : IsFinite (Fmt.read f32 fl a.toNat)) (h : k ≠ 0)
      (v : ratOf (Fmt.read f32 fl a.toNat) = ratOf (.fin false k e) ^ 2) : Special fl Fv.sqrt a (BitVec.ofNat 32 (nearest fl (.fin false k e)))
  | sinInteger (a : Word) (j : Int) (n : Bool) (m : Nat) (e : Int) (x : Fmt.read f32 fl a.toNat = .fin n m e) (v : ratOf (.fin n m e) = j) :
      Special fl Fv.sinPi a (if n then 0x80000000 else 0)
  | sinHalf (a : Word) (j : Int) (x : IsFinite (Fmt.read f32 fl a.toNat)) (v : ratOf (Fmt.read f32 fl a.toNat) = j + 1 / 2) :
      Special fl Fv.sinPi a (if j % 2 = 0 then 0x3F800000 else 0xBF800000)
  | cosInteger (a : Word) (j : Int) (x : IsFinite (Fmt.read f32 fl a.toNat)) (v : ratOf (Fmt.read f32 fl a.toNat) = j) :
      Special fl Fv.cosPi a (if j % 2 = 0 then 0x3F800000 else 0xBF800000)
  | cosHalf (a : Word) (j : Int) (x : IsFinite (Fmt.read f32 fl a.toNat)) (v : ratOf (Fmt.read f32 fl a.toNat) = j + 1 / 2) : Special fl Fv.cosPi a 0

/-- Special values of fdiv (R171): NaN, infinities and zeros. -/
inductive SpecialDiv : Fv → Fv → Word → Prop where
  | nan (x y : Fv) (h : x = .nan ∨ y = .nan) : SpecialDiv x y 0x7FC00000
  | infs (a b : Bool) : SpecialDiv (.inf a) (.inf b) 0x7FC00000
  | zeros (a b : Bool) (e f : Int) : SpecialDiv (.fin a 0 e) (.fin b 0 f) 0x7FC00000
  | inf (a b : Bool) (n : Nat) (f : Int) : SpecialDiv (.inf a) (.fin b n f) (if a = b then 0x7F800000 else 0xFF800000)
  | byZero (a b : Bool) (m : Nat) (e f : Int) (h : m ≠ 0) : SpecialDiv (.fin a m e) (.fin b 0 f) (if a = b then 0x7F800000 else 0xFF800000)
  | byInf (a b : Bool) (m : Nat) (e : Int) : SpecialDiv (.fin a m e) (.inf b) (if a = b then 0 else 0x80000000)
  | zero (a b : Bool) (n : Nat) (e f : Int) (h : n ≠ 0) : SpecialDiv (.fin a 0 e) (.fin b n f) (if a = b then 0 else 0x80000000)

/-- Two finite values on both sides of an exact result that round to one pattern: the result then rounds to it, as rounding keeps order (R170). -/
structure Closes (fl : Bool) (lo hi : Fv) (r : Nat) : Prop where
  finite : IsFinite lo ∧ IsFinite hi
  lo     : nearest fl lo = r
  hi     : nearest fl hi = r

/-- Exact results of the division and the roots that lie between two values. -/
inductive Between (fl : Bool) (lo hi : Fv) : Fv → Prop where
  | div (a b : Word) (x : IsFinite (Fmt.read f32 fl a.toNat)) (y : IsFinite (Fmt.read f32 fl b.toNat))
      (z : ratOf (Fmt.read f32 fl a.toNat) ≠ 0 ∧ ratOf (Fmt.read f32 fl b.toNat) ≠ 0)
      (h : ratOf lo ≤ ratOf (Fmt.read f32 fl a.toNat) / ratOf (Fmt.read f32 fl b.toNat)
        ∧ ratOf (Fmt.read f32 fl a.toNat) / ratOf (Fmt.read f32 fl b.toNat) ≤ ratOf hi) :
      Between fl lo hi (Fv.div (Fmt.read f32 fl a.toNat) (Fmt.read f32 fl b.toNat))
  | rcp (a : Word) (x : IsFinite (Fmt.read f32 fl a.toNat)) (z : ratOf (Fmt.read f32 fl a.toNat) ≠ 0)
      (h : ratOf lo ≤ 1 / ratOf (Fmt.read f32 fl a.toNat) ∧ 1 / ratOf (Fmt.read f32 fl a.toNat) ≤ ratOf hi) :
      Between fl lo hi (Fv.rcp (Fmt.read f32 fl a.toNat))
  | sqrt (a : Word) (x : IsFinite (Fmt.read f32 fl a.toNat)) (z : 0 < ratOf (Fmt.read f32 fl a.toNat)) (p : 0 ≤ ratOf lo ∧ 0 ≤ ratOf hi)
      (h : ratOf lo ^ 2 ≤ ratOf (Fmt.read f32 fl a.toNat) ∧ ratOf (Fmt.read f32 fl a.toNat) ≤ ratOf hi ^ 2) :
      Between fl lo hi (Fv.sqrt (Fmt.read f32 fl a.toNat))
  | rsqrt (a : Word) (x : IsFinite (Fmt.read f32 fl a.toNat)) (z : 0 < ratOf (Fmt.read f32 fl a.toNat)) (p : 0 ≤ ratOf lo ∧ 0 ≤ ratOf hi)
      (h : ratOf lo ^ 2 * ratOf (Fmt.read f32 fl a.toNat) ≤ 1 ∧ 1 ≤ ratOf hi ^ 2 * ratOf (Fmt.read f32 fl a.toNat)) :
      Between fl lo hi (Fv.rsqrt (Fmt.read f32 fl a.toNat))

end Sys2Proof.Claim
end

