-- ==== Sys2Proof/Claims/Compute.lean ====
section
/-! DEFINITION. What the statements say of the engines' results: exact row sums and drains of a pair (R70, R282 to R297), hash queries and gradients (R320 to R330), version steps (R322, R323), boxes and tiles of copies (R262 to R270). -/

namespace Sys2Proof.Claim

open Sys2Proof.Machine

/-! ## Pairs -/

/-- The rounding of an exact value to f32, to nearest even (R60, R62). -/
def toF32 (v : Fv) : Nat := Fmt.round f32 0 false false 0 v

/-- A finite number truncated towards zero to a multiple of 2^u, as that multiple (R70). -/
def truncAt (u : Int) : Fv → Int
  | .fin neg m e =>
    let k : Nat := if u ≤ e then m * 2 ^ (e - u).toNat else m / 2 ^ (u - e).toNat
    if neg then -(k : Int) else k
  | _ => 0

/-- `rowsum_f32` (R70): the products p into the accumulator's bits. -/
inductive RowSum (acc : Nat) (p : List Fv) : Nat → Prop where
  | nan (h : Fv.nan ∈ p ∨ (Fv.inf false ∈ p ∧ Fv.inf true ∈ p)) : RowSum acc p (toF32 (Fv.sum false [Fmt.value f32 acc, .nan]))
  | inf (n : Bool) (h : Fv.nan ∉ p) (i : Fv.inf n ∈ p) (o : Fv.inf (!n) ∉ p) :
      RowSum acc p (toF32 (Fv.sum false [Fmt.value f32 acc, .inf n]))
  | zero (h : ∀ v ∈ p, ∃ n e, v = .fin n 0 e) :
      RowSum acc p (toF32 (Fv.sum false [Fmt.value f32 acc, .fin (p.all (fun v => match v with | .fin true 0 _ => true | _ => false)) 0 0]))
  | sum (top : Int) (s : Int) (h : ∀ v ∈ p, ∃ n m e, v = .fin n m e) (e : ∃ n m x, Fv.fin n m x ∈ p ∧ m ≠ 0 ∧ topBit (.fin n m x) = top)
      (l : ∀ n m x, Fv.fin n m x ∈ p → m ≠ 0 → topBit (.fin n m x) ≤ top)
      (t : s = (p.map (truncAt (top - 60))).sum) :
      RowSum acc p (toF32 (Fv.sum false [Fmt.value f32 acc, Fmt.value f32 (toF32 (.fin (decide (s < 0)) s.natAbs (top - 60)))]))

/-- A bank's element and its poison. -/
def bankWord (d : Device) (p b r n : Nat) : Word := Tbl.getD (Device.pair d p).banks (b * 8192 + r * 128 + n) 0
/-- The poison of a bank's element. -/
def bankPois (d : Device) (p b r n : Nat) : Bool := (Device.pair d p).bankP.contains (b * 8192 + r * 128 + n)

/-- The operands of one product (R289): element and code of the streaming row, element and code of the slot's column. -/
structure Operands where
  a  : MVal
  sa : MVal
  w  : Nat × Bool
  sw : Nat × Bool

/-- The operands of product k of row r into column n (R285, R286, R288, R289). -/
def operandsOf (d : Device) (o : EngOp) (r n k : Nat) : Operands :=
  let p := Device.pair d (pairOf o.core)
  let j := o.ctl / 4 % 2
  { a := Device.aElem d o r k, sa := Device.aCode d o r (k / 32), w := Pair.slotElem p (fmtW o.fmt) j k n
    sw := if fmtMx o.fmt then Pair.slotCode p j n (k / 32) else (127, false) }

/-- The exact product of two elements with their microscale codes (R58, R70). -/
def productOf (f : Word) (x : Operands) : Fv :=
  Fv.mul (mxDequant (fmtOfType (fmtA f)) x.sa.v x.a.v) (mxDequant (fmtOfType (fmtB f)) x.sw.1 x.w.1)

/-- The indices that take part in a row pass (R289): those of the active bands. -/
def activeOf (o : EngOp) : List Nat :=
  (List.range (64 * (16 / fmtW o.fmt))).filter (fun k => o.shape.getLsbD (k / (16 / fmtW o.fmt) / 16))

/-- What row pass r of an `mmul` leaves (R289): each element of an active half of its bank's row, its poison, and every other element as before. -/
structure RowPassed (d d' : Device) (o : EngOp) (r : Nat) : Prop where
  sums : ∀ n < 128, o.shape.getLsbD (4 + n / 64) = true → fmtAcc o.fmt = false →
    ∃ v, RowSum (if o.ctl.testBit 3 then 0 else bankWord d (pairOf o.core) (o.ctl % 4) r n).toNat
        ((activeOf o).map (fun k => productOf o.fmt (operandsOf d o r n k))) v
      ∧ bankWord d' (pairOf o.core) (o.ctl % 4) r n = BitVec.ofNat 32 v
  ints : ∀ n < 128, o.shape.getLsbD (4 + n / 64) = true → fmtAcc o.fmt = true →
    bankWord d' (pairOf o.core) (o.ctl % 4) r n
      = BitVec.ofInt 32 ((if o.ctl.testBit 3 then 0 else (bankWord d (pairOf o.core) (o.ctl % 4) r n).toInt)
          + ((activeOf o).map (fun k => intElem (fmtA o.fmt) (operandsOf d o r n k).a.v * intElem (fmtB o.fmt) (operandsOf d o r n k).w.1)).sum)
  pois : ∀ n < 128, o.shape.getLsbD (4 + n / 64) = true →
    (bankPois d' (pairOf o.core) (o.ctl % 4) r n = true ↔
      (o.ctl.testBit 3 = false ∧ bankPois d (pairOf o.core) (o.ctl % 4) r n = true)
      ∨ ∃ k ∈ activeOf o, (operandsOf d o r n k).a.p = true ∨ (operandsOf d o r n k).sa.p = true
          ∨ (operandsOf d o r n k).w.2 = true ∨ (operandsOf d o r n k).sw.2 = true)
  rest : ∀ b < 4, ∀ q < 64, ∀ n < 128, (b ≠ o.ctl % 4 ∨ q ≠ r ∨ o.shape.getLsbD (4 + n / 64) = false) →
    bankWord d' (pairOf o.core) b q n = bankWord d (pairOf o.core) b q n ∧ bankPois d' (pairOf o.core) b q n = bankPois d (pairOf o.core) b q n
  slots : (Device.pair d' (pairOf o.core)).slots = (Device.pair d (pairOf o.core)).slots

/-- What an `mload` leaves in its slot (R286, R287): every element and code of it, with its poison; the other slot and the banks as before. -/
structure SlotLoaded (d d' : Device) (o : EngOp) : Prop where
  elems : ∀ k < 64 * (16 / fmtW o.fmt), ∀ n < 128,
    Pair.slotElem (Device.pair d' (pairOf o.core)) (fmtW o.fmt) o.reg k n = ((Device.wElem d o k n).v, (Device.wElem d o k n).p)
  codes : ∀ n < 128, ∀ j < 8,
    Pair.slotCode (Device.pair d' (pairOf o.core)) o.reg n j
      = if fmtMx o.fmt = true ∧ 32 * j < 64 * (16 / fmtW o.fmt) then ((Device.wCode d o n j).v, (Device.wCode d o n j).p) else (127, false)
  other : ∀ i < 2, i ≠ o.reg → ∀ k < 64 * (16 / fmtW o.fmt), ∀ n < 128,
    Pair.slotElem (Device.pair d' (pairOf o.core)) (fmtW o.fmt) i k n = Pair.slotElem (Device.pair d (pairOf o.core)) (fmtW o.fmt) i k n
  banks : (Device.pair d' (pairOf o.core)).banks = (Device.pair d (pairOf o.core)).banks

/-- The byte of stored element (i, j) of a tile of kind 0 or 1 (R190, R282). -/
def storedAt (m : MDesc) (base w i j : Nat) : Nat :=
  base + (if m.swiz then i * m.pitch + (Nat.xor (j * w / 8 / 16) (i % 8)) * 16 + j * w / 8 % 16 else i * m.pitch + j * w / 8)

/-- The value that a drain converts (R294). -/
def drained (o : EngOp) (c : DCtl) (x : Word) : Fv :=
  if c.scl then Fv.mul (Fmt.value f32 x.toNat) (Fmt.value f32 (o.scal.getD 1 0).toNat) else Fmt.value f32 x.toNat

/-- A drain's stochastic draw of row r, column n (R69). -/
def drawOf (o : EngOp) (r n : Nat) : Nat :=
  (mix32 (o.fmt >>> 16) (BitVec.ofNat 32 o.reg) (BitVec.ofNat 32 (o.ctl % 4 * 8192 + r * 128 + n))).toNat

/-- The element code that a drain makes of row r, column n, without microscaling (R294). -/
def drainedCode (o : EngOp) (c : DCtl) (x : Word) (r n : Nat) : Nat :=
  if fmtAcc o.fmt then
    if c.oty = 8 then (BitVec.ofInt 16 (max (-32768) (min 32767 x.toInt))).toNat
    else if c.oty = 10 then (BitVec.ofInt 8 (max (-128) (min 127 x.toInt))).toNat
    else x.toNat
  else Fmt.round (fmtOfType c.oty) (fmtDrm o.fmt) c.sat false (drawOf o r n) (drained o c x)

/-- The element that a register drain gives register i of lane l (R293). -/
def drainedElem (d : Device) (o : EngOp) (c : DCtl) (i l : Nat) : Word × Bool :=
  let p := pairOf o.core
  let b := o.ctl % 4
  if o.ctl / 4 % 8 = 0 then (bankWord d p b l (c.c0 + i), bankPois d p b l (c.c0 + i))
  else
    let half (n : Nat) : Nat := Fmt.round bf16 (fmtDrm o.fmt) c.sat false (drawOf o l n) (Fmt.value f32 (bankWord d p b l n).toNat)
    (BitVec.ofNat 32 (half (c.c0 + 2 * i) % 65536 + 65536 * (half (c.c0 + 2 * i + 1) % 65536)),
      bankPois d p b l (c.c0 + 2 * i) || bankPois d p b l (c.c0 + 2 * i + 1))

/-- What a register holds in a lane. -/
def holds (w : Wave) (id : RegId) (l : Nat) (x : Word × Bool) : Prop :=
  ∃ r, Wave.reg? w id = some r ∧ r.vals.getD l 0 = x.1 ∧ r.pois.getLsbD l = x.2

/-- Does a result of an operation reach a register in a lane (R93, R94, R100): one that it still takes, and whose element still lives. -/
def Reaches (w : Wave) (o : EngOp) (id : RegId) (l : Nat) : Prop :=
  l < 64 ∧ (Wave.takes w o id).getLsbD l = true ∧ ∃ r, Wave.reg? w id = some r ∧ r.live.getLsbD l = true ∧ r.vals.length = 64

/-- What a register drain leaves of its bank (R293): with `.clr` the elements drained are +0, poison clear. -/
def ClearedAs (d d' : Device) (o : EngOp) (c : DCtl) : Prop :=
  ∀ b < 4, ∀ r < 64, ∀ n < 128,
    if o.ctl.testBit 5 = true ∧ b = o.ctl % 4 ∧ o.mask.getLsbD r = true ∧ c.c0 ≤ n ∧ n < c.c0 + c.nc then
      bankWord d' (pairOf o.core) b r n = 0 ∧ bankPois d' (pairOf o.core) b r n = false
    else bankWord d' (pairOf o.core) b r n = bankWord d (pairOf o.core) b r n ∧ bankPois d' (pairOf o.core) b r n = bankPois d (pairOf o.core) b r n

/-! ## Hash tables -/

/-- The position of an axis in the unit interval (R327). -/
def unitOf (p : Word) : Fv :=
  let x := Fmt.value f32 p.toNat
  if Fv.isNan x = true ∨ Fv.lt (.fin false 0 0) x = false then .fin false 0 0 else if Fv.lt x (.fin false 1 0) = false then .fin false 1 0 else x

/-- The grid position of an axis, rounded (R327). -/
def gridOf (n : Nat) (p : Word) : Fv := Fmt.value f32 (toF32 (Fv.mul (unitOf p) (Fv.ofInt n)))
/-- The lower grid coordinate of an axis. -/
def cellOf (n : Nat) (p : Word) : Nat := min (Fv.floor (gridOf n p)).toNat (n - 1)
/-- The exact offset of an axis from it. -/
def offsetOf (n : Nat) (p : Word) : Fv := Fv.sum false [gridOf n p, Fv.ofInt (-(cellOf n p : Int))]
/-- The weight of an axis for its lower or upper coordinate. -/
def sideOf (n : Nat) (p : Word) (b : Nat) : Nat :=
  if b = 0 then toF32 (Fv.sum false [.fin false 1 0, Fv.opp (offsetOf n p)]) else toF32 (offsetOf n p)

/-- The weight of corner c (R327). -/
def weightOf (n : Nat) (x y z : Word) (c : Nat) : Nat :=
  toF32 (Fv.mul (Fmt.value f32 (toF32 (Fv.mul (Fmt.value f32 (sideOf n x (c % 2))) (Fmt.value f32 (sideOf n y (c / 2 % 2))))))
    (Fmt.value f32 (sideOf n z (c / 4))))

/-- The index of a grid point (R321). -/
def indexOf (n tb x y z : Nat) : Nat :=
  if (n + 1) ^ 3 ≤ 2 ^ tb then x + (n + 1) * (y + (n + 1) * z)
  else ((BitVec.ofNat 32 x ^^^ BitVec.ofNat 32 y * 0x9E3779B1#32) ^^^ BitVec.ofNat 32 z * 0x7FEB352D#32).toNat % 2 ^ tb

/-- The index of corner c (R321, R327). -/
def cornerOf (n tb : Nat) (x y z : Word) (c : Nat) : Nat :=
  indexOf n tb (cellOf n x + c % 2) (cellOf n y + c / 2 % 2) (cellOf n z + c / 4)

/-- NRES and TB of level l in a snapshot (R320). -/
def levelAt (snap : List Byte) (l : Nat) : Nat × Nat := (fieldAt snap (0x48 + 32 * l) 4, fieldAt snap (0x4C + 32 * l) 1)

/-- The position of a lane, captured at issue. -/
def posOf (o : EngOp) (l axis : Nat) : Word := (o.rows.getD axis []).getD l 0

/-- Corner c of level v for lane l: the index and the weight. -/
def lookOf (o : EngOp) (v l c : Nat) : Nat × Nat :=
  (cornerOf (levelAt o.hsnap v).1 (levelAt o.hsnap v).2 (posOf o l 0) (posOf o l 1) (posOf o l 2) c,
    weightOf (levelAt o.hsnap v).1 (posOf o l 0) (posOf o l 1) (posOf o l 2) c)

/-- Feature f of level v in lane l (R327): eight corners in a fixed order, one rounding each. -/
def featureOf (d : Device) (o : EngOp) (v l f : Nat) : Nat :=
  (List.range 8).foldl (fun acc c =>
    toF32 (Fv.sum false [Fv.mul (Fmt.value f32 (lookOf o v l c).2)
      (Fmt.value f16 ((Device.hashEntry d o v (lookOf o v l c).1).v / 2 ^ (16 * f) % 65536)), Fmt.value f32 acc])) 0

/-- The poison of a level in a lane (R329). -/
def featurePois (d : Device) (o : EngOp) (v l : Nat) : Bool :=
  (List.range 8).any (fun c => (Device.hashEntry d o v (lookOf o v l c).1).p)

/-- What a query gives register k of a lane (R326, R328). -/
def queried (d : Device) (o : EngOp) (k l : Nat) : Word × Bool :=
  let x := o.scal.getD 0 0
  let first := (x.extractLsb' 12 4).toNat
  let half (v f : Nat) : Nat := Fmt.round (if x.extractLsb' 8 2 = 2 then bf16 else f16) 0 false false 0 (Fmt.value f32 (featureOf d o v l f))
  if x.extractLsb' 8 2 = 0 then (BitVec.ofNat 32 (featureOf d o (first + k / 2) l (k % 2)), featurePois d o (first + k / 2) l)
  else (BitVec.ofNat 32 (half (first + k) 0 + 65536 * half (first + k) 1), featurePois d o (first + k) l)

/-- An addition of a `hxg` (R330): feature f of level L0 + i at corner c, in a lane that is no helper. -/
def Adds (o : EngOp) (a : DWord) (x : Nat) : Prop :=
  ∃ l < 64, o.mask.getLsbD l = true ∧ o.helpers.getLsbD l = false ∧ ∃ i ≤ ((o.scal.getD 0 0).extractLsb' 16 4).toNat, ∃ c < 8, ∃ f < 2,
    let v := ((o.scal.getD 0 0).extractLsb' 12 4).toNat + i
    a = BitVec.ofNat 64 (fieldAt o.hsnap 0x10 8 + 2 * fieldAt o.hsnap (0x40 + 32 * v) 8 + 8 * (lookOf o v l c).1 + 4 * f)
    ∧ x = toF32 (Fv.mul (Fmt.value f32 (lookOf o v l c).2) (Fmt.value f32 ((o.rows.getD (3 + 2 * i + f) []).getD l 0).toNat))

/-- A malformed configuration (R320). -/
def ConfigBad (bs : List Byte) : Prop :=
  fieldAt bs 0x28 1 = 0 ∨ 16 < fieldAt bs 0x28 1 ∨ 2 < fieldAt bs 0x29 1
  ∨ (∃ l < fieldAt bs 0x28 1, fieldAt bs (0x40 + 32 * l) 8 % 128 ≠ 0 ∨ (levelAt bs l).1 = 0 ∨ 16777215 < (levelAt bs l).1
      ∨ (levelAt bs l).2 < 10 ∨ 22 < (levelAt bs l).2)
  ∨ fieldAt bs 0 8 % 128 ≠ 0 ∨ fieldAt bs 8 8 % 128 ≠ 0 ∨ fieldAt bs 0x10 8 % 128 ≠ 0
  ∨ (fieldAt bs 0x29 1 = 1 ∧ (2 ^ 23 ≤ fieldAt bs 0 8 ∨ 2 ^ 23 ≤ fieldAt bs 8 8))
  ∨ (fieldAt bs 0x29 1 = 2 ∧ (2 ^ 20 ≤ fieldAt bs 0 8 ∨ 2 ^ 20 ≤ fieldAt bs 8 8))

/-- The header of a version step, as its home unit holds it (R319, R322). -/
structure HomeHeader (d : Device) (o : EngOp) (a : DWord) (t : Tr) (h : List Byte) : Prop where
  addr : a = pair64 (o.scal.getD 0 0) (o.scal.getD 1 0)
  bound : ¬ (o.kind = .vbind ∧ a = 0)
  form : canonical a = true ∧ a.toNat % 128 = 0
  leaf : Device.header d o.core o.asid a = .ok t
  bytes : h = Device.headerBytes d t 64

/-- The home unit writes a 4-byte field of a header, for a launch (R322). -/
def fieldWritten (lnch : Word) (o : EngOp) (t : Tr) (off v : Nat) (d : Device) : Device :=
  Device.writeBytes d { homeAgent o.core (o.core / 64) with lnch := lnch } o.asid false { t with pa := t.pa + off } (leBytes 4 v)

/-- The steps of `hxcfg`, `vbind` and `vpub` at the home unit (R323). -/
inductive Versions (d : Device) (o : EngOp) : Device → VOut → Prop where
  | nothing (k : o.kind = .vbind) (z : pair64 (o.scal.getD 0 0) (o.scal.getD 1 0) = 0) : Versions d o d ⟨0, 0, 0, none, none⟩
  | malformed (a : DWord) (e : a = pair64 (o.scal.getD 0 0) (o.scal.getD 1 0)) (n : ¬ (o.kind = .vbind ∧ a = 0))
      (f : ¬ (canonical a = true ∧ a.toNat % 128 = 0)) : Versions d o d ⟨3, 0, 0, none, some (a, 0x07)⟩
  | unreadable (a : DWord) (c : BitVec 8) (e : a = pair64 (o.scal.getD 0 0) (o.scal.getD 1 0)) (n : ¬ (o.kind = .vbind ∧ a = 0))
      (f : canonical a = true ∧ a.toNat % 128 = 0) (h : Device.header d o.core o.asid a = .error c) :
      Versions d o d ⟨3, 0, 0, none, some (a, c)⟩
  | configBusy (a : DWord) (t : Tr) (h : List Byte) (k : o.kind = .hxcfg) (w : HomeHeader d o a t h)
      (b : fieldAt h 0x30 4 ≠ 0 ∨ fieldAt h 0x34 4 ≠ 0) : Versions d o d ⟨1, fieldAt h 0x2C 4, 0, none, none⟩
  | configUnread (a : DWord) (t : Tr) (h : List Byte) (c : BitVec 8) (k : o.kind = .hxcfg) (w : HomeHeader d o a t h)
      (b : fieldAt h 0x30 4 = 0 ∧ fieldAt h 0x34 4 = 0) (s : Device.snapshot d o.core o.asid a t = .error c) :
      Versions d o d ⟨3, 0, 0, none, some (a, c)⟩
  | configBad (a : DWord) (t : Tr) (h bs : List Byte) (k : o.kind = .hxcfg) (w : HomeHeader d o a t h)
      (b : fieldAt h 0x30 4 = 0 ∧ fieldAt h 0x34 4 = 0) (s : Device.snapshot d o.core o.asid a t = .ok bs) (m : ConfigBad bs) :
      Versions d o d ⟨4, fieldAt h 0x2C 4, 0, none, none⟩
  | config (a : DWord) (t : Tr) (h bs : List Byte) (k : o.kind = .hxcfg) (w : HomeHeader d o a t h)
      (b : fieldAt h 0x30 4 = 0 ∧ fieldAt h 0x34 4 = 0) (s : Device.snapshot d o.core o.asid a t = .ok bs) (m : ¬ ConfigBad bs) :
      Versions d o (fieldWritten (Device.launch d o.launch).lnch o t 0x38 1 (fieldWritten (Device.launch d o.launch).lnch o t 0x2C 0 d)) ⟨0, 0, 0, none, none⟩
  | bindInvalid (a : DWord) (t : Tr) (h : List Byte) (k : o.kind = .vbind) (w : HomeHeader d o a t h) (b : fieldAt h 0x38 4 % 2 = 0) :
      Versions d o d ⟨2, fieldAt h 0x2C 4, 0, none, none⟩
  | bindUnread (a : DWord) (t : Tr) (h : List Byte) (c : BitVec 8) (k : o.kind = .vbind) (w : HomeHeader d o a t h) (b : fieldAt h 0x38 4 % 2 = 1)
      (s : Device.snapshot d o.core o.asid a t = .error c) : Versions d o d ⟨3, 0, 0, none, some (a, c)⟩
  | bindBad (a : DWord) (t : Tr) (h bs : List Byte) (k : o.kind = .vbind) (w : HomeHeader d o a t h) (b : fieldAt h 0x38 4 % 2 = 1)
      (s : Device.snapshot d o.core o.asid a t = .ok bs) (m : ConfigBad bs) : Versions d o d ⟨4, fieldAt h 0x2C 4, 0, none, none⟩
  | bind (a : DWord) (t : Tr) (h bs : List Byte) (v : Nat) (k : o.kind = .vbind) (w : HomeHeader d o a t h) (b : fieldAt h 0x38 4 % 2 = 1)
      (s : Device.snapshot d o.core o.asid a t = .ok bs) (m : ¬ ConfigBad bs) (e : v = fieldAt h 0x2C 4) :
      Versions d o (fieldWritten (Device.launch d o.launch).lnch o t (0x30 + 4 * (v % 2)) (fieldAt h (0x30 + 4 * (v % 2)) 4 + 1) d)
        ⟨0, v, fieldAt h (0x18 + 8 * (v % 2)) 8, some ⟨a, v, bs⟩, none⟩
  | pubInvalid (a : DWord) (t : Tr) (h : List Byte) (k : o.kind = .vpub) (w : HomeHeader d o a t h) (b : fieldAt h 0x38 4 % 2 = 0) :
      Versions d o d ⟨2, fieldAt h 0x2C 4, 0, none, none⟩
  | pubBusy (a : DWord) (t : Tr) (h : List Byte) (v : Nat) (k : o.kind = .vpub) (w : HomeHeader d o a t h) (b : fieldAt h 0x38 4 % 2 = 1)
      (e : v = fieldAt h 0x2C 4) (c : fieldAt h (0x30 + 4 * (v % 2)) 4 ≠ 0) : Versions d o d ⟨1, v, 0, none, none⟩
  | pub (a : DWord) (t : Tr) (h : List Byte) (v : Nat) (k : o.kind = .vpub) (w : HomeHeader d o a t h) (b : fieldAt h 0x38 4 % 2 = 1)
      (e : v = fieldAt h 0x2C 4) (c : fieldAt h (0x30 + 4 * (v % 2)) 4 = 0) :
      Versions d o (fieldWritten (Device.launch d o.launch).lnch o t 0x2C ((v + 1) % 2 ^ 32) d) ⟨0, (v + 1) % 2 ^ 32, 0, none, none⟩

/-! ## Copies -/

/-- The box index of row r in dimension i, dimension 1 fastest (R262). -/
def boxIndex (t : TRec) (r i : Nat) : Nat := r / ((List.range (i - 1)).map (fun j => t.box.getD (j + 1) 0)).prod % t.box.getD i 0

/-- The tensor coordinate of box row r in dimension i (R262). -/
def coordOf (t : TRec) (c : List Int) (r i : Nat) : Int := c.getD i 0 + (boxIndex t r i : Int)

/-- Is the element at coordinate x of dimension 0 in box row r in bounds (R262). -/
def InBox (t : TRec) (c : List Int) (r : Nat) (x : Int) : Prop :=
  (0 ≤ x ∧ x < (t.size.getD 0 0 : Int)) ∧ ∀ i, 1 ≤ i → i < t.rank → 0 ≤ coordOf t c r i ∧ coordOf t c r i < (t.size.getD i 0 : Int)

/-- The global address of that element (R262), of elements of whole bytes. -/
def elementAt (t : TRec) (c : List Int) (r : Nat) (x : Int) : DWord :=
  BitVec.ofInt 64 ((t.base : Int) + x * (t.w : Int) / 8
    + ((List.range (t.rank - 1)).map (fun j => coordOf t c r (j + 1) * (t.stride.getD (j + 1) 0 : Int))).sum)

/-- The word with which an out-of-bounds element is filled (R260, R262). -/
def fillOf (t : TRec) : Nat :=
  if t.oob = 0 then 0 else if t.oob = 1 then (fmtOfType t.typ).nanBits else t.fill % 2 ^ t.w

/-- A record that a copy accepts, with an origin of its rank, of elements of whole bytes (R261, R266). -/
structure BoxOk (t : TRec) (c : List Int) : Prop where
  good : t.bad = false
  rank : c.length = t.rank
  size : t.box.length = 9 ∧ t.size.length = 9 ∧ t.stride.length = 9
  whole : t.typ ≠ 5

/-- What stands behind byte k of box row r (R262): a byte of its element, or of the fill where that is out of bounds. -/
inductive BoxByte (t : TRec) (c : List Int) (r k : Nat) : BSrc → Prop where
  | elem (n : k < t.bx 0 * t.w / 8) (h : InBox t c r (c.getD 0 0 + (k / (t.w / 8) : Nat))) :
      BoxByte t c r k (.glob (elementAt t c r (c.getD 0 0 + (k / (t.w / 8) : Nat)) + BitVec.ofNat 64 (k % (t.w / 8))) 0xFF 0)
  | fill (n : k < t.bx 0 * t.w / 8) (h : ¬ InBox t c r (c.getD 0 0 + (k / (t.w / 8) : Nat))) :
      BoxByte t c r k (.fill (BitVec.ofNat 8 (fillOf t / 2 ^ (8 * (k % (t.w / 8))))))
  | none (n : t.bx 0 * t.w / 8 ≤ k) : BoxByte t c r k .skip

/-- Lane l of a lane copy: the global and the local address, the size (R265). -/
structure LaneWork (o : EngOp) (l : Nat) (g : DWord) (a z : Nat) : Prop where
  turn : ((List.range 64).filter (fun l => o.mask.getLsbD l && !o.helpers.getLsbD l))[o.phase]? = some l
  glob : g = pair64 (o.scal.getD 0 0) (o.scal.getD 1 0) + ((o.rows.getD 0 []).getD l 0).signExtend 64
  loc  : (a : Int) = ((o.scal.getD 2 0).toNat : Int) + ((o.rows.getD 1 []).getD l 0).toInt
  size : z = 4 * 2 ^ ((o.scal.getD 3 0).extractLsb' 0 2).toNat

/-- The first failure of an operation, in it and in its wave's first-poison record (R205, R269). -/
def failed (d : Device) (o : EngOp) (a : DWord) (c : BitVec 8) : Device × EngOp :=
  if o.err = none then
    (match Tbl.get? d.waves o.wave with
      | some w => Device.setWave d o.wave (if w.firstPoison = none then { w with firstPoison := some (a, c) } else w)
      | none => d, { o with err := some (a, c) })
  else (d, o)

/-- What a lane of `cpl` or `cpls` does (R265, R269, R270): its bytes arrive with poison clear; it fails alone, its destination elements poisoned, or its global bytes kept. -/
inductive LaneTile (d : Device) (o : EngOp) : Device × EngOp → Prop where
  | load (l a z : Nat) (g : DWord) (bs : List Byte) (d' : Device) (k : o.kind = .cpl) (t : LaneWork o l g a z)
      (r : Device.engLoad d o g z = .ok (d', bs)) (m : Device.memBad d' (2 ^ 48 + o.core / 8 * 2 ^ 23 + a) z = false) :
      LaneTile d o
        (Device.setSramPois (Device.arriveWrite d' (o.core / 8) o.id a bs) (o.core / 8) a (z / 4) false,
          { o with phase := o.phase + 1, wrote := o.wrote ++ (List.range z).map (fun i => 2 ^ 48 + o.core / 8 * 2 ^ 23 + (a + i)) })
  | loadFails (l a z : Nat) (g : DWord) (c : BitVec 8) (k : o.kind = .cpl) (t : LaneWork o l g a z) (r : Device.engLoad d o g z = .error c) :
      LaneTile d o
        (Device.setSramPois (failed d o g c).1 (o.core / 8) a (z / 4) true, { (failed d o g c).2 with phase := o.phase + 1 })
  | loadLost (l a z : Nat) (g : DWord) (bs : List Byte) (d' : Device) (k : o.kind = .cpl) (t : LaneWork o l g a z)
      (r : Device.engLoad d o g z = .ok (d', bs)) (m : Device.memBad d' (2 ^ 48 + o.core / 8 * 2 ^ 23 + a) z = true) :
      LaneTile d o
        (Device.setSramPois (failed d' o (localForm a) 0x0F).1 (o.core / 8) a (z / 4) true, { (failed d' o (localForm a) 0x0F).2 with phase := o.phase + 1 })
  | unread (l a z i : Nat) (g : DWord) (k : o.kind = .cpls) (t : LaneWork o l g a z) (n : i < z / 4)
      (p : Device.sramPois d (o.core / 8) (a + 4 * i) = false) (m : Device.memBad d (2 ^ 48 + o.core / 8 * 2 ^ 23 + (a + 4 * i)) 4 = true)
      (b : ∀ j < i, Device.sramPois d (o.core / 8) (a + 4 * j) = false ∧ Device.memBad d (2 ^ 48 + o.core / 8 * 2 ^ 23 + (a + 4 * j)) 4 = false) :
      LaneTile d o
        ((failed d o (localForm (a + 4 * i)) 0x0F).1, { (failed d o (localForm (a + 4 * i)) 0x0F).2 with phase := o.phase + 1 })
  | poisoned (l a z i : Nat) (g : DWord) (k : o.kind = .cpls) (t : LaneWork o l g a z) (n : i < z / 4)
      (p : Device.sramPois d (o.core / 8) (a + 4 * i) = true)
      (b : ∀ j < i, Device.sramPois d (o.core / 8) (a + 4 * j) = false ∧ Device.memBad d (2 ^ 48 + o.core / 8 * 2 ^ 23 + (a + 4 * j)) 4 = false) :
      LaneTile d o
        ((failed d o (localForm (a + 4 * i)) 0x05).1, { (failed d o (localForm (a + 4 * i)) 0x05).2 with phase := o.phase + 1 })
  | storeFails (l a z : Nat) (g : DWord) (c : BitVec 8) (k : o.kind = .cpls) (t : LaneWork o l g a z)
      (p : ∀ j < z / 4, Device.sramPois d (o.core / 8) (a + 4 * j) = false ∧ Device.memBad d (2 ^ 48 + o.core / 8 * 2 ^ 23 + (a + 4 * j)) 4 = false)
      (r : Device.engTarget d o g z = .error c) :
      LaneTile d o ((failed d o g c).1, { (failed d o g c).2 with phase := o.phase + 1 })
  | store (l a z : Nat) (g : DWord) (tr : Tr) (k : o.kind = .cpls) (t : LaneWork o l g a z)
      (p : ∀ j < z / 4, Device.sramPois d (o.core / 8) (a + 4 * j) = false ∧ Device.memBad d (2 ^ 48 + o.core / 8 * 2 ^ 23 + (a + 4 * j)) 4 = false)
      (r : Device.engTarget d o g z = .ok tr) :
      LaneTile d o
        (Device.engStore d o tr (Memory.readN d.mem (2 ^ 48 + o.core / 8 * 2 ^ 23 + a) z),
          { o with phase := o.phase + 1, wrote := o.wrote ++ (List.range z).map (fun i => tr.pa + i) })

/-- A failing tile of a box copy (R269): nothing of it or of a later tile is written; towards SRAM their elements are poisoned in each destination. -/
def boxStops (d : Device) (o : EngOp) (a : DWord) (c : BitVec 8) (tiles : Nat) : Device × EngOp :=
  (if o.kind = .cpt then
      o.aux.foldl (fun d b => Device.setSramPois d (o.core / 8) (b + 128 * o.phase) (32 * (tiles - o.phase)) true) (failed d o a c).1
    else (failed d o a c).1,
    { (failed d o a c).2 with phase := tiles })

/-- The failing bytes of a tile of a `cpt` that come from global memory. -/
def SourceFails (d : Device) (o : EngOp) (t : TRec) (a : DWord) (c : BitVec 8) : Prop :=
  ∃ i < 128, ∃ m f, t.byteAt (boxOrigin o.scal t.rank) (128 * o.phase + i) = .glob a m f ∧ Device.engByte d o a = .error c

/-- When a tile of a `cpt` fails on a source byte (R269), and where: at the lowest global address that fails. -/
structure TileStops (d : Device) (o : EngOp) (t : TRec) (a : DWord) (c : BitVec 8) : Prop where
  kind : o.kind = .cpt
  desc : t = TRec.of o.desc
  bad  : SourceFails d o t a c
  low  : ∀ b x, SourceFails d o t b x → a.toNat ≤ b.toNat

end Sys2Proof.Claim
end

