-- ==== Sys2Proof/Claims/Save.lean ====
section
/-! DEFINITION. What the statements say of waves that start (R390, R393), of what a save slot holds (R443, R444) and of what a restore gives back (R445, R446). -/

namespace Sys2Proof.Claim

open Sys2Proof.Machine

/-! ## Starting -/

/-- A wave as it starts (R393, R394, R428): its workgroup's linear index g, its place in the gang and in the workgroup, the first allocation. -/
structure Started (r : LRec) (core wg g gx gy gz index wid : Nat) (base : Option Nat) (w : Wave) : Prop where
  place  : w.wg = wg ∧ w.wid = wid ∧ w.core = core
  argp   : Wave.sc w 0 = ⟨r.argp.extractLsb' 0 32, false⟩ ∧ Wave.sc w 1 = ⟨r.argp.extractLsb' 32 32, false⟩
  group  : Wave.sc w 2 = ⟨BitVec.ofNat 32 gx, false⟩ ∧ Wave.sc w 3 = ⟨BitVec.ofNat 32 gy, false⟩ ∧ Wave.sc w 4 = ⟨BitVec.ofNat 32 gz, false⟩
  index  : Wave.sc w 5 = ⟨BitVec.ofNat 32 index, false⟩ ∧ Wave.sc w 6 = ⟨BitVec.ofNat 32 wid, false⟩
  first  : Wave.sc w 7 = ⟨(base.map (BitVec.ofNat 32)).getD 0xFFFFFFFF, false⟩
  user   : ∀ i < 30, Wave.sc w (8 + i) = ⟨r.user.getD i 0, false⟩
  others : ∀ n, 38 ≤ n → n < 256 → Wave.sc w n = ⟨0, false⟩
  lanes  : ∀ l < 64, w.pcs.getD l 0 = r.entry ∧ w.wbs.getD l 0 = 0
  masks  : w.helper = (startMasks r wid).1 ∧ w.exited = (startMasks r wid).2 ∧ w.waiting = 0 ∧ w.epmask = 0
  regs   : (∀ id, Wave.reg? w id = none) ∧ Wave.heldUnits w = 0
  preds  : ∀ k, 1 ≤ k → k < 8 → Wave.pred w k = ⟨0, 0⟩
  flags  : ∀ q < 4, w.flags.getD q ⟨false, false⟩ = ⟨false, false⟩
  modes  : w.fpm = 0 ∧ w.fmt = 0 ∧ w.shape = 0x3F
  limits : w.quota = r.quota ∧ w.wlim = r.wlim ∧ w.wdog = r.wdog
  wsp    : w.wsp = r.spbase + BitVec.ofNat 64 (r.spstr * (g * r.waves + wid))
  frame  : w.tbas = r.tbas ∧ w.tfrm = r.tfrb + BitVec.ofNat 64 (16384 * (g * r.waves + wid)) ∧ w.tbasLo = none ∧ w.tfrmLo = none
  zero   : w.scount = 0 ∧ w.tokw = 0 ∧ w.cycLatch = 0 ∧ w.stepLatch = 0 ∧ ∀ c < 8, Wave.counter w c = 0
  calm   : w.handler = false ∧ w.ptraps = [] ∧ w.firstPoison = none ∧ w.ended = false ∧ w.launches = [] ∧ w.rays = []

/-- The first allocation of a workgroup. -/
def firstBase (d : Device) (wg : Nat) : Option Nat := (Device.wg d wg).allocs.head?.map (fun a => a.base)

/-! ## What a slot holds -/

/-- Byte a of pieces laid down one after another over zeroes: that of the last one that covers it. -/
def pieceByte (ps : List (Nat × List Byte)) (a : Nat) : Byte :=
  ps.foldl (fun x p => if p.1 ≤ a ∧ a < p.1 + p.2.length then p.2.getD (a - p.1) 0 else x) 0

/-- Bytes of pieces. -/
def pieceBytes (ps : List (Nat × List Byte)) (a n : Nat) : List Byte := (List.range n).map (fun i => pieceByte ps (a + i))

/-- The pieces of a workgroup's slot in the order in which they are written (R443). -/
def slotPieces (d : Device) (sv : Saved) (e : Nat × Workgroup) : List (Nat × List Byte) :=
  let pair := if e.2.core % 2 = 0 then Tbl.get? sv.pairs (pairOf e.2.core % 4) else none
  Device.wgPieces d sv e ((pair.map Pair.flagBits).getD 0) ++ (pair.map Pair.pieces).getD []
    ++ e.2.waves.flatMap (fun u =>
      let w := Tbl.getD sv.waves u Wave.blank
      (Wave.block w (progImage sv.progs u)).map (fun p => (0x40000 + 65536 * w.wid + p.1, p.2)))

/-- A number of n bytes, low byte first. -/
def numBytes (n v : Nat) : List Byte := (List.range n).map (fun i => BitVec.ofNat 8 (v / 256 ^ i))

/-- The fields of a slot's header, barrier registers and allocations (R443). -/
inductive HeaderField (d : Device) (sv : Saved) (e : Nat × Workgroup) (flags : Nat) : Nat → List Byte → Prop where
  | lnch : HeaderField d sv e flags 0 (numBytes 4 (Device.launch d (Device.gang d e.2.gang).launch).lnch.toNat)
  | queue : HeaderField d sv e flags 4 (numBytes 1 (Device.launch d (Device.gang d e.2.gang).launch).queue)
  | index : HeaderField d sv e flags 5 (numBytes 1 e.2.index)
  | waves : HeaderField d sv e flags 6 (numBytes 1 e.2.waves.length)
  | noGroup (g : e.2.group = none) : HeaderField d sv e flags 7 [0xFF]
  | group (g : Nat) (h : e.2.group = some g) : HeaderField d sv e flags 7 (numBytes 1 g)
  | gx : HeaderField d sv e flags 8 (numBytes 4 (Device.gang d e.2.gang).gx)
  | gy : HeaderField d sv e flags 12 (numBytes 4 (Device.gang d e.2.gang).gy)
  | gz : HeaderField d sv e flags 16 (numBytes 4 (Device.gang d e.2.gang).gz)
  | successor (a : DWord) (h : e.2.succ = .entry a) : HeaderField d sv e flags 0x18 (numBytes 8 a.toNat)
  | noSuccessor (h : e.2.succ = .unset) : HeaderField d sv e flags 0x18 (numBytes 8 0)
  | pair : HeaderField d sv e flags 0x20 (numBytes 4 flags)
  | bar (b : Nat) (x : Bar) (h : e.2.bars[b]? = some x) :
      HeaderField d sv e flags (0x100 + 16 * b) (numBytes 4 x.e ++ numBytes 4 x.pend ++ numBytes 1 x.ph.toNat ++ numBytes 1 x.err.toNat
        ++ numBytes 1 x.ecode.toNat ++ numBytes 1 x.lerr.toNat ++ numBytes 1 x.lcode.toNat)
  | alloc (i : Nat) (a : Alloc) (h : e.2.allocs[i]? = some a) : HeaderField d sv e flags (0x200 + 8 * i) (numBytes 4 a.base ++ numBytes 4 a.blocks)
  | poisonedDesc (i : Nat) (x : Desc) (h : e.2.descs[i]? = some x) (p : x.pois = true) : HeaderField d sv e flags (0x1000 + 256 * i + 255) [1]
  | desc (i : Nat) (x : Desc) (h : e.2.descs[i]? = some x) (p : x.pois = false) (u : ∃ b ∈ x.bytes.take 255, b ≠ 0) :
      HeaderField d sv e flags (0x1000 + 256 * i) x.bytes

/-- A workgroup whose header has room for what it holds: 16 barrier registers, 16 descriptor slots of 256 bytes, at most 256 allocations. -/
structure HeaderFits (wg : Workgroup) : Prop where
  bars   : wg.bars.length = 16
  descs  : wg.descs.length = 16
  bytes  : ∀ x ∈ wg.descs, x.bytes.length = 256
  allocs : wg.allocs.length ≤ 256

/-- The fields of a wave's block (R431, R444). -/
inductive BlockField (w : Wave) : Nat → List Byte → Prop where
  | trc : BlockField w 0 [0x12]
  | entries : BlockField w 1 (numBytes 1 w.held.length)
  | mode : BlockField w 6 (numBytes 1 w.handler.toNat)
  | exited : BlockField w 0x38 (numBytes 8 w.exited.toNat)
  | helper : BlockField w 0x40 (numBytes 8 w.helper.toNat)
  | waiting : BlockField w 0x48 (numBytes 8 w.waiting.toNat)
  | pc (l : Nat) (h : l < 64) : BlockField w (0x100 + 8 * l) (numBytes 8 (w.pcs.getD l 0).toNat)
  | wb (l : Nat) (h : l < 64) : BlockField w (0x300 + 2 * l) (numBytes 2 (w.wbs.getD l 0))
  | scalar (n : Nat) (h : n < 256) : BlockField w (0x4000 + 4 * n) (numBytes 4 (Wave.sc w n).v.toNat)
  | wlim : BlockField w 0x4420 (numBytes 2 w.wlim)
  | quota : BlockField w 0x4422 (numBytes 2 w.quota)
  | wdog : BlockField w 0x4424 (numBytes 4 w.wdog.toNat)
  | wsp : BlockField w 0x4428 (numBytes 8 w.wsp.toNat)
  | fpm : BlockField w 0x4430 (numBytes 4 w.fpm.toNat)
  | fmt : BlockField w 0x4434 (numBytes 4 w.fmt.toNat)
  | shape : BlockField w 0x4438 (numBytes 1 w.shape.toNat)
  | tokw : BlockField w 0x4440 (numBytes 4 w.tokw.toNat)
  | scount : BlockField w 0x4444 (numBytes 4 w.scount.toNat)
  | cyc : BlockField w 0x4448 (numBytes 4 w.cycLatch.toNat)
  | step : BlockField w 0x444C (numBytes 4 w.stepLatch.toNat)
  | counter (c : Nat) (h : c < 8) : BlockField w (0x4450 + c) (numBytes 1 (Wave.counter w c))
  | version (b : VBind) (h : w.vbind = some b) : BlockField w 0x4458 (numBytes 8 b.header.toNat ++ numBytes 4 b.ver)
  | layout (b : TBind) (h : w.tlay = some b) : BlockField w 0x4468 (numBytes 8 b.addr.toNat)
  | program (b : TBind) (h : w.tcode = some b) : BlockField w 0x4470 (numBytes 8 b.addr.toNat)
  | pred (k : Nat) (h : 1 ≤ k ∧ k < 8) : BlockField w (0x4470 + 16 * k) (numBytes 8 (Wave.pred w k).v.toNat ++ numBytes 8 (Wave.pred w k).p.toNat)
  | launch (i : Nat) (p : PLaunch) (h : w.launches[i]? = some p) :
      BlockField w (0x4500 + 16 * i) (numBytes 8 p.record.toNat ++ numBytes 4 p.queue ++ numBytes 4 p.depth)
  | reg (n l : Nat) (h : n < 16 ∧ l < 64) : BlockField w (0x5000 + 256 * n + 4 * l) (numBytes 4 (VReg.elem (optReg (Tbl.get? w.vfix n)) l).v.toNat)
  | live (n : Nat) (h : n < 16) : BlockField w (0x6000 + 8 * n) (numBytes 8 (optReg (Tbl.get? w.vfix n)).live.toNat)
  | pois (n : Nat) (h : n < 16) : BlockField w (0x6080 + 8 * n) (numBytes 8 (optReg (Tbl.get? w.vfix n)).pois.toNat)
  | reserve (i l : Nat) (m : w.handler = true) (h : i < 48 ∧ l < 64) :
      BlockField w (0x7000 + 256 * i + 4 * l) (numBytes 4 (VReg.elem (optReg (Wave.reg? w (.pos (w.wlim + i)))) l).v.toNat)
  | ray (l : Nat) (r : Ray) (h : Tbl.get? w.rays l = some r) : BlockField w (0xF800 + l) (if r.st = .finished then [2] else [1])
  | noRay (l : Nat) (b : l < 64) (h : Tbl.get? w.rays l = none) : BlockField w (0xF800 + l) [0]
  | fetched (l : Nat) (r : Ray) (h : Tbl.get? w.rays l = some r) : BlockField w (0xF840 + 16 * l) (numBytes 8 r.nodeAddr.toNat ++ numBytes 1 r.nodeClass)
  | record (l : Nat) (r : Ray) (h : Tbl.get? w.rays l = some r) (s : r.st ≠ .finished) : BlockField w (0xB000 + 256 * l) (r.recordBytes 0 0)
  | result (l i : Nat) (r : Ray) (h : Tbl.get? w.rays l = some r) (s : r.st = .finished) (b : i < 8) :
      BlockField w (0xF000 + 32 * l + 4 * i) (numBytes 4 (tgetWord (some r) l i).toNat)
  | tbas : BlockField w 0xFC40 (numBytes 8 w.tbas.toNat)
  | tfrm : BlockField w 0xFC48 (numBytes 8 w.tfrm.toNat)
  | trapped (m : w.handler = true) :
      BlockField w 0xFC50 (numBytes 1 w.trc.toNat ++ numBytes 1 w.trqn ++ numBytes 2 w.trwb ++ numBytes 4 0 ++ numBytes 8 w.trlm.toNat
        ++ numBytes 8 w.tram.toNat ++ numBytes 8 w.trpc.toNat ++ numBytes 8 w.trpa.toNat)
  | staged : BlockField w 0xFC80 (numBytes 4 (w.tbasLo.isSome.toNat + 2 * w.tfrmLo.isSome.toNat))

/-- A wave whose block has room for what it holds (R397, R429, R444): a ray a lane with records of 256 bytes, four pending launches, programs in 1 KiB. -/
structure BlockFits (w : Wave) (progs : List Byte) : Prop where
  rays     : (w.rays.map (fun e => e.1)).Nodup ∧ ∀ e ∈ w.rays, e.1 < 64 ∧ (e.2.recordBytes 0 0).length = 256
  launches : w.launches.length ≤ 4
  progs    : progs.length ≤ 1024

/-! ## What a restore gives back -/

/-- A stopped wave whose values fit their fields (R431, R441, R444): every window position outside the handler reserve is spilled. -/
structure AtRest (w : Wave) : Prop where
  limits   : w.wlim < 65536 ∧ w.quota < 65536 ∧ w.trqn < 256 ∧ w.trwb < 65536
  wbs      : ∀ l < 64, w.wbs.getD l 0 < 65536
  fpm      : w.fpm &&& 0xFFFF001F = w.fpm
  launches : ∀ p ∈ w.launches, p.queue < 2 ^ 32 ∧ p.depth < 2 ^ 32
  poison   : ∀ a c, w.firstPoison = some (a, c) → c ≠ 0
  held     : w.held.length ≤ 6 ∧ ∀ r ∈ w.held, r.nlit < 4 ∧ r.cls < 8
  spilled  : ∀ e ∈ w.win, e.2.st = .spilled ∨ (w.handler = true ∧ w.wlim ≤ e.1 ∧ e.1 < w.wlim + 48)

/-- A restored wave is the saved one in all that its block holds, and in what the device keeps (R442, R444, R445, R446). -/
structure GivenBack (w x : Wave) : Prop where
  scalars : ∀ n < 256, Wave.sc x n = Wave.sc w n
  preds   : ∀ k, 1 ≤ k → k < 8 → Wave.pred x k = Wave.pred w k
  flags   : ∀ q < 4, x.flags.getD q ⟨false, false⟩ = w.flags.getD q ⟨false, false⟩
  lanes   : ∀ l < 64, x.pcs.getD l 0 = w.pcs.getD l 0 ∧ x.wbs.getD l 0 = w.wbs.getD l 0
  masks   : x.exited = w.exited ∧ x.helper = w.helper ∧ x.waiting = w.waiting ∧ x.epmask = w.epmask
  limits  : x.wlim = w.wlim ∧ x.quota = w.quota ∧ x.wdog = w.wdog ∧ x.wsp = w.wsp
  modes   : x.fpm = w.fpm ∧ x.fmt = w.fmt ∧ x.shape = w.shape
  counts  : x.tokw = w.tokw ∧ x.scount = w.scount ∧ x.cycLatch = w.cycLatch ∧ x.stepLatch = w.stepLatch
  fixed   : ∀ n < 16, (optReg (Tbl.get? x.vfix n)).live = (optReg (Tbl.get? w.vfix n)).live
              ∧ ∀ l < 64, Wave.elemOf x (.fixed n) l = Wave.elemOf w (.fixed n) l
  window  : ∀ p, ¬ (w.handler = true ∧ w.wlim ≤ p ∧ p < w.wlim + 48) → Tbl.get? x.win p = Tbl.get? w.win p
  reserve : w.handler = true → ∀ i < 48, ∀ l < 64, Wave.elemOf x (.pos (w.wlim + i)) l = Wave.elemOf w (.pos (w.wlim + i)) l
  traps   : x.handler = w.handler ∧ x.ptraps = w.ptraps ∧ x.firstPoison = w.firstPoison ∧ x.tbas = w.tbas ∧ x.tfrm = w.tfrm
              ∧ x.tbasLo = w.tbasLo ∧ x.tfrmLo = w.tfrmLo
  trapped : w.handler = true → x.trc = w.trc ∧ x.trqn = w.trqn ∧ x.trwb = w.trwb ∧ x.trlm = w.trlm ∧ x.tram = w.tram ∧ x.trpc = w.trpc ∧ x.trpa = w.trpa
  held    : x.held.map Replay.image = w.held.map Replay.image
  work    : x.outs = w.outs ∧ x.launches = w.launches ∧ x.frames = w.frames ∧ x.vbind = w.vbind ∧ x.tlay = w.tlay ∧ x.tcode = w.tcode
  place   : x.wg = w.wg ∧ x.wid = w.wid

/-- May a saved workgroup go back as it was (R443, R445): its slot can be read and breaks none of its rules. -/
structure SlotGood (d : Device) (sv : Saved) (e : Nat × Workgroup) (slot : Nat) : Prop where
  read   : Device.memBad d (Device.slotBase d sv.die slot) slotSize = false
  blocks : ∀ u ∈ e.2.waves, blockBad (Tbl.getD sv.waves u Wave.blank)
             (fun o k => Device.slotRd d sv slot (0x40000 + 65536 * (Tbl.getD sv.waves u Wave.blank).wid + o) k) = false
  wg     : (Device.wgOfSlot d sv (Device.slotRd d sv slot) e).isSome = true

/-- A pair as its slot gives it back (R443): banks, slots, scale codes, all poison, flags. -/
structure PairBack (p x : Pair) : Prop where
  banks  : ∀ i < 32768, Tbl.getD x.banks i 0 = Tbl.getD p.banks i 0 ∧ (x.bankP.contains i = p.bankP.contains i)
  slots  : ∀ i < 16384, Tbl.getD x.slots i 0 = Tbl.getD p.slots i 0
  scales : ∀ i < 2048, Tbl.getD x.scales i 127 = Tbl.getD p.scales i 127
  pois   : ∀ j, x.slotP.contains j = p.slotP.contains j
  flags  : x.sat = p.sat ∧ x.perr = p.perr ∧ x.flt = p.flt

/-- A slot that holds a pair (R443). -/
structure HoldsPair (d : Device) (base : Nat) (p : Pair) : Prop where
  bytes : ∀ a, 0x240000 ≤ a → a < 0x26A000 → Device.memByte d 0 (base + a) = pieceByte (Pair.pieces p) a
  flags : (List.range 4).map (fun i => Device.memByte d 0 (base + 0x20 + i)) = numBytes 4 (Pair.flagBits p)

end Sys2Proof.Claim
end

