-- ==== Sys2Proof/Claims/Turn.lean ====
section
/-! DEFINITION. What the statements say of an issue turn (R22 to R32, R78 to R85, R88, R101, R104, R426): when a core's one wave with one key issues a chain, what its words find, what the turn leaves; which keys a turn picks. -/

namespace Sys2Proof.Claim

open Sys2Proof.Machine

/-- The core's turn comes next, its one wave stands in an active slot and forms one key, with no trap pending (R75 to R79, R427). -/
structure OneKey (s : State) (core : Nat) (defer : Bool) (rest : List Action) (u slot : Nat) (w : Wave) (k : Key) : Prop where
  inbox  : s.dev.inbox = []
  turn   : s.agenda = .turn core defer :: rest
  clocks : s.dev.sys.held = false
  wave   : Device.wavesOn s.dev core = [(u, w)] ∧ Tbl.get? s.dev.waves u = some w
  slot   : w.active = some slot ∧ slot < 8 ∧ w.fresh = false ∧ w.preempt = false
  none   : Wave.duePending w = none
  key    : Wave.keys w = [k]

/-- The address of the n-th word from an address on. -/
def wordAt (a : DWord) (n : Nat) : DWord := a + BitVec.ofNat 64 (4 * n)

/-- The words that stand at the key's PC up to the end of its chain (R22): each but the last has C = 1, and they stay within the 12 bytes of a line's group. -/
structure Fetched (s : State) (core : Nat) (w : Wave) (k : Key) (xs : List Word) : Prop where
  any   : xs ≠ []
  group : k.pc.toNat % 12 / 4 + xs.length ≤ 3
  words : ∀ j x, xs[j]? = some x → Device.fetchWord s.dev core (Device.asidOf s.dev w) (wordAt k.pc j) = .ok x
  chain : ∀ j x, xs[j]? = some x → x.getLsbD 31 = decide (j + 1 < xs.length)

/-- Words that decode to instructions, each with the LITs behind it that it admits (R29 to R32). -/
inductive ChainOf : DWord → List Word → List CWord → Prop where
  | none (a : DWord) : ChainOf a [] []
  | word (a : DWord) (x : Word) (i : Instr) (ls xs : List Word) (cs : List CWord) (d : decodeWord x = .ok i) (n : x.extractLsb' 25 6 ≠ 0x3F)
      (l : ∀ y ∈ ls, y.extractLsb' 25 6 = 0x3F ∧ ∃ j, decodeWord y = .ok j) (e : ∀ y, xs.head? = some y → y.extractLsb' 25 6 ≠ 0x3F)
      (c : litCountOk x ls.length = true) (r : ChainOf (wordAt a (1 + ls.length)) xs cs) :
      ChainOf a (x :: ls ++ xs) (⟨a, x, i, ls.map (fun y => y.extractLsb' 0 25), ls⟩ :: cs)

/-- Every register of the chain's words is ready (R82, R125), no lane is blocked, the watchdog does not run out (R88), and no word is `brk` or `trap`, which act at the end of the turn (R435). -/
structure ChainReady (s : State) (w : Wave) (k : Key) (cs : List CWord) : Prop where
  soft   : ∀ c ∈ cs, isSoftTrap c.raw = false
  open_  : k.lanes &&& w.blocked = 0
  ready  : ∀ c ∈ cs, ∀ id ∈ (Instr.uses s.dev w k.wb c.inst).1 ++ (Instr.uses s.dev w k.wb c.inst).2,
    Wave.writing w id = false ∧ Wave.outItem w id = none
  time   : w.handler = true ∨ w.wdog = 0 ∨ cs.length < w.wdog.toNat

/-- The module as the turn's words read it (R23). -/
def begun (s : State) (rest : List Action) : State := { s with pre := s.dev, base := s.dev, ctx := Ctx.idle, agenda := rest }

/-- The same with each key of the core's waves noted as it stands (R255), which the turn does first. -/
noncomputable def noted (s : State) (rest : List Action) (core : Nat) : State :=
  { State.look (begun s rest) core with
    pre := (State.look (begun s rest) core).dev, base := (State.look (begun s rest) core).dev }

/-- The wave as the turn finds it. -/
noncomputable def notedWave (s : State) (rest : List Action) (core u : Nat) : Wave := Device.wave (noted s rest core).dev u

/-- The chain's frame as its words see it: the key's lanes, base and PC, the address behind the chain. -/
def chainCtx (defer : Bool) (u : Nat) (k : Key) (n : Nat) : Ctx :=
  { Ctx.idle with wave := u, lanes := k.lanes, wb := k.wb, chainPc := k.pc, nextPc := wordAt k.pc n, defer := defer }

/-- The machine b as the words of a chain of n words find it: the key's lanes already at the next chain (R25), the watchdog counted down by m (R88). -/
def entered (b : State) (defer : Bool) (u : Nat) (w : Wave) (k : Key) (n m : Nat) : State :=
  let w' := Wave.setPcs w k.lanes (fun _ => wordAt k.pc n)
  { b with
    dev := Device.setWave b.dev u (if w.handler || w.wdog == 0 then w' else { w' with wdog := w.wdog - BitVec.ofNat 32 m })
    ctx := chainCtx defer u k n }

/-- The machine as one word of the chain runs on it (R22, R30). -/
def atWord (s : State) (c : CWord) : State :=
  { s with ctx := { s.ctx with wordPc := c.addr, word := c.raw, lits := c.lits, raw := c.litw } }

/-- The machine as the one word of a chain finds it. -/
noncomputable def asIssued (s : State) (rest : List Action) (core : Nat) (defer : Bool) (u : Nat) (k : Key) (x : Word) (i : Instr) : State :=
  atWord (entered (noted s rest core) defer u (notedWave s rest core u) k 1 1) ⟨k.pc, x, i, [], []⟩

/-- Words that run one after the other, each to a next state, none held and none trapped. -/
inductive RunsAll : State → List CWord → State → Prop where
  | none (s : State) : RunsAll s [] s
  | word (s m t : State) (c : CWord) (cs : List CWord) (e : exec c.inst (atWord s c) = .next m) (ok : m.ctx.status = .ok) (r : RunsAll m cs t) :
      RunsAll s (c :: cs) t

/-- A chain of two or three words that issues (R23, R25, R104, R481): pipes, writes and transfers do not conflict; no word by itself is held or traps; then the last-read bits of all act, every word but the control transfer runs in slot order, the transfer last; what the wave holds fits its QUOTA before the transfer and after it. -/
structure ChainIssues (b : State) (defer : Bool) (u : Nat) (w : Wave) (k : Key) (xs : List Word) (cs : List CWord) (t : State) : Prop where
  two   : 2 ≤ cs.length
  clear : Device.chainConflict b.dev w k.wb cs = false
  alone : ∀ c ∈ cs, ∃ m, exec c.inst (atWord (entered b defer u w k xs.length 0) c) = .next m ∧ m.ctx.status = .ok
  runs  : ∃ m, RunsAll (State.lastReads (entered b defer u w k xs.length cs.length) cs) (cs.filter (fun c => !isTransfer c.raw)) m
    ∧ RunsAll m (cs.filter (fun c => isTransfer c.raw)) t ∧ Wave.heldUnits (Device.wave m.dev u) ≤ w.quota ∧ Wave.heldUnits (Device.wave t.dev u) ≤ w.quota

/-- The machine as an event finds it: those that swap waves see how the core's keys stand at the cycle's start (R75, R77). -/
noncomputable def looked (s : State) (i : Instr) : State :=
  match Instr.looksAt i with
  | some k => State.look s k
  | none => s

/-- What a turn that examined one wave leaves around what its key has done (R75, R76, R84, R95, R113): how the key stood, the ages, the slot that issued, a swap where the word yields, the Cassette's look at the core's waves, one cycle of the core. -/
def turnAround (b : State) (core : Nat) (e : Exam) (out : TurnOut) : State :=
  { b with dev := Device.coreCycle (Device.cassCycle (Device.afterPicks (Device.noteStalls out.dev e) core e out) core) core }

/-- The turn in which a wave's one key has issued its chain and left t. -/
noncomputable def turnDone (s : State) (rest : List Action) (core u : Nat) (k : Key) (cs : List CWord) (t : State) : State :=
  turnAround (noted s rest core) core ⟨u, notedWave s rest core u, none, [⟨k, cs, t⟩]⟩ ⟨t.dev, k.lanes, t.ctx.yields⟩

/-- The turn in which a wave's one key has met a fault of its chain (R27, R28, R426): its subset takes the trap, and nothing else of the chain happens. -/
noncomputable def turnTrapped (s : State) (rest : List Action) (core : Nat) (defer : Bool) (u : Nat) (k : Key) (code : BitVec 8) (trpa : DWord) : State :=
  let b := noted s rest core
  let d := Device.trapEntry b.dev u code k.lanes k.lanes k.pc k.wb trpa 0
  turnAround b core ⟨u, notedWave s rest core u, none, [⟨k, [], { b with dev := d, ctx := { chainCtx defer u k 0 with status := .trapped } }⟩]⟩
    ⟨d, 0, false⟩

/-- The turn in which a wave's one key has met a trap that its chain raises at issue: nothing but the trap is left. -/
noncomputable def turnLeft (s : State) (rest : List Action) (core u : Nat) (k : Key) (cs : List CWord) (t : State) : State :=
  turnAround (noted s rest core) core ⟨u, notedWave s rest core u, none, [⟨k, cs, t⟩]⟩ ⟨t.dev, 0, false⟩

/-- The turn in which a wave's one key is held: how it stands is noted, and a cycle of the core passes. -/
noncomputable def turnHeld (s : State) (rest : List Action) (core u : Nat) (k : Key) (cs : List CWord) (t : State) : State :=
  let b := noted s rest core
  { b with dev := Device.coreCycle (Device.cassCycle (Device.noteStalls b.dev ⟨u, notedWave s rest core u, none, [⟨k, cs, t⟩]⟩) core) core }

/-- The units that the wave holds, before and after the word, fit its QUOTA (R104). -/
def FitsQuota (u : Nat) (w : Wave) (before after : State) : Prop :=
  Wave.heldUnits (Device.wave before.dev u) ≤ w.quota ∧ Wave.heldUnits (Device.wave after.dev u) ≤ w.quota

/-- The decode fault of one word of a chain (R28 to R32), the j-th, at an address, with n LITs behind it: C = 1 in the last slot of a group, a LIT that leads its chain, a word that does not decode, a wrong number of LITs. -/
inductive WordFaults (j : Nat) (a : DWord) (x : Word) (n : Nat) : BitVec 8 → Prop where
  | slot (h : a.toNat % 12 / 4 = 2 ∧ x.getLsbD 31 = true) : WordFaults j a x n 0x01
  | leads (h : j = 0 ∧ x.extractLsb' 25 6 = 0x3F) : WordFaults j a x n 0x01
  | bad (f : DecodeFault) (h : ¬ (a.toNat % 12 / 4 = 2 ∧ x.getLsbD 31 = true)) (l : ¬ (j = 0 ∧ x.extractLsb' 25 6 = 0x3F)) (d : decodeWord x = .error f) :
      WordFaults j a x n (faultCode f)
  | lits (i : Instr) (h : ¬ (a.toNat % 12 / 4 = 2 ∧ x.getLsbD 31 = true)) (d : decodeWord x = .ok i) (l : x.extractLsb' 25 6 ≠ 0x3F)
      (c : litCountOk x n = false) : WordFaults j a x n 0x03

/-- The words that a fetch takes at the key's PC (R22): up to the first with C = 0 or to the end of the group. -/
structure Taken (s : State) (core : Nat) (w : Wave) (k : Key) (xs : List Word) : Prop where
  any   : xs ≠ []
  words : ∀ j x, xs[j]? = some x → Device.fetchWord s.dev core (Device.asidOf s.dev w) (wordAt k.pc j) = .ok x
  chain : ∀ j x, xs[j]? = some x → j + 1 < xs.length → x.getLsbD 31 = true
  stop  : (∃ x, xs.getLast? = some x ∧ x.getLsbD 31 = false) ∨ k.pc.toNat % 12 / 4 + xs.length = 3
  group : k.pc.toNat % 12 / 4 + xs.length ≤ 3

/-- The fault of a chain, with TRPA: of the first word that cannot be fetched (R426), of the lowest slot that holds a decode fault (R28), of the chain as a whole (R23 to R25). -/
inductive ChainFaults (s : State) (core : Nat) (w : Wave) (k : Key) : BitVec 8 → DWord → Prop where
  | fetch (n : Nat) (c : BitVec 8) (g : k.pc.toNat % 12 / 4 + n < 3)
      (b : ∀ j < n, ∃ x, Device.fetchWord s.dev core (Device.asidOf s.dev w) (wordAt k.pc j) = .ok x ∧ x.getLsbD 31 = true)
      (h : Device.fetchWord s.dev core (Device.asidOf s.dev w) (wordAt k.pc n) = .error c) : ChainFaults s core w k c k.pc
  | word (xs : List Word) (n : Nat) (x : Word) (c : BitVec 8) (t : Taken s core w k xs) (h : xs[n]? = some x)
      (b : ∀ j < n, ∀ y, xs[j]? = some y → ∀ e, ¬ WordFaults j (wordAt k.pc j) y ((xs.drop (j + 1)).takeWhile isLit).length e)
      (f : WordFaults n (wordAt k.pc n) x ((xs.drop (n + 1)).takeWhile isLit).length c) : ChainFaults s core w k c 0
  | conflict (xs : List Word) (cs : List CWord) (f : Fetched s core w k xs) (c : ChainOf k.pc xs cs)
      (h : Device.chainConflict s.dev w k.wb cs = true) : ChainFaults s core w k 0x04 0

/-- Does a key go before another (R79): more lanes; of equal ones, the lower PC, then the lower WB. -/
def Outranks (a b : Key) : Prop :=
  b.size < a.size ∨ (a.size = b.size ∧ (a.pc.toNat < b.pc.toNat ∨ (a.pc = b.pc ∧ a.wb < b.wb)))

/-- The first pick among the examined keys of a wave (R79, R85): where an issuable key's age has come within K of 64, the oldest, else the one that no issuable key outranks. -/
def FirstPick (w : Wave) (ts : List Trial) (f : Trial) : Prop :=
  f ∈ ts ∧ Trial.issuable f = true ∧
  ∀ g ∈ ts, Trial.issuable g = true →
    ((∀ h ∈ ts, Trial.issuable h = true → Wave.keyAge w h.key + ts.length < 64) → ¬ Outranks g.key f.key)
    ∧ ((∃ h ∈ ts, Trial.issuable h = true ∧ 64 ≤ Wave.keyAge w h.key + ts.length) →
        Wave.keyAge w g.key ≤ Wave.keyAge w f.key ∧ (Wave.keyAge w g.key = Wave.keyAge w f.key → ¬ Outranks g.key f.key))

/-- The chains of two keys that may issue in one cycle (R80): their pipes suffice for both, and neither writes a scalar, flag or special register that the other reads or writes. -/
structure PairFits (s : State) (u : Nat) (f g : Trial) : Prop where
  pipes : pipesFit (chainPipes f.words ++ chainPipes g.words) = true
  apart : ∀ c ∈ f.words, ∀ e ∈ g.words, ∀ id, RegId.shared id = true →
    ¬ (id ∈ (Instr.uses s.pre (Device.wave s.pre u) f.key.wb c.inst).2
        ∧ id ∈ (Instr.uses s.pre (Device.wave s.pre u) g.key.wb e.inst).1 ++ (Instr.uses s.pre (Device.wave s.pre u) g.key.wb e.inst).2)
    ∧ ¬ (id ∈ (Instr.uses s.pre (Device.wave s.pre u) g.key.wb e.inst).2
        ∧ id ∈ (Instr.uses s.pre (Device.wave s.pre u) f.key.wb c.inst).1 ++ (Instr.uses s.pre (Device.wave s.pre u) f.key.wb c.inst).2)

/-- The second pick behind a first (R80): another issuable key, outranked by none but the first, whose chain fits beside the first's. -/
def SecondPick (s : State) (u : Nat) (ts : List Trial) (f g : Trial) : Prop :=
  g ∈ ts ∧ Trial.issuable g = true ∧ g.key ≠ f.key ∧ PairFits s u f g ∧ ∀ h ∈ ts, Trial.issuable h = true → h.key ≠ f.key → ¬ Outranks h.key g.key

/-- The lanes that a turn of a wave issues (R78 to R80): none; those of the first pick; those of the second as well, or, where the first waits for room or traps, of the second alone. -/
def Picks (s : State) (u : Nat) (ts : List Trial) (issued : Mask) : Prop :=
  issued = 0 ∨ ∃ f, FirstPick (Device.wave s.pre u) ts f
    ∧ (issued = f.key.lanes ∨ ∃ g, SecondPick s u ts f g ∧ (issued = f.key.lanes ||| g.key.lanes ∨ issued = g.key.lanes))

end Sys2Proof.Claim
end

