-- ==== Sys2Proof/Claims/Walk.lean ====
section
/-! DEFINITION. What the statements say of address translation (R196 to R203, R480). -/

namespace Sys2Proof.Claim

open Sys2Proof.Machine

/-- The lowest address bit that indexes a level's tables (R199); a leaf there maps a page of as many bits. -/
def indexLow : Nat → Nat
  | 0 => 16
  | 1 => 21
  | 2 => 30
  | 3 => 39
  | _ => 48

/-- The entries of a level's table (R199). -/
def levelSize : Nat → Nat
  | 0 => 32
  | _ => 512

/-- Eight bytes of a record or table, as the device reads them (R245, R451). -/
def entryWord (d : Device) (a : Nat) : DWord := BitVec.ofNat 64 (ofLeBytes (Device.plain d a 8))

/-- Where a walk of an address reads its entry in a table of a level (R199). -/
def entryPlace (table level : Nat) (va : DWord) : Nat := table + 8 * (va.toNat / 2 ^ indexLow level % levelSize level)

/-- A malformed entry of a level (R200, R201). -/
inductive Malformed (level : Nat) (x : DWord) : Prop where
  | zeros (h : x.extractLsb' 52 4 ≠ 0 ∨ x.extractLsb' 6 2 ≠ 0 ∨ x.getLsbD 2 = true)
  | kinds (h : x.extractLsb' 58 2 = 3 ∨ x.extractLsb' 56 2 = 3)
  | noLeaf (h : 3 ≤ level) (t : x.getLsbD 1 = false)
  | noTable (h : level = 0) (t : x.getLsbD 1 = true)
  | tableAligned (t : x.getLsbD 1 = true) (h : 2 ≤ level) (a : x.extractLsb' 8 4 ≠ 0)
  | tablePlace (t : x.getLsbD 1 = true) (a : x.extractLsb' 48 4 ≠ 0)
  | frame (t : x.getLsbD 1 = false) (a : (x.extractLsb' 8 44).toNat * 256 % 2 ^ indexLow level ≠ 0)
  | reserved (t : x.getLsbD 1 = false) (a : x.extractLsb' 48 4 = 3 ∨ x.extractLsb' 48 4 = 5 ∨ x.extractLsb' 48 4 = 6 ∨ x.extractLsb' 48 4 = 7)
  | key (t : x.getLsbD 1 = false) (k : x.extractLsb' 60 4 ≠ 0) (a : x.extractLsb' 48 4 ≠ 0 ∧ x.extractLsb' 48 4 ≠ 4)
  | attr (t : x.getLsbD 1 = false) (k : x.extractLsb' 58 2 ≠ 0) (a : x.extractLsb' 48 4 ≠ 0)
  | cache (t : x.getLsbD 1 = false) (a : x.extractLsb' 48 4 = 2) (k : x.extractLsb' 56 2 ≠ 2)

/-- A walk of an address from a table of a level (R199 to R201, R480): the leaf and its level, or a fault code. -/
inductive Walk (d : Device) (va : DWord) : Nat → Nat → Except (BitVec 8) (DWord × Nat) → Prop where
  | outside (n t : Nat) (h : 2 ^ 40 ≤ t) : Walk d va n t (.error 0x07)
  | unread (n t : Nat) (h : t < 2 ^ 40) (b : Device.memBad d (entryPlace t n va) 8 = true) : Walk d va n t (.error 0x0F)
  | absent (n t : Nat) (h : t < 2 ^ 40) (b : Device.memBad d (entryPlace t n va) 8 = false) (v : (entryWord d (entryPlace t n va)).getLsbD 0 = false) :
      Walk d va n t (.error 0x06)
  | malformed (n t : Nat) (h : t < 2 ^ 40) (b : Device.memBad d (entryPlace t n va) 8 = false) (v : (entryWord d (entryPlace t n va)).getLsbD 0 = true)
      (m : Malformed n (entryWord d (entryPlace t n va))) : Walk d va n t (.error 0x07)
  | leaf (n t : Nat) (h : t < 2 ^ 40) (b : Device.memBad d (entryPlace t n va) 8 = false) (v : (entryWord d (entryPlace t n va)).getLsbD 0 = true)
      (m : ¬ Malformed n (entryWord d (entryPlace t n va))) (l : (entryWord d (entryPlace t n va)).getLsbD 1 = false) :
      Walk d va n t (.ok (entryWord d (entryPlace t n va), n))
  | table (n t : Nat) (r : Except (BitVec 8) (DWord × Nat)) (h : t < 2 ^ 40) (b : Device.memBad d (entryPlace t (n + 1) va) 8 = false)
      (v : (entryWord d (entryPlace t (n + 1) va)).getLsbD 0 = true) (m : ¬ Malformed (n + 1) (entryWord d (entryPlace t (n + 1) va)))
      (l : (entryWord d (entryPlace t (n + 1) va)).getLsbD 1 = true)
      (w : Walk d va n (((entryWord d (entryPlace t (n + 1) va)).extractLsb' 8 44).toNat * 256) r) : Walk d va (n + 1) t r

/-- The record of an address space (R198). -/
def recordAt (d : Device) (asid : Nat) : Nat := d.sys.astb.toNat + 64 * asid

/-- A malformed record (R198). -/
def RecordBad (d : Device) (a : Nat) : Prop :=
  (entryWord d a).extractLsb' 52 12 ≠ 0 ∨ (entryWord d a).extractLsb' 1 11 ≠ 0 ∨ (entryWord d a).extractLsb' 48 4 ≠ 0
  ∨ (entryWord d (a + 16)).extractLsb' 40 7 ≠ 0 ∨ (entryWord d (a + 8)).extractLsb' 0 12 ≠ 0 ∨ (entryWord d (a + 24)).extractLsb' 0 16 ≠ 0

/-- The level-4 table of an address space, or a fault code (R197, R198, R480). -/
inductive Root (d : Device) (asid : Nat) : Except (BitVec 8) Nat → Prop where
  | outside (h : 2 ^ 40 ≤ recordAt d asid) : Root d asid (.error 0x07)
  | unread (h : recordAt d asid < 2 ^ 40) (b : Device.memBad d (recordAt d asid) 32 = true) : Root d asid (.error 0x0F)
  | absent (h : recordAt d asid < 2 ^ 40) (b : Device.memBad d (recordAt d asid) 32 = false) (v : (entryWord d (recordAt d asid)).getLsbD 0 = false) :
      Root d asid (.error 0x06)
  | malformed (h : recordAt d asid < 2 ^ 40) (b : Device.memBad d (recordAt d asid) 32 = false) (v : (entryWord d (recordAt d asid)).getLsbD 0 = true)
      (m : RecordBad d (recordAt d asid)) : Root d asid (.error 0x07)
  | table (h : recordAt d asid < 2 ^ 40) (b : Device.memBad d (recordAt d asid) 32 = false) (v : (entryWord d (recordAt d asid)).getLsbD 0 = true)
      (m : ¬ RecordBad d (recordAt d asid)) : Root d asid (.ok (((entryWord d (recordAt d asid)).extractLsb' 12 40).toNat * 4096))

/-- Does a leaf permit a kind of access (R202). -/
def Permits (x : DWord) : Need → Prop
  | .r => x.getLsbD 3 = true
  | .w => x.getLsbD 4 = true
  | .rw => x.getLsbD 3 = true ∧ x.getLsbD 4 = true
  | .x => x.getLsbD 5 = true

/-- The byte that a physical address names (R197): a peer's address of this module's own number is its place 0x0. -/
def homeOf (d : Device) (pa : Nat) : Nat := if pa / 2 ^ 48 % 16 = 4 ∧ pa / 2 ^ 40 % 256 = d.sys.modnum then pa % 2 ^ 40 else pa

/-- Do n bytes at a physical address exist (R197, R450). -/
inductive PlaceHas (d : Device) (pa n : Nat) : Prop where
  | hbm (p : pa / 2 ^ 48 % 16 = 0) (h : pa % 2 ^ 48 < 2 ^ 40)
  | sram (p : pa / 2 ^ 48 % 16 = 1) (h : pa % 2 ^ 48 < 2 ^ 28)
      (a : ∃ e ∈ d.wgs, e.2.core / 8 = pa % 2 ^ 48 / 2 ^ 23 ∧ ∃ a ∈ e.2.allocs, a.base ≤ pa % 2 ^ 23 ∧ pa % 2 ^ 23 + n ≤ a.base + 4096 * a.blocks)
  | registers (p : pa / 2 ^ 48 % 16 = 2) (h : pa % 2 ^ 48 < 2 ^ 42) (z : n = 4 ∨ n = 8)
  | peer (p : pa / 2 ^ 48 % 16 = 4) (h : Device.peerOk d (pa % 2 ^ 48 / 2 ^ 40) = true)
  | host (p : 8 ≤ pa / 2 ^ 48 % 16) (h : Device.portUp d ((pa / 2 ^ 48 % 16 - 8) / 4) = true)

/-- What a leaf with a page of some bits gives an access (R197, R200, R202). -/
inductive LeafGives (d : Device) (k : Need) (va : DWord) (n : Nat) (x : DWord) (bits : Nat) : Except (BitVec 8) Tr → Prop where
  | denied (p : ¬ Permits x k) : LeafGives d k va n x bits (.error 0x07)
  | nowhere (p : Permits x k) (h : ¬ PlaceHas d (homeOf d ((x.extractLsb' 8 44).toNat * 256 + va.toNat % 2 ^ bits)) n) :
      LeafGives d k va n x bits (.error 0x07)
  | there (p : Permits x k) (h : PlaceHas d (homeOf d ((x.extractLsb' 8 44).toNat * 256 + va.toNat % 2 ^ bits)) n) :
      LeafGives d k va n x bits (.ok ⟨homeOf d ((x.extractLsb' 8 44).toNat * 256 + va.toNat % 2 ^ bits), (x.extractLsb' 58 2).toNat,
        (x.extractLsb' 56 2).toNat, (x.extractLsb' 60 4).toNat⟩)

/-- What an address translates to for an access of n bytes in one page (R196 to R202, R480). -/
inductive Translates (d : Device) (asid : Nat) (k : Need) (va : DWord) (n : Nat) : Except (BitVec 8) Tr → Prop where
  | form (c : canonical va = false) : Translates d asid k va n (.error 0x07)
  | root (e : BitVec 8) (c : canonical va = true) (r : Root d asid (.error e)) : Translates d asid k va n (.error e)
  | walk (e : BitVec 8) (t : Nat) (c : canonical va = true) (r : Root d asid (.ok t)) (w : Walk d va 4 t (.error e)) : Translates d asid k va n (.error e)
  | leaf (x : DWord) (t l : Nat) (a : Except (BitVec 8) Tr) (c : canonical va = true) (r : Root d asid (.ok t)) (w : Walk d va 4 t (.ok (x, l)))
      (g : LeafGives d k va n x (indexLow l) a) : Translates d asid k va n a

/-- What a unit's buffered entry gives an access (R203): the leaf itself, or a walk on from the table that it names. -/
inductive Buffered (d : Device) (e : TlbEntry) (k : Need) (va : DWord) (n : Nat) : Except (BitVec 8) Tr → Prop where
  | leaf (a : Except (BitVec 8) Tr) (t : e.pte.getLsbD 1 = false) (g : LeafGives d k va n e.pte e.bits a) : Buffered d e k va n a
  | fails (m : Nat) (c : BitVec 8) (t : e.pte.getLsbD 1 = true) (b : m < 4 ∧ e.bits = indexLow (m + 1))
      (w : Walk d va m ((e.pte.extractLsb' 8 44).toNat * 256) (.error c)) : Buffered d e k va n (.error c)
  | table (m l : Nat) (x : DWord) (a : Except (BitVec 8) Tr) (t : e.pte.getLsbD 1 = true) (b : m < 4 ∧ e.bits = indexLow (m + 1))
      (w : Walk d va m ((e.pte.extractLsb' 8 44).toNat * 256) (.ok (x, l))) (g : LeafGives d k va n x (indexLow l) a) : Buffered d e k va n a

end Sys2Proof.Claim
end

