-- ==== Sys2Proof/Laws/Word.lean ====
section
/-! SUPPORT. Small lemmas about the plain containers: sparse tables, sets of lanes, lists with one entry per lane, bytes. -/

namespace Sys2Proof

variable {α : Type}

@[simp] theorem Tbl.get?_nil (k : Nat) : Tbl.get? ([] : Tbl α) k = none := rfl

@[simp] theorem Tbl.get?_put_self (t : Tbl α) (k : Nat) (v : α) : Tbl.get? (Tbl.put t k v) k = some v := by
  induction t with
  | nil => simp [Tbl.put, Tbl.get?]
  | cons e r ih =>
    obtain ⟨k', v'⟩ := e
    unfold Tbl.put
    split
    · simp [Tbl.get?]
    · split
      · simp [Tbl.get?]
      · rename_i h; simp [Tbl.get?, h, ih]

theorem Tbl.get?_put_ne (t : Tbl α) {k j : Nat} (v : α) (h : j ≠ k) : Tbl.get? (Tbl.put t k v) j = Tbl.get? t j := by
  have h' : ¬ k = j := fun e => h e.symm
  induction t with
  | nil => simp [Tbl.put, Tbl.get?, h']
  | cons e r ih =>
    obtain ⟨k', v'⟩ := e
    unfold Tbl.put
    split
    · simp [Tbl.get?, h']
    · split
      · rename_i hk; subst hk; simp [Tbl.get?, h']
      · simp [Tbl.get?, ih]

theorem Tbl.get?_put (t : Tbl α) (k j : Nat) (v : α) :
    Tbl.get? (Tbl.put t k v) j = if j = k then some v else Tbl.get? t j := by
  by_cases h : j = k
  · subst h; simp
  · simp [h, Tbl.get?_put_ne t v h]

/-- The second write of a key hides the first. -/
@[simp] theorem Tbl.put_put (t : Tbl α) (k : Nat) (a b : α) : Tbl.put (Tbl.put t k a) k b = Tbl.put t k b := by
  induction t with
  | nil => simp [Tbl.put]
  | cons e r ih =>
    obtain ⟨k', v'⟩ := e
    by_cases h1 : k < k'
    · simp [Tbl.put, h1]
    · by_cases h2 : k' = k
      · subst h2; simp [Tbl.put]
      · simp [Tbl.put, h1, h2, ih]

@[simp] theorem Tbl.getD_put_self (t : Tbl α) (k : Nat) (v d : α) : Tbl.getD (Tbl.put t k v) k d = v := by
  simp [Tbl.getD]

theorem Tbl.getD_put_ne (t : Tbl α) {k j : Nat} (v d : α) (h : j ≠ k) : Tbl.getD (Tbl.put t k v) j d = Tbl.getD t j d := by
  simp [Tbl.getD, Tbl.get?_put_ne t v h]

theorem Tbl.getD_put (t : Tbl α) (k j : Nat) (v d : α) :
    Tbl.getD (Tbl.put t k v) j d = if j = k then v else Tbl.getD t j d := by
  by_cases h : j = k
  · subst h; simp
  · simp [h, Tbl.getD_put_ne t v d h]

@[simp] theorem Tbl.get?_del_self (t : Tbl α) (k : Nat) : Tbl.get? (Tbl.del t k) k = none := by
  induction t with
  | nil => rfl
  | cons e r ih =>
    obtain ⟨k', v'⟩ := e
    by_cases h : k' = k
    · simpa [Tbl.del, h] using ih
    · simpa [Tbl.del, h, Tbl.get?] using ih

theorem Tbl.get?_del_ne (t : Tbl α) {k j : Nat} (h : j ≠ k) : Tbl.get? (Tbl.del t k) j = Tbl.get? t j := by
  induction t with
  | nil => rfl
  | cons e r ih =>
    obtain ⟨k', v'⟩ := e
    by_cases hk : k' = k
    · subst hk
      have h' : ¬ k' = j := fun e => h e.symm
      simpa [Tbl.del, Tbl.get?, h'] using ih
    · by_cases hj : k' = j
      · subst hj; simp [Tbl.del, Tbl.get?, h]
      · simpa [Tbl.del, hk, Tbl.get?, hj] using ih

theorem Tbl.get?_del (t : Tbl α) (k j : Nat) : Tbl.get? (Tbl.del t k) j = if j = k then none else Tbl.get? t j := by
  by_cases h : j = k
  · subst h; simp
  · simp [h, Tbl.get?_del_ne t h]

theorem length_mkLanes (f : Nat → α) : (mkLanes f).length = 64 := by simp [mkLanes, lanes64]

/-- The entry of a lane. -/
theorem getElem?_mkLanes (f : Nat → α) {l : Nat} (h : l < 64) : (mkLanes f)[l]? = some (f l) := by
  simp [mkLanes, lanes64, h]

theorem getD_mkLanes (f : Nat → α) {l : Nat} (d : α) (h : l < 64) : (mkLanes f).getD l d = f l := by
  simp [List.getD, getElem?_mkLanes f h]

theorem map_mkLanes {β : Type} (g : α → β) (f : Nat → α) : (mkLanes f).map g = mkLanes (fun l => g (f l)) := by
  simp [mkLanes]

theorem mkLanes_congr {f g : Nat → α} (h : ∀ l, l < 64 → f l = g l) : mkLanes f = mkLanes g := by
  simp only [mkLanes, lanes64]
  exact List.map_congr_left (fun l hl => h l (List.mem_range.mp hl))

/-- A sum of bits by place, and its bits. -/
theorem testBit_foldr_bits (f : Nat → Bool) (n a l : Nat) :
    ((List.range' a n).foldr (fun i acc => 2 * acc + (if f i then 1 else 0)) 0).testBit l = (decide (l < n) && f (a + l)) := by
  induction n generalizing a l with
  | zero => simp
  | succ n ih =>
    rw [List.range'_succ, List.foldr_cons]
    cases l with
    | zero =>
      rw [Nat.testBit_zero]
      by_cases h : f a <;> simp [h]
    | succ l =>
      rw [Nat.testBit_succ]
      have : (2 * (List.range' (a + 1) n).foldr (fun i acc => 2 * acc + (if f i then 1 else 0)) 0 + (if f a then 1 else 0)) / 2
          = (List.range' (a + 1) n).foldr (fun i acc => 2 * acc + (if f i then 1 else 0)) 0 := by
        split <;> omega
      rw [this, ih]
      simp [Nat.add_assoc, Nat.add_comm 1 l]

/-- A lane is in the mask of a test exactly when it passes. -/
@[simp] theorem getLsbD_maskOf (f : Nat → Bool) (l : Nat) : (maskOf f).getLsbD l = (decide (l < 64) && f l) := by
  have h := testBit_foldr_bits f 64 0 l
  simp only [Nat.zero_add] at h
  rw [maskOf, lanes64, List.range_eq_range', BitVec.getLsbD_ofNat, h]
  cases decide (l < 64) <;> rfl

/-- Two masks with the same lanes are one. -/
theorem mask_ext {a b : DWord} (h : ∀ l, l < 64 → a.getLsbD l = b.getLsbD l) : a = b := by
  apply BitVec.eq_of_getLsbD_eq
  exact h

theorem maskOf_congr {f g : Nat → Bool} (h : ∀ l, l < 64 → f l = g l) : maskOf f = maskOf g := by
  apply mask_ext
  intro l hl
  rw [getLsbD_maskOf, getLsbD_maskOf, h l hl]

/-- A lane is listed exactly when it is in the mask. -/
@[simp] theorem mem_lanesOf (m : DWord) (l : Nat) : l ∈ lanesOf m ↔ l < 64 ∧ m.getLsbD l = true := by
  simp [lanesOf, lanes64]

theorem mask_eq_zero (m : DWord) : m = 0 ↔ ∀ l, l < 64 → m.getLsbD l = false := by
  constructor
  · rintro rfl l _; simp
  · intro h; apply mask_ext; intro l hl; simp [h l hl]

@[simp] theorem length_leBytes (n x : Nat) : (leBytes n x).length = n := by
  induction n generalizing x with
  | zero => rfl
  | succ n ih => simp [leBytes, ih]

/-- Bytes of a number give the number back, modulo their width. -/
theorem ofLeBytes_leBytes (n x : Nat) : ofLeBytes (leBytes n x) = x % 256 ^ n := by
  induction n generalizing x with
  | zero => simp [leBytes, ofLeBytes, Nat.mod_one]
  | succ n ih =>
    rw [leBytes, ofLeBytes, ih, Nat.pow_succ', Nat.mod_mul, BitVec.toNat_ofNat]

theorem ofLeBytes_lt (bs : List Byte) : ofLeBytes bs < 256 ^ bs.length := by
  induction bs with
  | nil => simp [ofLeBytes]
  | cons b r ih =>
    have := b.isLt
    simp only [ofLeBytes, List.length_cons, Nat.pow_succ']
    omega

end Sys2Proof
end

