-- ==== Sys2Proof/Laws/Mem.lean ====
section
/-! SUPPORT. The laws of memory: reading after a write, and the canonical form that every write keeps. -/

namespace Sys2Proof.Machine

/-- A memory whose cells all lie at or above a bound. -/
def Memory.from_ (n : Nat) (m : Memory) : Prop := ∀ c ∈ m, n ≤ c.1

theorem Memory.wf_cons (a : Nat) (b : Byte) (m : Memory) :
    Memory.wf ((a, b) :: m) = true ↔ b ≠ 0 ∧ Memory.from_ (a + 1) m ∧ Memory.wf m = true := by
  induction m generalizing a b with
  | nil => simp [Memory.wf, Memory.from_]
  | cons c r ih =>
    obtain ⟨a', b'⟩ := c
    simp only [Memory.wf, Bool.and_eq_true, bne_iff_ne, decide_eq_true_eq]
    constructor
    · rintro ⟨⟨hb, hlt⟩, hw⟩
      refine ⟨hb, ?_, hw⟩
      intro c hc
      rcases List.mem_cons.mp hc with rfl | hc
      · exact hlt
      · have := ((ih a' b').mp hw).2.1 c hc
        omega
    · rintro ⟨hb, hf, hw⟩
      exact ⟨⟨hb, hf (a', b') (by simp)⟩, hw⟩

theorem Memory.read_of_from (m : Memory) {a n : Nat} (h : Memory.from_ n m) (ha : a < n) : Memory.read m a = 0 := by
  induction m with
  | nil => rfl
  | cons c r ih =>
    obtain ⟨a', b⟩ := c
    have h1 : n ≤ a' := h (a', b) (by simp)
    have h2 : ¬ a' = a := by omega
    simp only [Memory.read, h2, if_false]
    exact ih (fun c hc => h c (by simp [hc]))

theorem Memory.read_append (x y : Memory) (a : Nat) :
    Memory.read (x ++ y) a = if x.any (fun c => c.1 == a) then Memory.read x a else Memory.read y a := by
  induction x with
  | nil => simp
  | cons c r ih =>
    obtain ⟨a', b⟩ := c
    by_cases h : a' = a
    · simp [Memory.read, h]
    · simp [Memory.read, h, ih]

theorem Memory.read_filter (m : Memory) (p : Nat → Bool) (a : Nat) :
    Memory.read (m.filter (fun c => p c.1)) a = if p a then Memory.read m a else 0 := by
  induction m with
  | nil => simp [Memory.read]
  | cons c r ih =>
    obtain ⟨a', b⟩ := c
    by_cases h : a' = a
    · subst h
      cases hp : p a'
      · simp [hp] at ih ⊢; exact ih
      · simp [hp, Memory.read]
    · cases hp : p a' <;> simp [hp, Memory.read, h, ih]

theorem Memory.any_filter (m : Memory) (p : Nat → Bool) (a : Nat) :
    (m.filter (fun c => p c.1)).any (fun c => c.1 == a) = (p a && m.any (fun c => c.1 == a)) := by
  induction m with
  | nil => simp
  | cons c r ih =>
    obtain ⟨a', b⟩ := c
    by_cases h : a' = a
    · subst h; cases hp : p a' <;> simp [hp, ih]
    · have h' : (a' == a) = false := by simp [h]
      cases hp : p a' <;> simp [hp, h', ih]

theorem Memory.read_of_not_any (m : Memory) (a : Nat) (h : m.any (fun c => c.1 == a) = false) : Memory.read m a = 0 := by
  induction m with
  | nil => rfl
  | cons c r ih =>
    obtain ⟨a', b⟩ := c
    simp only [List.any_cons, Bool.or_eq_false_iff, beq_eq_false_iff_ne] at h
    simp [Memory.read, h.1, ih h.2]

theorem Memory.from_cells (a : Nat) (bs : List Byte) : Memory.from_ a (Memory.cells a bs) := by
  induction bs generalizing a with
  | nil => simp [Memory.cells, Memory.from_]
  | cons b r ih =>
    intro c hc
    unfold Memory.cells at hc
    split at hc
    · have := ih (a + 1) c hc; omega
    · rcases List.mem_cons.mp hc with rfl | hc
      · simp
      · have := ih (a + 1) c hc; omega

theorem Memory.cells_lt (a : Nat) (bs : List Byte) : ∀ c ∈ Memory.cells a bs, c.1 < a + bs.length := by
  induction bs generalizing a with
  | nil => simp [Memory.cells]
  | cons b r ih =>
    intro c hc
    unfold Memory.cells at hc
    simp only [List.length_cons]
    split at hc
    · have := ih (a + 1) c hc; omega
    · rcases List.mem_cons.mp hc with rfl | hc
      · simp
      · have := ih (a + 1) c hc; omega

/-- What written cells read as. -/
theorem Memory.read_cells (a : Nat) (bs : List Byte) (x : Nat) :
    Memory.read (Memory.cells a bs) x = if a ≤ x ∧ x < a + bs.length then bs.getD (x - a) 0 else 0 := by
  induction bs generalizing a with
  | nil => simp [Memory.cells, Memory.read]
  | cons b r ih =>
    by_cases hx : a = x
    · subst hx
      have h0 : Memory.read (Memory.cells (a + 1) r) a = 0 :=
        Memory.read_of_from _ (Memory.from_cells (a + 1) r) (by omega)
      by_cases hb : b = 0
      · rw [Memory.cells, if_pos hb, h0]; simp [hb]
      · rw [Memory.cells, if_neg hb]; simp [Memory.read]
    · have hrest : Memory.read (Memory.cells a (b :: r)) x = Memory.read (Memory.cells (a + 1) r) x := by
        by_cases hb : b = 0
        · rw [Memory.cells, if_pos hb]
        · rw [Memory.cells, if_neg hb]; simp [Memory.read, hx]
      rw [hrest, ih]
      simp only [List.length_cons]
      by_cases h : a + 1 ≤ x ∧ x < a + 1 + r.length
      · have h2 : a ≤ x ∧ x < a + (r.length + 1) := by omega
        rw [if_pos h, if_pos h2]
        obtain ⟨k, hk⟩ : ∃ k, x - a = k + 1 := ⟨x - a - 1, by omega⟩
        have hk2 : x - (a + 1) = k := by omega
        rw [hk, hk2]
        simp
      · have h2 : ¬ (a ≤ x ∧ x < a + (r.length + 1)) := by omega
        rw [if_neg h, if_neg h2]

/-- Reading after a write: the bytes written at their addresses, all else as before. -/
theorem Memory.read_writeN (m : Memory) (a : Nat) (bs : List Byte) (x : Nat) :
    Memory.read (Memory.writeN m a bs) x = if a ≤ x ∧ x < a + bs.length then bs.getD (x - a) 0 else Memory.read m x := by
  unfold Memory.writeN
  have hlow : Memory.read (m.filter (fun c => decide (c.1 < a))) x = if x < a then Memory.read m x else 0 := by
    simpa using Memory.read_filter m (fun k => decide (k < a)) x
  have hhigh : Memory.read (m.filter (fun c => decide (a + bs.length ≤ c.1))) x
      = if a + bs.length ≤ x then Memory.read m x else 0 := by
    simpa using Memory.read_filter m (fun k => decide (a + bs.length ≤ k)) x
  have hany : (m.filter (fun c => decide (c.1 < a))).any (fun c => c.1 == x)
      = (decide (x < a) && m.any (fun c => c.1 == x)) := by
    simpa using Memory.any_filter m (fun k => decide (k < a)) x
  have hcells := Memory.read_cells a bs x
  rw [List.append_assoc, Memory.read_append, Memory.read_append, hany, hlow, hhigh, hcells]
  by_cases h1 : x < a
  · have hc : (Memory.cells a bs).any (fun c => c.1 == x) = false := by
      rw [List.any_eq_false]
      intro c hc
      have := Memory.from_cells a bs c hc
      simp; omega
    have h2 : ¬ (a ≤ x ∧ x < a + bs.length) := by omega
    have h3 : ¬ a + bs.length ≤ x := by omega
    cases hm : m.any (fun c => c.1 == x)
    · simp [h1, hc, h2, h3, Memory.read_of_not_any m x hm]
    · simp [h1, h2]
  · by_cases h2 : x < a + bs.length
    · have h3 : a ≤ x ∧ x < a + bs.length := by omega
      have h4 : ¬ a + bs.length ≤ x := by omega
      rw [if_pos h3] at hcells
      cases hc : (Memory.cells a bs).any (fun c => c.1 == x)
      · have := Memory.read_of_not_any _ x hc
        rw [hcells] at this
        rw [if_pos h3, this]
        simp [h1, h4]
      · simp [h1, h3]
    · have h3 : ¬ (a ≤ x ∧ x < a + bs.length) := by omega
      have hc : (Memory.cells a bs).any (fun c => c.1 == x) = false := by
        rw [List.any_eq_false]
        intro c hc
        have := Memory.cells_lt a bs c hc
        simp; omega
      have h4 : a + bs.length ≤ x := by omega
      simp [h1, h3, hc, h4]

theorem Memory.read_writeN_out (m : Memory) (a : Nat) (bs : List Byte) (x : Nat) (h : x < a ∨ a + bs.length ≤ x) :
    Memory.read (Memory.writeN m a bs) x = Memory.read m x := by
  rw [Memory.read_writeN, if_neg (by omega)]

theorem Memory.wf_filter (m : Memory) (p : Host.Cell → Bool) (h : Memory.wf m = true) : Memory.wf (m.filter p) = true := by
  induction m with
  | nil => rfl
  | cons c r ih =>
    obtain ⟨a, b⟩ := c
    have h' := (Memory.wf_cons a b r).mp h
    by_cases hp : p (a, b)
    · rw [List.filter_cons_of_pos hp, Memory.wf_cons]
      exact ⟨h'.1, fun c hc => h'.2.1 c (List.mem_filter.mp hc).1, ih h'.2.2⟩
    · rw [List.filter_cons_of_neg hp]
      exact ih h'.2.2

theorem Memory.wf_append (x y : Memory) (n : Nat) (hx : Memory.wf x = true) (hy : Memory.wf y = true)
    (hlt : ∀ c ∈ x, c.1 < n) (hge : Memory.from_ n y) : Memory.wf (x ++ y) = true := by
  induction x with
  | nil => exact hy
  | cons c r ih =>
    obtain ⟨a, b⟩ := c
    have h' := (Memory.wf_cons a b r).mp hx
    have ha : a < n := hlt (a, b) (by simp)
    rw [List.cons_append, Memory.wf_cons]
    refine ⟨h'.1, ?_, ih h'.2.2 (fun c hc => hlt c (by simp [hc]))⟩
    intro c hc
    rcases List.mem_append.mp hc with hc | hc
    · exact h'.2.1 c hc
    · have := hge c hc; omega

theorem Memory.wf_cells (a : Nat) (bs : List Byte) : Memory.wf (Memory.cells a bs) = true := by
  induction bs generalizing a with
  | nil => rfl
  | cons b r ih =>
    unfold Memory.cells
    split
    · exact ih (a + 1)
    · rename_i hb
      rw [Memory.wf_cons]
      exact ⟨hb, Memory.from_cells (a + 1) r, ih (a + 1)⟩

/-- A write keeps the canonical form. -/
theorem Memory.wf_writeN (m : Memory) (a : Nat) (bs : List Byte) (h : Memory.wf m = true) :
    Memory.wf (Memory.writeN m a bs) = true := by
  unfold Memory.writeN
  refine Memory.wf_append _ _ (a + bs.length) (Memory.wf_append _ _ a (Memory.wf_filter m _ h) (Memory.wf_cells a bs) ?_ ?_)
    (Memory.wf_filter m _ h) ?_ ?_
  · intro c hc; simpa using (List.mem_filter.mp hc).2
  · exact Memory.from_cells a bs
  · intro c hc
    rcases List.mem_append.mp hc with hc | hc
    · have := (List.mem_filter.mp hc).2
      simp at this; omega
    · exact Memory.cells_lt a bs c hc
  · intro c hc; simpa using (List.mem_filter.mp hc).2

theorem Memory.wf_write (m : Memory) (a : Nat) (b : Byte) (h : Memory.wf m = true) : Memory.wf (Memory.write m a b) = true :=
  Memory.wf_writeN m a [b] h

@[simp] theorem Memory.length_readN (m : Memory) (a n : Nat) : (Memory.readN m a n).length = n := by
  induction n generalizing a with
  | zero => rfl
  | succ n ih => simp [Memory.readN, ih]

theorem Memory.getD_readN (m : Memory) (a n i : Nat) (h : i < n) : (Memory.readN m a n).getD i 0 = Memory.read m (a + i) := by
  induction n generalizing a i with
  | zero => omega
  | succ n ih =>
    cases i with
    | zero => simp [Memory.readN]
    | succ i =>
      have := ih (a + 1) i (by omega)
      simp only [Memory.readN, List.getD_cons_succ, this]
      congr 1; omega

/-- Bytes written read back. -/
theorem Memory.readN_writeN (m : Memory) (a : Nat) (bs : List Byte) : Memory.readN (Memory.writeN m a bs) a bs.length = bs := by
  apply List.ext_getElem (by simp)
  intro i h1 h2
  have h3 := Memory.getD_readN (Memory.writeN m a bs) a bs.length i h2
  rw [Memory.read_writeN, if_pos (by omega)] at h3
  have e : a + i - a = i := by omega
  rw [e] at h3
  simpa [List.getD, h1, h2] using h3

/-- Two memories in canonical form that read alike are one list. -/
theorem Memory.ext_of_wf (x y : Memory) (hx : Memory.wf x = true) (hy : Memory.wf y = true)
    (h : ∀ a, Memory.read x a = Memory.read y a) : x = y := by
  induction x generalizing y with
  | nil =>
    cases y with
    | nil => rfl
    | cons c r =>
      obtain ⟨a, b⟩ := c
      have := h a
      simp [Memory.read] at this
      exact absurd this.symm ((Memory.wf_cons a b r).mp hy).1
  | cons c r ih =>
    obtain ⟨a, b⟩ := c
    have hx' := (Memory.wf_cons a b r).mp hx
    cases y with
    | nil =>
      have := h a
      simp [Memory.read] at this
      exact absurd this hx'.1
    | cons c' r' =>
      obtain ⟨a', b'⟩ := c'
      have hy' := (Memory.wf_cons a' b' r').mp hy
      have haa : a = a' := by
        rcases Nat.lt_trichotomy a a' with hlt | heq | hgt
        · have h1 := h a
          have h2 : ¬ a' = a := by omega
          have h3 := Memory.read_of_from r' hy'.2.1 (show a < a' + 1 by omega)
          simp [Memory.read, h2, h3] at h1
          exact absurd h1 hx'.1
        · exact heq
        · have h1 := h a'
          have h2 : ¬ a = a' := by omega
          have h3 := Memory.read_of_from r hx'.2.1 (show a' < a + 1 by omega)
          simp [Memory.read, h2, h3] at h1
          exact absurd h1.symm hy'.1
      subst haa
      have hbb : b = b' := by simpa [Memory.read] using h a
      subst hbb
      rw [ih r' hx'.2.2 hy'.2.2]
      intro k
      by_cases hk : a = k
      · subst hk
        rw [Memory.read_of_from r hx'.2.1 (by omega), Memory.read_of_from r' hy'.2.1 (by omega)]
      · simpa [Memory.read, hk] using h k

end Sys2Proof.Machine
end

