-- ==== Sys2Proof/Certificates/Slice0/Obligations.lean ====
section
/-! DEFINITION. The statements for the provers. -/

open Sys2Proof Sys2Proof.Machine Sys2Proof.Claim

/-! ## Encoding -/

/-- Words written out from the spec's encodings decode to what they stand for: `nop` (R98), `elect` (R96), `jmp` (R92), `call` (R128), `quota` (R107), `trap` (R435), `rte` (R436). -/
def Obligations.DecodedWords : Prop :=
  decodeWord 0x06000008 = .ok (.nop ⟨0⟩)
  ∧ decodeWord 0x06014065 = .ok (.elect ⟨0, 40, 3⟩)
  ∧ decodeWord 0x06006002 = .ok (.jmpS ⟨0, 12⟩)
  ∧ decodeWord 0x06F00022 = .ok (.jmpV ⟨0, 30⟩)
  ∧ decodeWord 0x05800015 = .ok (.call ⟨0, 6, 21⟩)
  ∧ decodeWord 0x0601400A = .ok (.quota ⟨0, 40⟩)
  ∧ decodeWord 0x3A0A0006 = .ok (.trapW ⟨0, 5⟩)
  ∧ decodeWord 0x3A000007 = .ok (.rte ⟨0⟩)

/-- A word of major 0x00 is an illegal instruction, code 0x01; the all-zero word is one (R21). -/
def Obligations.ReservedMajor : Prop :=
  (∀ w : Word, w.extractLsb' 25 6 = 0 → decodeWord w = .error .illegalInstruction)
  ∧ faultCode .illegalInstruction = 0x01 ∧ decodeWord 0 = .error .illegalInstruction

/-- Both decoders read every well-formed instruction back from its word, with every operand at every value that the encoding admits: words of programs and micro-operations (R19 to R45, R344). -/
def Obligations.DecodeEncode : Prop :=
  (∀ (i : Instr) (w : Word), Instr.isMicro i = false → encode i = some w → Instr.wf i = true → decodeWord w = .ok i)
  ∧ ∀ (i : Instr) (w : Word), Instr.isMicro i = true → encode i = some w → Instr.wf i = true → decodeMicro w = some i

/-- A word that decodes is the word of its instruction: no bit of an encoding is dropped, no reserved bit is let through (R45, R344). -/
def Obligations.EncodeDecode : Prop :=
  (∀ (i : Instr) (w : Word), decodeWord w = .ok i → encode i = some w ∧ Instr.isMicro i = false)
  ∧ ∀ (i : Instr) (w : Word), decodeMicro w = some i → encode i = some w ∧ Instr.isMicro i = true

/-! ## The step -/

/-- A step in which a wave's one key issues a chain of one word runs the decoded instruction: it is exec at the state that the turn has prepared, with what the turn adds around it. A chain of several words, with their LITs, runs every word but the control transfer in slot order and that one last; of the keys of a wave, a turn issues the pick of R79 and R85, and beside it at most one that fits (R80). That of two draws of stochastic counts in a chain the lower slot's comes first is the model's choice (log entry 67). -/
def Obligations.StepRunsWord : Prop :=
  (∀ (s : State) (core : Nat) (defer : Bool) (rest : List Action) (u slot : Nat) (w : Wave) (k : Key) (x : Word) (i : Instr) (t : State),
    OneKey s core defer rest u slot w k → Fetched s core w k [x] → ChainOf k.pc [x] [⟨k.pc, x, i, [], []⟩] →
    ChainReady s w k [⟨k.pc, x, i, [], []⟩] → exec i (asIssued s rest core defer u k x i) = .next t → t.ctx.status = .ok →
    FitsQuota u w (asIssued s rest core defer u k x i) t → step s = .next (turnDone s rest core u k [⟨k.pc, x, i, [], []⟩] t))
  ∧ (∀ (s : State) (core : Nat) (defer : Bool) (rest : List Action) (u slot : Nat) (w : Wave) (k : Key) (xs : List Word) (cs : List CWord) (t : State),
    OneKey s core defer rest u slot w k → Fetched s core w k xs → ChainOf k.pc xs cs → ChainReady s w k cs →
    ChainIssues (noted s rest core) defer u (notedWave s rest core u) k xs cs t → step s = .next (turnDone s rest core u k cs t))
  ∧ ∀ (s : State) (u : Nat) (defer : Bool), Picks s u (State.examine s u defer) (State.picks s u defer (State.examine s u defer)).issued

/-- An event of the schedule is exec of its row, the core's keys examined first where it swaps waves (R75, R77); a micro-operation of the schedule is exec of the word at the ray's index: that of its snapshot, or, where software has changed the image, by a free choice the legal word that stands there now (R342, R344; the free choice and the legality are the model's, log entry 64). -/
def Obligations.StepRunsRow : Prop :=
  (∀ (s : State) (i : Instr) (rest : List Action), s.dev.inbox = [] → s.agenda = .event i :: rest → encodeNat i = none →
    s.dev.sys.held = false → step s = exec i (looked (begun s rest) i))
  ∧ ∀ (s : State) (u l : Nat) (rest : List Action) (r : Ray) (i : Instr), s.dev.inbox = [] → s.agenda = .ray u l :: rest →
    s.dev.sys.held = false → Tbl.get? (Device.wave s.dev u).rays l = some r → r.st = .running → r.rf = none → r.mpc < codeLen r.code.image →
    ∀ (d : Device) (x : Nat), MicroWord (begun s rest).dev (Device.wave s.dev u) r d x → decodeMicro (BitVec.ofNat 32 x) = some i →
    step s = exec i { begun s rest with dev := d, ctx := { Ctx.idle with wave := u, lane := l } }

/-- A chain that cannot be fetched, decoded or issued as a whole traps: the wave takes the fault of its first bad word, or 0x04 where its words conflict, for the subset, and nothing else of the chain happens (R22 to R32, R426, R429). A word that traps at issue, and a chain that needs room beyond QUOTA where no candidate is left to spill, leave their trap alone (R27, R104); a word that is held leaves nothing of its chain (R76, R82). -/
def Obligations.StepTrapsBadWord : Prop :=
  (∀ (s : State) (core : Nat) (defer : Bool) (rest : List Action) (u slot : Nat) (w : Wave) (k : Key) (x : Word) (f : DecodeFault),
    OneKey s core defer rest u slot w k → Taken s core w k [x] → decodeWord x = .error f →
      (k.pc.toNat % 12 / 4 = 2 → x.getLsbD 31 = false) → x.extractLsb' 25 6 ≠ 0x3F →
    step s = .next (turnTrapped s rest core defer u k (faultCode f) 0))
  ∧ (∀ (s : State) (core : Nat) (defer : Bool) (rest : List Action) (u slot : Nat) (w : Wave) (k : Key) (c : BitVec 8) (a : DWord),
    OneKey s core defer rest u slot w k → ChainFaults s core w k c a → step s = .next (turnTrapped s rest core defer u k c a))
  ∧ ∀ (s : State) (core : Nat) (defer : Bool) (rest : List Action) (u slot : Nat) (w : Wave) (k : Key) (x : Word) (i : Instr) (t : State),
    OneKey s core defer rest u slot w k → Fetched s core w k [x] → ChainOf k.pc [x] [⟨k.pc, x, i, [], []⟩] →
    ChainReady s w k [⟨k.pc, x, i, [], []⟩] → exec i (asIssued s rest core defer u k x i) = .next t →
    (t.ctx.status = .trapped → step s = .next (turnLeft s rest core u k [⟨k.pc, x, i, [], []⟩] t))
    ∧ (t.ctx.status = .ok → Wave.canSpill (notedWave s rest core u) = false → isTransfer x = false → w.quota < Wave.heldUnits (Device.wave t.dev u) →
        step s = .next (turnLeft s rest core u k [⟨k.pc, x, i, [], []⟩] (State.trap t 0x0B k.lanes 0)))
    ∧ ∀ h, t.ctx.status = .held h → h ≠ .room → (∀ f, h ≠ .frame f) → step s = .next (turnHeld s rest core u k [⟨k.pc, x, i, [], []⟩] t)

/-- Every step answers a next state: the machine neither faults nor refuses. That an event whose conditions do not hold changes nothing is the model's choice (log entry 49). -/
def Obligations.StepGoes : Prop := ∀ s : State, State.Goes s

/-- The three copies of memory that a state holds keep their canonical form through every step. -/
def Obligations.MemoryStaysCanonical : Prop := ∀ s t : State, State.Ok s → step s = .next t → State.Ok t

/-- At reset the memory has its canonical form. -/
def Obligations.ResetIsCanonical : Prop := State.Ok State.reset

/-- What reset leaves, where the spec gives it: BOOTST 1 (R454), measurements 0 (R456), every bank in cache mode and no ring bound (R174), the Pelotons' STEP 0 (R420), PCAP 0, POOLMAX 16, CLUCTL 0 (R308), no slot open, CYC 0 (R113), pair banks and slots zero with codes 127 (R273). -/
def Obligations.ResetValues : Prop :=
  State.reset.dev.sys.bootst = 1 ∧ (∀ i < 8, State.reset.dev.sys.meas.getD i 1 = 0)
  ∧ (∀ c b, b < 64 → (Device.cluster State.reset.dev c).banks.getD b .ring = .cache) ∧ (∀ c, (Device.cluster State.reset.dev c).rings = [])
  ∧ (∀ d, (Device.die State.reset.dev d).pel.step = 0 ∧ (Device.powerOf State.reset.dev d).pcap = 0
      ∧ (Device.powerOf State.reset.dev d).poolmax = 16 ∧ ∀ c < 8, (Device.powerOf State.reset.dev d).cluctl.getD c 1 = 0)
  ∧ State.reset.dev.xslots = [] ∧ (∀ k, (Device.core State.reset.dev k).cyc = 0)
  ∧ ∀ p k, Tbl.getD (Device.pair State.reset.dev p).slots k 0 = 0 ∧ Tbl.getD (Device.pair State.reset.dev p).banks k 0 = 0
      ∧ Tbl.getD (Device.pair State.reset.dev p).scales k 127 = 127

/-! ## Vector and scalar arithmetic -/

/-- Every integer word of two registers, and of a register and a scalar or literal, writes its function of the operands in the subset's lanes, and nothing else changes: plain words, bit fields, words of one operand, accumulating words, widening products, 64-bit words on register pairs (R147 to R151). -/
def Obligations.IntegerWords : Prop :=
  (∀ e ∈ ialuTable, (∀ (o : VR) (s : State), Completes (e.1 o) s (changeVR s o e.2.2))
    ∧ ∀ (o : VS) (s : State), Completes (e.2.1 o) s (changeVS s o e.2.2))
  ∧ ((∀ e ∈ extractTable, ∀ (o : VR) (s : State), Completes (e.1 o) s (changeVR s o e.2))
  ∧ (∀ e ∈ bitfAccTable, ∀ (o : VR) (s : State), Completes (e.1 o) s (changeAccVR s o e.2))
  ∧ ∀ e ∈ unaryTable, ∀ (o : VU) (s : State), Completes (e.1 o) s (changeVU s o e.2))
  ∧ ((∀ e ∈ accTable, (∀ (o : VR) (s : State), Completes (e.1 o) s (changeAccVR s o e.2.2))
    ∧ ∀ (o : VS) (s : State), Completes (e.2.1 o) s (changeAccVS s o e.2.2))
  ∧ (∀ e ∈ wideTable, (∀ (o : VR) (s : State), Completes (e.1 o) s (changeWideVR s o e.2.2))
    ∧ ∀ (o : VS) (s : State), Completes (e.2.1 o) s (changeWideVS s o e.2.2))
  ∧ ∀ e ∈ sum64Table, (∀ (o : VR) (s : State), Completes (e.1 o) s (change64VR s o e.2.2))
    ∧ ∀ (o : VS) (s : State), Completes (e.2.1 o) s (change64VS s o e.2.2))

/-- The integer and floating-point compares write a predicate (R37, R38, R151, R163). -/
def Obligations.Compares : Prop :=
  ((∀ (o : VP) (s : State), Completes (.icmp o) s (changeIcmp s o)) ∧ ∀ (o : VPS) (s : State), Completes (.icmpS o) s (changeIcmpS s o))
  ∧ ((∀ (o : VP) (s : State), o.ty.toNat < 3 → Completes (.fcmp o) s (changeFcmp s o))
  ∧ ∀ (o : VPS) (s : State), o.ty.toNat < 3 → Completes (.fcmpS o) s (changeFcmpS s o))

/-- The scalar words: arithmetic, the 64-bit sum, the selection, the compare into a flag (R91, R152). -/
def Obligations.ScalarWords : Prop :=
  (∀ e ∈ saluTable, ∀ (o : SR) (s : State), Completes (e.1 o) s (changeSR s o e.2))
  ∧ (∀ (o : SR) (s : State), Completes (.sadd64 o) s (changeSadd64 s o))
  ∧ (∀ (o : SR) (s : State), Completes (.ssel o) s (changeSsel s o))
  ∧ ∀ (o : SC) (s : State), Completes (.scmp o) s (changeScmp s o)

/-- The moves between vectors, scalars, lanes and predicates, the selection, the words that show or clear poison; the predicate words, and p0, which stays true (R109, R114 to R117, R218, R219). -/
def Obligations.MoveWords : Prop :=
  ((∀ (s : State) (i : Instr) (c : Change), Moves s i c → Completes i s c)
  ∧ ∀ (s : State) (i : Instr) (c : Option Change), LaneWords s i c → Acts i s s c)
  ∧ ((∀ (s : State) (i : Instr) (c : Change), PredWords s i c → Completes i s c)
  ∧ ∀ (w : Wave) (l : Nat), l < 64 → (Wave.pred w 0).v.getLsbD l = true ∧ (Wave.pred w 0).p.getLsbD l = false)

/-- The words that read another lane read it as it stood, in the subset or not (R118, R119). -/
def Obligations.CrossLaneWords : Prop :=
  (∀ e ∈ shuffleTable, ∀ (o : VR) (s : State), Completes (e.1 o) s (changeShuffle s o e.2))
  ∧ ∀ e ∈ quadTable, ∀ (o : VU) (s : State), Completes (e.1 o) s (changeQuad s o e.2)

/-- The scans and the reductions over the subset's lanes that are no helpers; the votes and the ballot (R72, R120 to R122). -/
def Obligations.ScansAndReductions : Prop :=
  ((∀ e ∈ scanTable, ∀ (o : VU) (s : State), Completes (e.1 o) s (changeScan s o e.2.1 e.2.2.1 e.2.2.2))
  ∧ ∀ (o : VU) (s : State), Completes (.scanAddF32 o) s (changeScanF s o))
  ∧ ((∀ e ∈ redwTable, ∀ (o : CRed) (s : State), Completes (e.1 o) s (changeRedw s o e.2.1 e.2.2))
  ∧ ∀ e ∈ redwFTable, ∀ (o : CRed) (s : State), Completes (e.1 o) s (changeRedwF s o e.2.1 e.2.2))
  ∧ (∀ (s : State) (i : Instr) (c : Change), Votes s i c → Completes i s c)

/-- ELECT chooses the lowest lane of the subset that is no helper, 64 if there is none; p0 as its destination is an illegal operand; its encoding (R96). -/
def Obligations.ElectChooses : Prop :=
  (∀ (s : State) (o : CSP) (L : Nat), (L < 64 ∧ contributes s L = true ∨ L = 64) → (∀ l < L, l < 64 → contributes s l = false) →
    Completes (.elect o) s { preds := [(o.p.toNat, fun l => (decide (l = L), false))], scals := [(o.s.toNat, ⟨BitVec.ofNat 32 L, false⟩)] })
  ∧ (∀ c n, Instr.wf (.elect ⟨c, n, 0⟩) = false)
  ∧ (∀ c n k, encodeNat (.elect ⟨c, n, k⟩) = some (c.toNat * 2 ^ 31 + 0x06000005 + n.toNat * 2 ^ 11 + k.toNat * 2 ^ 5))
  ∧ faultCode .illegalOperand = 0x03
  ∧ (∀ w : Word, w.extractLsb' 25 6 = 3 → w.extractLsb' 0 5 = 5 →
      (w.extractLsb' 5 3 = 0 ∨ w.extractLsb' 8 3 ≠ 0 ∨ w.extractLsb' 19 6 ≠ 0) → decodeWord w = .error .illegalOperand)
  ∧ decodeWord 0x06014065 = .ok (.elect ⟨0, 40, 3⟩)

/-- A read of an element whose live bit is clear returns zero with poison clear: of any register of any wave, allocated or not (R102). -/
def Obligations.DeadElementReadsZero : Prop :=
  (∀ (w : Wave) (id : RegId) (l : Nat), (∀ r, Wave.reg? w id = some r → r.live.getLsbD l = false) → Wave.elemOf w id l = ⟨0, false⟩)
  ∧ (∀ (s : State) (n l : Nat), State.elem s n l = Wave.elemOf (State.src s) (Wave.vid (State.src s) s.ctx.wb n) l)
  ∧ (∀ (w : Wave) (L : Mask) (id : RegId) (l : Nat), L.getLsbD l = true → (∀ p x, id = .pos p → Tbl.get? w.win p = some x →
      x.st = .resident ∨ x.st = .spilling) → Wave.elemOf (Wave.releaseLanes w L) id l = ⟨0, false⟩)

/-! ## Floating point -/

/-- The floating-point words of two and three operands, in both forms: operands read under FPM, one exact result, one rounding; the stochastic count (R156 to R162). fmin and fmax pick the smaller or larger operand (R160); fldexp, ffrac, flerp and fclass give what R161 says of every operand. The sign of a zero that flerp gives is the model's reading (log entry 14), and nothing is said of it here. -/
def Obligations.FloatWords : Prop :=
  ((∀ e ∈ faluTable, (∀ (o : VR) (s : State), Completes (e.1 o) s (changeFalu s o e.2.2.1 e.2.2.2.1 e.2.2.2.2))
    ∧ ∀ (o : VS) (s : State), Completes (e.2.1 o) s (changeFaluS s o e.2.2.1 e.2.2.2.1 e.2.2.2.2))
  ∧ ∀ e ∈ faluUnaryTable, (∀ (o : VU) (s : State), Completes (e.1 o) s (changeFaluU s o e.2.2.1 e.2.2.2))
    ∧ ∀ (o : VU) (s : State), Completes (e.2.1 o) s (changeFaluU s o e.2.2.1 e.2.2.2))
  ∧ (∀ x y : Fv, x ≠ .nan → y ≠ .nan → (Fv.lt x y = true ↔ Less x y))
  ∧ (∀ (t : Fmt) (fl : Bool) (a b r : Nat), t = f32 ∨ t = f16 ∨ t = bf16 → a < 2 ^ (Fmt.width t + 1) → b < 2 ^ (Fmt.width t + 1) →
      (Selects t false (flushed t fl a) (flushed t fl b) r → fminBits t fl a b = r) ∧ (Selects t true (flushed t fl a) (flushed t fl b) r → fmaxBits t fl a b = r))
  ∧ (∀ (a : Word) (c : Nat), ClassOf a c → fclassBits a.toNat = c)
  ∧ (∀ (m a b x : Word) (r : Nat → Nat), Scales m (r 0) a b x → fldexp32 m r a b = x)
  ∧ (∀ (m a x : Word) (r : Nat → Nat), Fraction m (r 0) a x → ffrac32 m r a = x)
  ∧ (∀ (m a b t x : Word) (r : Nat → Nat), Lerps m (r 0) a b t x → flerp32 m r a b t = x)
  ∧ ∀ (m a b t : Word) (r : Nat → Nat), IsFinite (in32 m a) → IsFinite (in32 m b) → IsFinite (in32 m t) →
      ratOf (in32 m a) * (1 - ratOf (in32 m t)) + ratOf (in32 m b) * ratOf (in32 m t) = 0 → (flerp32 m r a b t).extractLsb' 0 31 = 0

/-- The conversions between formats (R39, R40, R164 to R166) and the rounding to an integral value (R167); the quantisation of blocks of 32 with their scale codes (R59, R168), and back (R169); the division and the functions of one operand, rounded once to nearest (R170): their special values and exact results (R171), the correct rounding of quotients and roots, and the bounds of the others. -/
def Obligations.ConversionsAndFunctions : Prop :=
  ((∀ (o : VX) (s : State), Instr.wf (.fcvt o) = true → Completes (.fcvt o) s (changeFcvt s o))
  ∧ ∀ (o : VRnd) (s : State), Instr.wf (.frnd o) = true → Completes (.frnd o) s (changeFrnd s o))
  ∧ ((∀ e ∈ fspcTable, ∀ (o : VU) (s : State), Completes (e.1 o) s (changeFspc s o e.2))
  ∧ ∀ (o : VR) (s : State), Completes (.fdiv o) s (changeFdiv s o))
  ∧ ((∀ e ∈ mxqTable, ∀ (o : CVSK) (s : State), Completes (e.1 o) s (changeMxq s o e.2))
  ∧ ∀ e ∈ mxdqTable, ∀ (o : CVSK) (s : State), Completes (e.1 o) s (changeMxdq s o e.2.1 e.2.2))
  ∧ (∀ e ∈ blockTypes, ∀ (rm : Nat) (draws : List Nat) (x : List Fv) (r : Nat × List Nat × Bool), Quantises e.1 e.2.1 e.2.2 rm draws x r →
      mxQuant e.1 rm draws x = r)
  ∧ (∀ (fl : Bool) (f : Fv → Fv) (a r : Word), Special fl f a r → spcOf f fl a = r)
  ∧ (∀ (fl : Bool) (x y : Fv) (r : Word), SpecialDiv x y r → BitVec.ofNat 32 (nearest fl (Fv.div x y)) = r)
  ∧ (∀ (fl : Bool) (lo hi v : Fv) (r : Nat), Closes fl lo hi r → Between fl lo hi v → nearest fl v = r)
  ∧ (∀ (fl : Bool) (a : Word) (n : Int), IsFinite (Fmt.read f32 fl a.toNat) → (n : ℚ) ≤ ratOf (Fmt.read f32 fl a.toNat) →
      ratOf (Fmt.read f32 fl a.toNat) < n + 1 → -126 ≤ n → n ≤ 127 →
      (n + 127).toNat * 2 ^ 23 ≤ (spcOf Fv.exp2 fl a).toNat ∧ (spcOf Fv.exp2 fl a).toNat ≤ (n + 128).toNat * 2 ^ 23)
  ∧ (∀ (fl : Bool) (a : Word) (n : Int), IsFinite (Fmt.read f32 fl a.toNat) → (2 : ℚ) ^ n ≤ ratOf (Fmt.read f32 fl a.toNat) →
      ratOf (Fmt.read f32 fl a.toNat) < (2 : ℚ) ^ (n + 1) →
      (n : ℚ) ≤ ratOf (Fmt.value f32 (spcOf Fv.log2 fl a).toNat) ∧ ratOf (Fmt.value f32 (spcOf Fv.log2 fl a).toNat) ≤ n + 1)
  ∧ ∀ (fl : Bool) (f : Fv → Fv) (a : Word), f = Fv.sinPi ∨ f = Fv.cosPi ∨ f = Fv.tanh → IsFinite (Fmt.read f32 fl a.toNat) →
      ((spcOf f fl a).extractLsb' 0 31).toNat ≤ 0x3F800000

/-! ## Control flow -/

/-- Branches and jumps: the lanes that transfer stand at their targets, the other lanes where they stood, and nothing else changes (R25, R26, R89, R90, R92). The target of `bra`, `sbr` and `call` is the address of the word plus four times the signed offset, within 4 MiB for `bra` and 8 MiB for `sbr` and `call` (R34). -/
def Obligations.Branches : Prop :=
  (∀ (s : State) (i : Instr) (L : Mask) (f : Nat → DWord), Transfer s i L f → TargetsPass s L f →
    ∃ t, exec i s = .next t ∧ OnlyWave s t ∧ State.cur t = { State.cur s with pcs := (State.cur t).pcs }
      ∧ ∀ l < 64, Wave.pcOf (State.cur t) l = if L.getLsbD l then f l else Wave.pcOf (State.cur s) l)
  ∧ (∀ (s : State) (o : BF), (∀ l < 64, s.ctx.lanes.getLsbD l = true → State.pp s o.p.toNat l = false) →
      targetTest s (s.ctx.wordPc + 4 * o.off.signExtend 64) = none → ∃ t, exec (.bra o) s = .next t ∧ ∀ l < 64,
        s.ctx.lanes.getLsbD l = true → State.pv s o.p.toNat l ≠ (o.n == 1) → Wave.pcOf (State.cur t) l = s.ctx.wordPc + 4 * o.off.signExtend 64)
  ∧ (∀ (s : State) (o : SB), (State.flag s o.q.toNat).p = false → (State.flag s o.q.toNat).v ≠ (o.n == 1) → targetTest s (s.ctx.wordPc + 4 * o.off.signExtend 64) = none →
      ∃ t, exec (.sbr o) s = .next t ∧ ∀ l < 64,
        s.ctx.lanes.getLsbD l = true → Wave.pcOf (State.cur t) l = s.ctx.wordPc + 4 * o.off.signExtend 64)
  ∧ (∀ (s : State) (o : BC), (State.src s).handler = false → callFrame s o.sl + 48 ≤ (State.src s).wlim →
      (∀ x, Tbl.get? (State.src s).frames (callFrame s o.sl) = some x → x.st ≠ .spilled ∧ x.st ≠ .refilling) →
      targetTest s (s.ctx.wordPc + 4 * o.off.signExtend 64) = none → ∃ t, exec (.call o) s = .next t ∧ ∀ l < 64,
        s.ctx.lanes.getLsbD l = true → Wave.pcOf (State.cur t) l = s.ctx.wordPc + 4 * o.off.signExtend 64)
  ∧ (∀ o : BF, -(2 ^ 22 : Int) ≤ 4 * o.off.toInt ∧ 4 * o.off.toInt ≤ 2 ^ 22 - 4)
  ∧ (∀ o : SB, -(2 ^ 23 : Int) ≤ 4 * o.off.toInt ∧ 4 * o.off.toInt ≤ 2 ^ 23 - 4)
  ∧ ∀ o : BC, -(2 ^ 23 : Int) ≤ 4 * o.off.toInt ∧ 4 * o.off.toInt ≤ 2 ^ 23 - 4

/-- What an access's address translates to. A walk of the page tables from the record of its address space, level by level, gives the leaf, or the fault of the first entry that is absent, malformed, outside place 0x0 or unreadable; the leaf's permissions and the place of the bytes decide the rest (R196 to R202, R480). Where a buffer holds an entry about the address, that entry stands for the part of the walk down to it (R203). -/
def Obligations.Translation : Prop :=
  (∀ (d : Device) (unit asid : Nat) (k : Need) (va : DWord) (n : Nat) (r : Except (BitVec 8) Tr),
      Device.tlbFind d unit asid va.toNat = none → Translates d asid k va n r → Device.translate d unit asid k va n = r)
  ∧ ∀ (d : Device) (unit asid : Nat) (k : Need) (va : DWord) (n : Nat) (e : TlbEntry) (r : Except (BitVec 8) Tr),
      Device.tlbFind d unit asid va.toNat = some e → canonical va = true → Buffered d e k va n r → Device.translate d unit asid k va n = r

/-- Calls: the subset's lanes stand at their targets with their base moved by the slide, their entries in the frame of the new base; nothing else changes; in a handler every call raises 0x09 (R26, R128 to R130, R145). -/
def Obligations.Calls : Prop :=
  (∀ (s : State) (i : Instr) (sl : BitVec 3) (f : Nat → DWord), Claim.Calls s i sl f → TargetsPass s s.ctx.lanes f → (State.src s).handler = true →
    exec i s = .next (State.trap s 0x09 s.ctx.lanes 0))
  ∧ ∀ (s : State) (i : Instr) (sl : BitVec 3) (f : Nat → DWord), Claim.Calls s i sl f → TargetsPass s s.ctx.lanes f →
    CallFits s sl →
    ∃ t x, exec i s = .next t ∧ OnlyWave s t
      ∧ State.cur t = { State.cur s with pcs := (State.cur t).pcs, wbs := (State.cur t).wbs, frames := (State.cur t).frames }
      ∧ Tbl.get? (State.cur t).frames (callFrame s sl) = some x ∧ frameAfter s sl x
      ∧ (∀ g, g ≠ callFrame s sl → Tbl.get? (State.cur t).frames g = Tbl.get? (State.cur s).frames g)
      ∧ ∀ l < 64, Wave.pcOf (State.cur t) l = (if s.ctx.lanes.getLsbD l then f l else Wave.pcOf (State.cur s) l)
        ∧ Wave.wbOf (State.cur t) l = if s.ctx.lanes.getLsbD l then callFrame s sl else Wave.wbOf (State.cur s) l

/-- `ret`: each lane of the subset goes back to the PC and the base of its own entry, which leaves its frame; the positions that leave its view lose the lane; nothing else changes (R131). -/
def Obligations.Returns : Prop :=
  ∀ (s : State) (o : C0), State.cur s = State.src s → (∀ l < 64, s.ctx.lanes.getLsbD l = true → RetGood s l) →
    ∃ t, exec (.ret o) s = .next t ∧ OnlyWave s t
      ∧ State.cur t = { State.cur s with pcs := (State.cur t).pcs, wbs := (State.cur t).wbs, frames := (State.cur t).frames, win := (State.cur t).win }
      ∧ ∀ l < 64,
        (if s.ctx.lanes.getLsbD l then
          Wave.pcOf (State.cur t) l = retPc s l ∧ Wave.wbOf (State.cur t) l = Wave.wbOf (State.src s) l - retSlide s l
          ∧ Wave.inFrame (State.cur t) (Wave.wbOf (State.src s) l) l = false
          ∧ (∀ f, f ≠ Wave.wbOf (State.src s) l → Wave.inFrame (State.cur t) f l = Wave.inFrame (State.cur s) f l)
          ∧ (∀ id, leavesView s id l → Wave.elemOf (State.cur t) id l = ⟨0, false⟩)
          ∧ ∀ id, ¬ leavesView s id l → Wave.elemOf (State.cur t) id l = Wave.elemOf (State.cur s) id l
        else Wave.pcOf (State.cur t) l = Wave.pcOf (State.cur s) l ∧ Wave.wbOf (State.cur t) l = Wave.wbOf (State.cur s) l
          ∧ (∀ f, Wave.inFrame (State.cur t) f l = Wave.inFrame (State.cur s) f l)
          ∧ ∀ id, Wave.elemOf (State.cur t) id l = Wave.elemOf (State.cur s) id l)

/-- `exit` of lanes that leave the wave some other live lane: the choice is recorded, the lanes have exited and show nothing, every other lane's registers and PCs stay; `exit` of the last live lanes ends the wave (R93). In a handler, where exited lanes run too, an exit ends its lanes for the handler as for the wave, and the wave goes on while the handler has another lane (R429). -/
def Obligations.Exits : Prop :=
  (∀ (s : State) (i : Instr) (c : Succ), Claim.Exits s i c → State.cur s = State.src s → s.pre.wgs = s.dev.wgs →
    (succOf s = .unset ∨ succOf s = c) → (State.src s).handler = false → (∃ l < 64, (State.src s).exited.getLsbD l = false ∧ s.ctx.lanes.getLsbD l = false) →
    ∃ t, exec i s = .next t
      ∧ t = { s with dev := { s.dev with waves := t.dev.waves, wgs := t.dev.wgs } }
      ∧ Device.wg t.dev (State.src s).wg = { Device.wg s.dev (State.src s).wg with succ := c }
      ∧ (∀ g, g ≠ (State.src s).wg → Device.wg t.dev g = Device.wg s.dev g)
      ∧ (∀ u, u ≠ s.ctx.wave → Device.wave t.dev u = Device.wave s.dev u)
      ∧ (State.cur t).exited = (State.cur s).exited ||| s.ctx.lanes ∧ (State.cur t).ended = (State.cur s).ended
      ∧ (State.cur t).pcs = (State.cur s).pcs ∧ (State.cur t).wbs = (State.cur s).wbs ∧ (State.cur t).scal = (State.cur s).scal
      ∧ (State.cur t).preds = (State.cur s).preds ∧ (State.cur t).flags = (State.cur s).flags
      ∧ ∀ id l, l < 64 → (∀ p x, id = .pos p → Tbl.get? (State.cur s).win p = some x → x.st = .resident ∨ x.st = .spilling) →
        Wave.elemOf (State.cur t) id l = if s.ctx.lanes.getLsbD l then ⟨0, false⟩ else Wave.elemOf (State.cur s) id l)
  ∧ (∀ (s : State) (i : Instr) (c : Succ), Claim.Exits s i c → State.cur s = State.src s → s.pre.wgs = s.dev.wgs →
    (succOf s = .unset ∨ succOf s = c) → (State.src s).handler = false → (State.src s).exited ||| s.ctx.lanes = BitVec.allOnes 64 →
    ∃ t, exec i s = .next t ∧ (State.cur t).ended = true ∧ (State.cur t).exited = BitVec.allOnes 64 ∧ (State.cur t).active = none
      ∧ (Device.wg t.dev (State.src s).wg).succ = c ∧ t.dev.mem = s.dev.mem)
  ∧ (∀ (s : State) (i : Instr) (c : Succ), Claim.Exits s i c → State.cur s = State.src s → s.pre.wgs = s.dev.wgs →
    (succOf s = .unset ∨ succOf s = c) → (State.src s).handler = true → (State.src s).hexit ||| s.ctx.lanes ≠ BitVec.allOnes 64 →
    ∃ t, exec i s = .next t
      ∧ t = { s with dev := { s.dev with waves := t.dev.waves, wgs := t.dev.wgs } }
      ∧ Device.wg t.dev (State.src s).wg = { Device.wg s.dev (State.src s).wg with succ := c }
      ∧ (∀ u, u ≠ s.ctx.wave → Device.wave t.dev u = Device.wave s.dev u)
      ∧ (State.cur t).exited = (State.cur s).exited ||| s.ctx.lanes ∧ (State.cur t).hexit = (State.cur s).hexit ||| s.ctx.lanes
      ∧ (State.cur t).handler = true ∧ (State.cur t).ended = (State.cur s).ended ∧ (State.cur t).pcs = (State.cur s).pcs
      ∧ (State.cur t).scal = (State.cur s).scal ∧ (State.cur t).held = (State.cur s).held)

/-- A synchronisation word that names the open episode's mask, from lanes of that mask: the lanes wait, or the episode ends for all when the last one arrives; nothing else changes (R97). In a handler the episode is the handler's own (R429), beside an episode of the wave that is still open. -/
def Obligations.Synchronises : Prop :=
  (∀ (s : State) (i : Instr) (m : Mask), Syncs s i m → (State.cur s).handler = true → State.cur s = State.src s →
    episode s m = m → s.ctx.lanes &&& ~~~m = 0 → s.ctx.lanes ≠ 0 →
    ((State.cur s).waiting = 0 ∨ (State.cur s).epmask &&& ~~~((State.cur s).waiting ||| (State.cur s).exited) ≠ 0) →
    ∃ t, exec i s = .next t ∧ OnlyWave s t
      ∧ State.cur t = { State.cur s with
          hmask := m
          hwait := if m &&& ~~~((State.cur s).hwait ||| s.ctx.lanes ||| (State.cur s).hexit) = 0 then 0
            else (State.cur s).hwait ||| s.ctx.lanes })
  ∧ ∀ (s : State) (i : Instr) (m : Mask), Syncs s i m → (State.cur s).handler = false → State.cur s = State.src s →
    episode s m = m → s.ctx.lanes &&& ~~~m = 0 → s.ctx.lanes ≠ 0 →
    ∃ t, exec i s = .next t ∧ OnlyWave s t
      ∧ State.cur t = { State.cur s with
          epmask := m
          waiting := if m &&& ~~~((State.cur s).waiting ||| s.ctx.lanes ||| (State.cur s).exited) = 0 then 0
            else (State.cur s).waiting ||| s.ctx.lanes }

/-- `nop` changes nothing; its encoding, its pipe, its other fields, which must be zero (R98). -/
def Obligations.NopDoesNothing : Prop :=
  (∀ (s : State) (c : BitVec 1), exec (.nop ⟨c⟩) s = .next s)
  ∧ encode (.nop ⟨0⟩) = some 0x06000008 ∧ decodeWord 0x06000008 = .ok (.nop ⟨0⟩)
  ∧ (∀ w : Word, w.extractLsb' 25 6 = 3 → w.extractLsb' 0 5 = 8 →
      pipeOf (bitsOf w.toNat 30 25) = .sc ∧ (w.extractLsb' 5 20 ≠ 0 → decodeWord w = .error .illegalOperand))

/-! ## Memory -/

/-- Memory is little-endian: the byte at the lowest address of a value holds its bits 7:0, and a value written reads back; other bytes stay (R1). -/
def Obligations.LittleEndian : Prop :=
  ∀ (m : Memory) (a n v : Nat),
    (∀ k < n, Memory.read (Memory.writeN m a (leBytes n v)) (a + k) = BitVec.ofNat 8 (v / 2 ^ (8 * k)))
    ∧ ofLeBytes (Memory.readN (Memory.writeN m a (leBytes n v)) a n) = v % 2 ^ (8 * n)
    ∧ ∀ x, (x < a ∨ a + n ≤ x) → Memory.read (Memory.writeN m a (leBytes n v)) x = Memory.read m x

/-- The words on cluster SRAM, its banks, blocks, groups and rings (R173 to R194). That `rinit` leaves the poison of the bytes (log entry 60), that `rpush.cmt` and `rpop.rel` wait for pending accesses (log entry 29), and how `bmode` goes (log entry 24) are the model's choices. -/
def Obligations.SramWords : Prop := ∀ (s s' : State) (i : Instr) (c : Option Change), SramActs s i s' c → Acts i s s' c

/-- `stl` and `atoml` of lanes whose accesses pass complete: every stored byte holds its data, lane by lane in ascending order, every other byte of memory is as before (R185, R187, R188); where an outstanding copy has written a byte, one of the two values stays (R270). Poison of an 8-byte `atoml` follows log entry 59. -/
def Obligations.LocalAccesses : Prop :=
  (∀ (s : State) (o : MS), o.sz.toNat ≤ 4 → LocalPass s o.b o.a (storers s) (2 ^ o.sz.toNat) →
    DataClean s o.x (max 1 (2 ^ o.sz.toNat / 4)) (storers s) → HasRoom s 1 →
    State.localWaits s (localAt s o.b o.a) (storers s) (2 ^ o.sz.toNat) true = false → ∃ t, exec (.stl o) s = .next t ∧ StoredLocal s o t)
  ∧ (∀ (s : State) (o : MA), LocalPass s o.b o.a (storers s) (if wideAtom o.op then 8 else 4) →
    DataClean s o.x (atomData o.op) (storers s) → LinesPresent s o.b o.a (storers s) (if wideAtom o.op then 8 else 4) → HasRoom s 0 →
    State.localWaits s (localAt s o.b o.a) (storers s) (if wideAtom o.op then 8 else 4) true = false →
    ∃ t keep, exec (.atoml o) s = .next t ∧ AtomLocal s o keep t)

/-- The books of a ring hold through commits, releases and reservations (R192). -/
def Obligations.RingBooksHold : Prop :=
  ∀ (x : Ring) (h : Nat) (e : Bool), RingBooks x →
    RingBooks (Ring.commit x h e) ∧ RingBooks (Ring.release x h e) ∧ (∀ n, RingBooks (Ring.takeProd x h e n)) ∧ ∀ n, RingBooks (Ring.takeCons x h e n)

/-- `ld` of lanes whose addresses pass completes: the data registers hold the bytes, a fault poisons its lane, nothing else changes, but that a leaf which the cluster L1 does not serve sends what the L1 holds of the line to its point of coherence (R196, R205, R210, R211, R229, R232). -/
def Obligations.GlobalLoads : Prop :=
  ∀ (s : State) (o : ML), o.sz.toNat ≤ 4 → GlobalPass s o.b o.a s.ctx.lanes (2 ^ o.sz.toNat) → Prompt s 0 → s.ctx.lanes ≠ 0 →
    (∀ l < 64, s.ctx.lanes.getLsbD l = true → MemoryOnly s .r (2 ^ o.sz.toNat) (globalAt s o.b o.a l)) →
    ∃ t, exec (.ld o) s = .next t ∧ RegsLead (changeLd s o) s t
      ∧ OnlyLoaded s (passedBefore s s.ctx.lanes (2 ^ o.sz.toNat) (globalAt s o.b o.a) 64) t
          (poisonAfter s (lanesOf s.ctx.lanes) (2 ^ o.sz.toNat) (globalAt s o.b o.a))
      ∧ SameButDirty s t

/-- `st` of lanes whose addresses pass and whose pages take the store completes: every stored byte of memory, in every copy of a replicated page and in the mirror of a mirrored one, holds the data of the highest lane that covers it, every other byte is as before; where an outstanding copy has written a byte, what stood there may stay; stores to device registers are posted in lane order; a mirror out of reach is logged (R196, R207, R208, R211, R270, R448, R452). -/
def Obligations.GlobalStores : Prop :=
  ∀ (s : State) (o : MS) (tr : Nat → Tr), o.sz.toNat ≤ 4 → GlobalPass s o.b o.a (storers s) (2 ^ o.sz.toNat) →
    DataClean s o.x (max 1 (2 ^ o.sz.toNat / 4)) (storers s) → Prompt s 1 → storers s ≠ 0 →
    (∀ l < 64, (storers s).getLsbD l = true → Storable s (2 ^ o.sz.toNat) (globalAt s o.b o.a l) (tr l)) →
    ∃ t, exec (.st o) s = .next t ∧ RegsLead { reads := [(o.la, o.a.toNat)] } s t ∧ OnlyStored s t
      ∧ BytesStored s t (storers s) tr (2 ^ o.sz.toNat) (dataByte s o.x)
      ∧ t.dev.inbox = s.dev.inbox
        ++ registerWrites s (storers s) (fun l => (tr l).pa) (2 ^ o.sz.toNat) (storeValue s o.x (2 ^ o.sz.toNat))

/-- `atom` and `red` on plain memory complete: lane by lane in ascending order; `atom` gives the old values (R214 to R216); where an outstanding copy has written a byte, what stands may stay (R270). The poison of a wide atomic's old value follows log entry 59. -/
def Obligations.GlobalAtomics : Prop :=
  ∀ (s : State) (o : MA) (tr : Nat → Tr), storers s ≠ 0 → AtomPlain s o tr →
    ((∀ l < 64, (storers s).getLsbD l = true → Writable s .rw (if wideAtom o.op then 8 else 4) (globalAt s o.b o.a l) (tr l)) → Prompt s 0 →
      ∃ t keep, exec (.atom o) s = .next t ∧ OnlyStored s t ∧ AtomMemory s t o tr keep
      ∧ (∀ id l, l < 64 → Wave.elemOf (State.cur t) id l = atomShows s o tr keep id l)
      ∧ ∀ n, Wave.sc (State.cur t) n = Wave.sc (State.cur s) n)
    ∧ ((∀ l < 64, (storers s).getLsbD l = true → Writable s .w (if wideAtom o.op then 8 else 4) (globalAt s o.b o.a l) (tr l)) → Prompt s 1 →
      ∃ t keep, exec (.red o) s = .next t ∧ OnlyStored s t ∧ AtomMemory s t o tr keep
      ∧ RegsLead { reads := [(o.la, o.a.toNat)] } s t)

/-- The exact-accumulation words complete: slots open, take exact additions in lane order, and close to a rounded sum with its flags; an addition to a destination without a slot is dropped and sets the error bit of its launch (R221 to R224). -/
def Obligations.ExactAccumulation : Prop :=
  (∀ (s : State) (o : MD) (tr : Nat → Tr), storers s ≠ 0 → Prompt s 0 → ExactPass s o .w tr →
    ∃ t, exec (.dopen o) s = .next t ∧ OnlyOpened s t
      ∧ t.dev.xslots = openBefore s.dev.xslots (storers s) (slotFor s tr) 64
      ∧ ∀ id l, l < 64 → Wave.elemOf (State.cur t) id l =
        laneShows s o.la o.a (storers s) o.x.toNat 1
          (fun l _ => ⟨BitVec.ofNat 32 (openOne (openBefore s.dev.xslots (storers s) (slotFor s tr) l) (slotFor s tr l)).2, false⟩) id l)
  ∧ (∀ (s : State) (o : MD) (tr : Nat → Tr), storers s ≠ 0 → Prompt s 1 → ExactPass s o .w tr → DataClean s o.x 1 (storers s) →
    Device.holding s.dev (State.cur s).core < 16 →
    ∃ t, exec (.dadd o) s = .next t ∧ OnlyAdded s t tr ∧ t.dev.xslots = addBefore s o tr 64
      ∧ RegsLead { reads := [(o.la, o.a.toNat)] } s t)
  ∧ ∀ (s : State) (o : MD) (tr : Nat → Tr), storers s ≠ 0 → Prompt s 0 → ExactPass s o .rw tr →
    ∃ t, exec (.dclose o) s = .next t ∧ OnlyClosed s t ∧ t.dev.xslots = closeBefore s tr 64
      ∧ SumsStored s t (storers s) tr
      ∧ ∀ id l, l < 64 → Wave.elemOf (State.cur t) id l =
        laneShows s o.la o.a (storers s) o.x.toNat 2
          (fun l i => if i = 0 then ⟨BitVec.ofNat 32 (closeSum (closedSlot s tr l)), false⟩ else ⟨BitVec.ofNat 32 (closeFlags (closedSlot s tr l)), false⟩) id l

/-- Where nine words complete, and what each of them then has done: `ret` and both `calli` have moved their lanes (R129 to R131), `st` and `stl` hold their data in memory (R188, R211), `atoml` has written what its last lane computes (R188), `dopen` leaves a slot open at each destination or its home full, `dadd` has added, `dclose` leaves no slot open (R222 to R224). The chain goes on, and of the module's other waves none has changed. -/
def Obligations.NineWordsComplete : Prop :=
  ((∀ (s : State) (o : C0), State.cur s = State.src s → (∀ l < 64, s.ctx.lanes.getLsbD l = true → RetGood s l) →
    ∃ t, exec (.ret o) s = .next t ∧ GoesOn s t ∧ ∀ l < 64, s.ctx.lanes.getLsbD l = true →
      Wave.pcOf (State.cur t) l = retPc s l ∧ Wave.wbOf (State.cur t) l + retSlide s l = Wave.wbOf (State.src s) l)
  ∧ (∀ (s : State) (o : CCallS), (pairScalar s o.s.toNat).2 = false → targetTest s (pairScalar s o.s.toNat).1 = none → CallFits s o.sl →
    ∃ t, exec (.calliS o) s = .next t ∧ GoesOn s t ∧ ∀ l < 64, s.ctx.lanes.getLsbD l = true →
      Wave.pcOf (State.cur t) l = (pairScalar s o.s.toNat).1 ∧ Wave.wbOf (State.cur t) l = callFrame s o.sl)
  ∧ ∀ (s : State) (o : CCallV), (∀ l < 64, s.ctx.lanes.getLsbD l = true →
      (pairElem s o.v.toNat l).2 = false ∧ targetTest s (pairElem s o.v.toNat l).1 = none) → CallFits s o.sl →
    ∃ t, exec (.calliV o) s = .next t ∧ GoesOn s t ∧ ∀ l < 64, s.ctx.lanes.getLsbD l = true →
      Wave.pcOf (State.cur t) l = (pairElem s o.v.toNat l).1 ∧ Wave.wbOf (State.cur t) l = callFrame s o.sl)
  ∧ ((∀ (s : State) (o : MS) (tr : Nat → Tr), o.sz.toNat ≤ 4 → GlobalPass s o.b o.a (storers s) (2 ^ o.sz.toNat) →
      DataClean s o.x (max 1 (2 ^ o.sz.toNat / 4)) (storers s) → Prompt s 1 → storers s ≠ 0 →
      (∀ l < 64, (storers s).getLsbD l = true → Storable s (2 ^ o.sz.toNat) (globalAt s o.b o.a l) (tr l)) →
      ∃ t, exec (.st o) s = .next t ∧ GoesOn s t ∧ BytesStored s t (storers s) tr (2 ^ o.sz.toNat) (dataByte s o.x))
    ∧ (∀ (s : State) (o : MS), o.sz.toNat ≤ 4 → LocalPass s o.b o.a (storers s) (2 ^ o.sz.toNat) →
      DataClean s o.x (max 1 (2 ^ o.sz.toNat / 4)) (storers s) → HasRoom s 1 →
      State.localWaits s (localAt s o.b o.a) (storers s) (2 ^ o.sz.toNat) true = false →
      ∃ t, exec (.stl o) s = .next t ∧ GoesOn s t ∧ ∀ l < 64, (storers s).getLsbD l = true → (∀ h < 64, l < h → (storers s).getLsbD h = false) →
        ∀ k < 2 ^ o.sz.toNat, ¬ Raced s (2 ^ 48 + (State.src s).core / 8 * 2 ^ 23 + (localAt s o.b o.a l).toNat + k) →
          localByte t ((localAt s o.b o.a l).toNat + k) = dataByte s o.x l k)
    ∧ ∀ (s : State) (o : MA), LocalPass s o.b o.a (storers s) (if wideAtom o.op then 8 else 4) →
      DataClean s o.x (atomData o.op) (storers s) → LinesPresent s o.b o.a (storers s) (if wideAtom o.op then 8 else 4) → HasRoom s 0 →
      State.localWaits s (localAt s o.b o.a) (storers s) (if wideAtom o.op then 8 else 4) true = false →
      ∃ t keep, exec (.atoml o) s = .next t ∧ GoesOn s t ∧ KeepsRaced s (localPa s o.b o.a) keep
        ∧ t.dev.mem = atomBefore o.op (storers s) (localPa s o.b o.a) (atomElems s o.x) keep s.dev.mem 64)
  ∧ ((∀ (s : State) (o : MD) (tr : Nat → Tr), storers s ≠ 0 → Prompt s 0 → ExactPass s o .w tr →
      ∃ t, exec (.dopen o) s = .next t ∧ GoesOn s t ∧ t.dev.xslots = openBefore s.dev.xslots (storers s) (slotFor s tr) 64)
    ∧ (∀ (s : State) (o : MD) (tr : Nat → Tr), storers s ≠ 0 → Prompt s 1 → ExactPass s o .w tr → DataClean s o.x 1 (storers s) →
      Device.holding s.dev (State.cur s).core < 16 →
      ∃ t, exec (.dadd o) s = .next t ∧ GoesOn s t ∧ t.dev.xslots = addBefore s o tr 64)
    ∧ ∀ (s : State) (o : MD) (tr : Nat → Tr), storers s ≠ 0 → Prompt s 0 → ExactPass s o .rw tr →
      ∃ t, exec (.dclose o) s = .next t ∧ GoesOn s t
        ∧ ∀ l < 64, (storers s).getLsbD l = true → openAt t.dev.xslots (asidNow s) (tr l).pa = false)

/-- The scalar memory words complete (R154). -/
def Obligations.ScalarMemory : Prop :=
  (∀ e ∈ sldTable, ∀ (s : State) (o : SR), SmemPass s o e.2 → Prompt s 0 → s.ctx.lanes ≠ 0 → MemoryOnly s .r e.2 (smemAt s o) →
    ∃ t, exec (e.1 o) s = .next t ∧ RegsLead (changeSld s o e.2) s t
      ∧ OnlyLoaded s (passOne s s.dev e.2 (smemAt s o)) t (poisonAfter s [0] e.2 (fun _ => smemAt s o)) ∧ SameButDirty s t)
  ∧ ∀ e ∈ sstTable, ∀ (s : State) (o : SR) (tr : Tr), SmemPass s o e.2 → (∀ i < e.2 / 4, (State.sc s (o.d.toNat + i)).p = false) →
    Prompt s 1 → storers s ≠ 0 → Storable s e.2 (smemAt s o) tr →
    ∃ t, exec (e.1 o) s = .next t ∧ RegsLead {} s t ∧ OnlyStored s t
      ∧ BytesStored s t 1 (fun _ => tr) e.2 (fun _ k => scalarByte s o.d.toNat k)
      ∧ t.dev.inbox = s.dev.inbox ++ registerWrites s 1 (fun _ => tr.pa) e.2 (fun _ => scalarValue s o.d.toNat e.2)

/-! ## Barriers, engines, system words -/

/-- The barrier words (R252 to R256). -/
def Obligations.BarrierWords : Prop := ∀ (s s' : State) (i : Instr) (c : Option Change), BarActs s i s' c → Acts i s s' c

/-- The words that hand work to an engine complete: the operation joins the queue of the core, outstanding in its class, with what it captured; nothing else changes but what the word names (R195, R239, R258 to R298, R318 to R337, R357 to R377, R407). That an `hxq` without a descriptor may run with registers as its output is the model's reading (log entry 11). -/
def Obligations.EngineWords : Prop :=
  (∀ (s s' : State) (i : Instr) (op : EngOp) (c : Option Change) (last : Bool), EngineActs s i s' op c → MayQueue s' op last →
    Acts i s (queued s' op last) c)
  ∧ ∀ (s : State) (o : EV), Device.slotBusy s.dev s.ctx.wave s.ctx.lanes = false → Completes (.tget o) s (changeTget s o)

/-- The system words: special registers, quota, fences, waits, cache and translation words, descriptors, launches, the window flush (R88, R95, R106, R107, R111 to R113, R139 to R145, R155, R220, R234, R241, R258, R278, R279, R298, R397, R398, R434, R438); a LIT and a prefetch hint change nothing (R29, R217). That writes of QUOTA and `quota` judge HELD as the turn began (log entry 58), the mask of FPM and the 16 bits of QUOTA and WLIM (log entry 15), and what a fence waits for (log entry 22) are the model's choices. -/
def Obligations.SystemWords : Prop :=
  (∀ (s s' : State) (i : Instr) (c : Option Change), SystemActs s i s' c → Acts i s s' c)
  ∧ (∀ (s : State) (i : Instr), Idle i → exec i s = .next s)

/-! ## Traps -/

/-- Taking a trap (R429, R431, R433): the cause stands in the registers and in the frame with the lanes' PCs; the unfinished words stand in the replay queue, oldest first, and in its images, an image without an entry zero; every lane at TBAS, in handler mode; other waves stay. A per-lane global word that stays in the core holds, in what becomes its entry, the word, its lanes and its operands as it read them. -/
def Obligations.TrapEntry : Prop :=
  (∀ (d : Device) (u pa : Nat) (code num : BitVec 8) (trlm tram : Mask) (trpc trpa : DWord) (trwb : Nat), CanEnter d u pa →
    (entriesOf (Device.wave d u)).length ≤ 6 → (Device.wave d u).held = [] →
    (Device.wave (Device.trapEntry d u code trlm tram trpc trwb trpa num) u)
        = enteredWave (Device.wave d u) code trlm tram trpc trwb trpa num
      ∧ (∀ v, v ≠ u → Device.wave (Device.trapEntry d u code trlm tram trpc trwb trpa num) v = Device.wave d v)
      ∧ (∀ off n v, FrameField
          { Device.wave d u with
            trc := code, trlm := trlm, tram := tram, trpc := trpc, trwb := trwb, trpa := trpa, trnum := num
            trqn := (entriesOf (Device.wave d u)).length } off n v →
          memNum (Device.trapEntry d u code trlm tram trpc trwb trpa num) (pa + off) n = v % 2 ^ (8 * n))
      ∧ (∀ e r, (entriesOf (Device.wave d u))[e]? = some r → ∀ off n v, ImageField r off n v →
          memNum (Device.trapEntry d u code trlm tram trpc trwb trpa num) (pa + 0x600 + 0x600 * e + off) n = v % 2 ^ (8 * n))
      ∧ ∀ e, (entriesOf (Device.wave d u)).length ≤ e → e < 6 → ∀ k < 0x600,
          memNum (Device.trapEntry d u code trlm tram trpc trwb trpa num) (pa + 0x600 + 0x600 * e + k) 1 = 0)
  ∧ ∀ (s : State) (i : Instr) (b : BitVec 8) (a x : BitVec 6) (la : BitVec 1) (n z c : Nat) (st : Bool), PerLane i b a la x n z c st →
    GlobalPass s b a (actors s st) z → DataClean s x n (actors s st) → actors s st ≠ 0 → Waits s i c →
    ∃ t, exec i s = .next t ∧ (State.cur t).pend = (State.cur s).pend ++ [.word s.dev.uid (captured s b a x n c st)]
      ∧ Wave.counter (State.cur t) c = Wave.counter (State.cur s) c + 1
      ∧ (∀ u, u ≠ s.ctx.wave → Device.wave t.dev u = Device.wave s.dev u) ∧ SameMemory s t

/-- A double fault kills the workgroup, ends its waves and sets its launch's error bit (R404, R430). -/
def Obligations.DoubleFault : Prop :=
  ∀ (d : Device) (u : Nat) (code num : BitVec 8) (trlm tram : Mask) (trpc trpa : DWord) (trwb : Nat) (wg : Workgroup) (l : Launch), Doubles d u →
    Tbl.get? d.wgs (Device.wave d u).wg = some wg → Tbl.get? d.launches (Device.gang d wg.gang).launch = some l →
    Killed d (Device.trapEntry d u code trlm tram trpc trwb trpa num) (Device.wave d u).wg wg
    ∧ (Device.launch (Device.trapEntry d u code trlm tram trpc trwb trpa num) (Device.gang d wg.gang).launch).err = true

/-- The words that are not allowed where they stand raise the trap named, for the whole subset and with none of their effect (R27, R111, R112, R252, R277, R434 to R437); so do the words that read a poisoned scalar, with 0x05 (R206). Words whose operands do not pass raise the trap of the first test that fails, for the lanes that fail it: addresses of global, scalar and local words (R154, R178, R188, R196, R206), targets (R26, R92), returns (R131), calls (R130, R145), synchronisation masks (R97), exits (R93). Of targets that fail in different ways the lowest lane's failure is reported, the model's choice (log entry 57). TRPA 0 for a matrix word that may not use its pair is the model's reading (log entry 28). -/
def Obligations.WordTraps : Prop :=
  (∀ (s : State) (i : Instr) (c : BitVec 8), Forbidden s i c → exec i s = .next (State.trap s c s.ctx.lanes 0))
  ∧ (∀ (s : State) (i : Instr), PoisonRead s i → exec i s = .next (State.trap s 0x05 s.ctx.lanes 0))
  ∧ (∀ (s : State) (i : Instr) (m : Mask) (c : BitVec 8) (a : DWord), OperandTraps s i m c a → exec i s = .next (State.trap s c m a))
  ∧ ∀ (s : State) (t : DWord), targetTest s t = targetRule s t

/-- `brk` and `trap` take their exception at the boundary after their chain, with the lanes at the next chain and the number of the word (R435). -/
def Obligations.SoftTraps : Prop :=
  ∀ (s : State) (i : Instr) (code n : BitVec 8), Claim.SoftTraps i code n →
    ∃ d, exec i s = .next
          { s with dev := Device.trapEntry d s.ctx.wave code s.ctx.lanes s.ctx.lanes s.ctx.nextPc s.ctx.wb 0 n, ctx := { s.ctx with status := .trapped } }
      ∧ d = { s.dev with waves := d.waves } ∧ (∀ u, u ≠ s.ctx.wave → Device.wave d u = Device.wave s.dev u)
      ∧ Device.wave d s.ctx.wave = { State.cur s with pcs := (Device.wave d s.ctx.wave).pcs }
      ∧ ∀ l < 64, Wave.pcOf (Device.wave d s.ctx.wave) l = if s.ctx.lanes.getLsbD l then s.ctx.nextPc else Wave.pcOf (State.cur s) l

/-- `rte` that meets no double fault leaves the handler with what the frame holds, and no byte of memory changes (R436); the replay words complete: an image is written, an entry discarded, an entry loaded again (R437). -/
def Obligations.HandlerWords : Prop :=
  (∀ (s : State) (o : C0) (qf exit shi ship pcs : List Byte), FrameRead s qf exit shi ship pcs → Claim.Returns s exit pcs →
    ∃ t, exec (.rte o) s = .next t ∧ OnlyWave s t ∧ Returned (State.src s) (State.cur t) qf exit shi ship pcs)
  ∧ (∀ (s s' : State) (i : Instr) (c : Option Change), ReplayActs s i s' c → Acts i s s' c)

/-! ## Traversal micro-operations -/

/-- The micro-operations leave the ray that the spec gives, and the program goes on at the next index or at the branch target (R343 to R353, R373). The corners of the slab test and of the bounds of SETB and STB follow log entry 31. -/
def Obligations.MicroOperations : Prop :=
  (∀ (s : State) (r r' : Ray) (i : Instr), RayRuns s r → RayActs s r i r' → exec i s = .next (withRay s s.dev (ranOn r' (nextIndex r))))
  ∧ (∀ (s : State) (r : Ray) (o : UBr), RayRuns s r → brCond r o.d.toNat (reg r o.a) (reg r o.b) = true →
      exec (.miBr o) s = .next (withRay s s.dev (ranOn r o.t.toNat)))
  ∧ (∀ (s : State) (r : Ray) (o : ULoop), RayRuns s r → o.a = 0 ∨ reg r o.a ≠ 1 →
      exec (.miLoop o) s = .next (withRay s s.dev (ranOn (setReg r o.a.toNat (reg r o.a - 1)) o.t.toNat)))
  ∧ (∀ (s : State) (r : Ray) (o : USetb) (b : List Word), RayRuns s r → o.m = 1 → r.stamp = true → b.length = 6 → b.any nanW = true →
      (∀ j < 6, r.field (boxField r.lay.image j) (reg r o.a).toNat = some (b.getD j 0)) →
      exec (.miSetb o) s
        = .next (withRay s { s.dev with freeCtr := s.dev.freeCtr + 6 } (ranOn (unitedNan s.dev r b) (nextIndex r))))
  ∧ ∀ (s : State) (r r' : Ray) (o : UStb) (rs : List (Nat × Nat)) (k : Nat) (d : Device), RayRuns s r → r.stamp = true → r.node ≠ [] →
      stamped s r o = some (r', rs, k) → Device.rayWrite s.dev (rayWave s) (touched r.nodeAddr r'.node rs) = .ok d →
      exec (.miStb o) s = .next (withRay s { d with freeCtr := d.freeCtr + k } (ranOn r' (nextIndex r)))

/-- What ends or leaves a ray: TERM, the program errors, YIELD, the end of the budget (R345, R349, R354 to R356, R358); a ray that suspends writes the 32 units of its record, each once, in an order that R371 leaves open, and finishes with the last. -/
def Obligations.RayEndings : Prop :=
  (∀ (s : State) (r : Ray) (i : Instr) (code detail : Nat), RayRuns s r → RayEnds r i code detail →
    exec i s = .next (withRay s s.dev (ended (ranOn r r.mpc) code detail)))
  ∧ (∀ (s : State) (r : Ray) (o : UYield), RayRuns s r → RecordFits s.dev s.ctx.wave s.ctx.lane (ranOn r (r.mpc + 1)) 6 o.r.toNat →
      exec (.miYield o) s = .next { s with dev := suspending s.dev s.ctx.wave s.ctx.lane (ranOn r (r.mpc + 1)) 6 o.r.toNat })
  ∧ (∀ (s : State) (r : Ray) (i : Instr), Tbl.get? (Device.wave s.dev s.ctx.wave).rays s.ctx.lane = some r → r.st = .running →
      r.lim = true → r.budget = 0 → Instr.isMicro i = true → RecordFits s.dev s.ctx.wave s.ctx.lane r 5 0 →
      exec i s = .next { s with dev := suspending s.dev s.ctx.wave s.ctx.lane r 5 0 })
  ∧ (∀ (d d' : Device) (u l n : Nat) (r : Ray) (rest : List Nat), r.todo = n :: rest →
      Device.rayWrite d (Device.wave d u) [(r.slot l + BitVec.ofNat 64 (8 * n), ((r.recordBytes r.res r.detail).drop (8 * n)).take 8)] = .ok d' →
      Device.rayStore d u l r
        = Device.setWave d' u { Device.wave d' u with rays := Tbl.put (Device.wave d' u).rays l (wroteUnit r rest) })
  ∧ ∀ d : Device, (Device.anyOrder d (List.range 32)).Perm (List.range 32)

/-- PUSH and POP: the stack of twelve handles, its overflow, the empty stack's program error (R348). -/
def Obligations.RayStack : Prop :=
  (∀ (s : State) (r : Ray) (o : UA), RayRuns s r → ∃ r' : Ray, exec (.miPush o) s = .next (withRay s s.dev (ranOn r' (nextIndex r)))
      ∧ (r.stack.length < 12 → r' = { r with stack := r.stack ++ [reg r o.a] })
      ∧ (r.stack.length = 12 → r' = { r with stack := r.stack.tail ++ [reg r o.a], slost := true, xd := if 0 < r.xd then r.xd - 1 else 0 }))
  ∧ (∀ (s : State) (r : Ray) (o : UD) (v : Word) (l : List Word), RayRuns s r → r.stack = l ++ [v] →
      exec (.miPop o) s = .next (withRay s s.dev (ranOn (setReg { r with stack := l } o.d.toNat v) (nextIndex r))))
  ∧ ∀ (s : State) (r : Ray) (o : UD), RayRuns s r → r.stack = [] →
      ∃ r' : Ray, exec (.miPop o) s = .next (withRay s s.dev r') ∧ r'.st = .finished ∧ r'.res = 8 ∧ r'.detail = 2 ∧ r'.regs = r.regs

/-! ## Events -/

/-- The events of the active set, of the watchdog and traps, of soft errors and successors (R75 to R77, R88, R94, R212, R426, R429, R480). What a soft error takes of a lane's state, and of a uniform register, is the model's choice (log entries 21, 75). -/
def Obligations.WaveEvents : Prop := ∀ (s t : State) (i : Instr), Claim.WaveEvents s i t → exec i s = .next t

/-- The events of the Cassette (R133 to R137, R140, R141); the free choice of a refill is the model's form of R141 (log entry 55), as are the places of spilled bytes and their order (log entries 17, 47). -/
def Obligations.CassetteEvents : Prop := ∀ (s t : State) (i : Instr), Claim.CassetteEvents s i t → exec i s = .next t

/-- The events of the engines (R195, R221 to R224, R239, R268, R271, R275, R289, R322 to R324, R357). TRPA of an engine word's failing check and the place of a poisoned source are the model's reading (log entries 28, 30). -/
def Obligations.EngineEvents : Prop := ∀ (s t : State) (i : Instr), Claim.EngineEvents s i t → exec i s = .next t

/-- What the engines compute. When a `mclr` retires, each bank of its mask holds +0 with poison clear and the other banks are as they were, whatever FMT holds; a mask of 0 and non-zero bits above it are illegal operands (R297). A `mload` fills its slot with the stationary operand's elements and codes (R286, R287); a row pass of a `mmul` leaves the exact row sums in its bank (R70, R289); operand elements stand where their descriptor puts them (R190, R282); a register drain delivers the bank's elements and clears them with `.clr`, and a drained row holds the converted elements (R293, R294). A hash query delivers its features (R327 to R329), a gradient word makes its additions (R330), and version words act on their header (R322, R323). A box copy's footprint holds the box's elements and fills, a tile whose source fails stops the copy, and a lane copy moves or fails its lane (R262, R265, R269, R270). -/
def Obligations.EngineResults : Prop :=
  (∀ (d : Device) (o : EngOp) (b r n : Nat), o.kind = .mclr → b < 4 → r < 64 → n < 128 →
    (if o.ctl.testBit b then
      Tbl.getD (Device.pair (Device.pairEffect d o).1 (pairOf o.core)).banks (bankKey b r n) 0 = 0
        ∧ (Device.pair (Device.pairEffect d o).1 (pairOf o.core)).bankP.contains (bankKey b r n) = false
    else
      Tbl.getD (Device.pair (Device.pairEffect d o).1 (pairOf o.core)).banks (bankKey b r n) 0 = Tbl.getD (Device.pair d (pairOf o.core)).banks (bankKey b r n) 0
        ∧ (Device.pair (Device.pairEffect d o).1 (pairOf o.core)).bankP.contains (bankKey b r n)
          = (Device.pair d (pairOf o.core)).bankP.contains (bankKey b r n)))
  ∧ (∀ (d : Device) (o : EngOp) (f : Word), o.kind = .mclr → (Device.pairEffect d { o with fmt := f }).1 = (Device.pairEffect d o).1)
  ∧ (∀ o : EMask, Instr.wf (.mclr o) = decide (o.m ≠ 0))
  ∧ (∀ w : Word, w.extractLsb' 25 6 = 0x2C → w.extractLsb' 0 5 = 5 → (w.extractLsb' 5 4 = 0 ∨ w.extractLsb' 9 2 ≠ 0) →
      decodeWord w = .error .illegalOperand)
  ∧ (∀ (d : Device) (o : EngOp), fmtOk o.fmt = true → o.kind = .mload → o.reg < 2 → SlotLoaded d (Device.pairEffect d o).1 o)
  ∧ (∀ (d : Device) (o : EngOp) (r : Nat), fmtOk o.fmt = true → r < 64 → RowPassed d (Device.mmulRow d o r).1 o r)
  ∧ (∀ (o : EngOp) (a b i j w : Nat), fmtOk o.fmt = true → w = fmtW o.fmt → o.mdesc.kind < 2 → (i, j) = (if o.mdesc.ord then (b, a) else (a, b)) →
      EngOp.elemAt o a b = (if i < o.mdesc.rows ∧ j < o.mdesc.cols then
        .sram (storedAt o.mdesc (if o.mdesc.kind = 1 then o.entries.headD 0 else o.mdesc.base) w i j) (j * w % 8) else .none))
  ∧ (∀ (d : Device) (o : EngOp) (w : Wave) (i l : Nat) (id : RegId), Tbl.get? d.waves o.wave = some w → o.dests[i]? = some id → o.dests.Nodup →
      Reaches w o id l → ∃ w', Tbl.get? (Device.drainRegs d o).waves o.wave = some w' ∧ holds w' id l (drainedElem d o (DCtl.of (o.scal.getD 0 0)) i l))
  ∧ (∀ (d : Device) (o : EngOp), (DCtl.of (o.scal.getD 0 0)).c0 + (DCtl.of (o.scal.getD 0 0)).nc ≤ 128 →
      ClearedAs d (Device.drainRegs d o) o (DCtl.of (o.scal.getD 0 0)))
  ∧ (∀ (d : Device) (o : EngOp) (c : DCtl) (r i : Nat), (c.mxo = false ∨ fmtAcc o.fmt = true) → i < c.nc →
      (EngOp.drainRow o c (Device.pair d (pairOf o.core)) r).1[i]? = some (drainedCode o c (bankWord d (pairOf o.core) (o.ctl % 4) r (c.c0 + i)) r (c.c0 + i)))
  ∧ (∀ (d : Device) (o : EngOp) (w : Wave) (k l : Nat) (id : RegId), Tbl.get? d.waves o.wave = some w → o.dests[k]? = some id → o.dests.Nodup →
      ((o.scal.getD 0 0).extractLsb' 8 2 ≠ 3) → Reaches w o id l →
      k < (if (o.scal.getD 0 0).extractLsb' 8 2 = 0 then 2 else 1) * (((o.scal.getD 0 0).extractLsb' 16 4).toNat + 1) →
      ∃ w', Tbl.get? (Device.hashQuery d o).waves o.wave = some w' ∧ holds w' id l (queried d o k l))
  ∧ (∀ (o : EngOp) (v l : Nat), EngOp.corners o v l = (List.range 8).map (lookOf o v l))
  ∧ (∀ (o : EngOp) (a : DWord) (x : Nat), (a, x) ∈ o.additions ↔ Adds o a x)
  ∧ (∀ (d d' : Device) (o : EngOp) (v : VOut), o.kind = .hxcfg ∨ o.kind = .vbind ∨ o.kind = .vpub → Versions d o d' v → Device.versionStep d o = (d', v))
  ∧ (∀ bs : List Byte, hdrBad bs = true ↔ ConfigBad bs)
  ∧ (∀ (t : TRec) (c : List Int) (r k : Nat) (b : BSrc), BoxOk t c → t.swiz = 0 → r < t.rowCount → k < t.pitch → BoxByte t c r k b →
      t.byteAt c (t.pitch * r + k) = b)
  ∧ (∀ (d : Device) (o : EngOp) (t : TRec) (a : DWord) (c : BitVec 8), TileStops d o t a c → Device.tileCpt d o = boxStops d o a c ((t.foot + 127) / 128))
  ∧ ∀ (d : Device) (o : EngOp) (x : Device × EngOp), LaneTile d o x → (if o.kind = .cpl then Device.tileCpl d o else Device.tileCpls d o) = x

/-- The events of power, tokens, margins and clocks; a controller period; the stop of every clock at 120 degrees (R113, R300 to R315, R454). The order of the controller's work in a period, the plan of a margin and what the firmware's tables hold are the model's choices (log entries 33, 44, 63). -/
def Obligations.PowerEvents : Prop :=
  (∀ (s t : State) (i : Instr), Claim.PowerEvents s i t → exec i s = .next t)
  ∧ (∀ (s : State) (die : Nat) (inp : Telemetry), s.dev.sys.held = false →
    ∃ t, exec (.evControllerPeriod die inp) s = .next t ∧ PeriodSets s t die inp)
  ∧ ∀ (s : State) (die cl : Nat), cl < 8 → 120 * 8 ≤ (Device.powerOf s.dev die).temps.getD cl 0 →
    ∃ t, exec (.evThermalStop die cl) s = .next t ∧ Stopped s t

/-- The events of cluster memory and instruction lines, what a zero-fill leaves, and a bank's change of mode (R176, R181, R184, R231, R248). How the change of mode waits is the model's choice (log entry 24). -/
def Obligations.ClusterEvents : Prop :=
  (∀ (s t : State) (i : Instr), Claim.ClusterEvents s i t → exec i s = .next t)
  ∧ (∀ (d : Device) (cl id a : Nat) (bs : List Byte), Arrived d cl id a bs (Device.arriveWrite d cl id a bs))
  ∧ ∀ (s : State) (core : Nat), (∃ x ∈ (Device.cluster s.dev (core / 8)).switching, x.bank / 8 = core % 8) →
    ∃ t, exec (.evModeSwitchComplete core) s = .next t ∧ Switched s t core

/-- The steps of a Peloton program and its messages (R405 to R424). The order of a step's units and what a lost link leaves are the model's choices (log entry 32). -/
def Obligations.PelotonEvents : Prop := ∀ (s t : State) (die : Nat) (i : Instr), Claim.PelotonEvents s die i t → exec i s = .next t

/-- The events of queues, placement, pre-emption and the end of work (R379 to R404, R440). What R388 to R446 leave open follows log entries 34 to 36, 65 and 68. -/
def Obligations.QueueEvents : Prop := ∀ (s t : State) (i : Instr), Claim.QueueEvents s i t → exec i s = .next t

/-- How work starts, is saved and goes on. The helpers and exited lanes of the last wave of a workgroup (R394); what every wave of a placed workgroup and of a placed gang holds (R390, R393); the bytes of a save slot, and the fields of its header and of its wave blocks (R443, R444); what a restore gives back of a wave and of a pair (R445, R446). Where fields that R443 does not lay out stand, and what the device keeps itself, is the model's choice (log entries 34, 56). -/
def Obligations.StartsAndSaves : Prop :=
  (∀ (r : LRec) (wid l : Nat), l < 64 →
    (if r.nlast ≠ 0 ∧ wid + 1 = r.waves then
      (if r.nlast ≤ l then
        (if r.hq = true ∧ l < 4 * ((r.nlast - 1) / 4) + 4 then
          (startMasks r wid).1.getLsbD l = true ∧ (startMasks r wid).2.getLsbD l = false
        else (startMasks r wid).1.getLsbD l = false ∧ (startMasks r wid).2.getLsbD l = true)
      else (startMasks r wid).1.getLsbD l = false ∧ (startMasks r wid).2.getLsbD l = false)
    else startMasks r wid = (0, 0)))
  ∧ (∀ (d : Device) (gid index core : Nat) (group : Option Nat) (i : Nat), i < (Device.launch d (Device.gang d gid).launch).lrec.waves →
      ∃ w, Tbl.get? (Device.placeWg d gid index core group).waves (d.uid + 1 + i) = some w
        ∧ Started (Device.launch d (Device.gang d gid).launch).lrec core d.uid
            (((Device.gang d gid).gx + (Device.launch d (Device.gang d gid).launch).lrec.gx * ((Device.gang d gid).gy
              + (Device.launch d (Device.gang d gid).launch).lrec.gy * (Device.gang d gid).gz)) * (Device.launch d (Device.gang d gid).launch).lrec.gsize + index)
            (Device.gang d gid).gx (Device.gang d gid).gy (Device.gang d gid).gz index i (firstBase (Device.placeWg d gid index core group) d.uid) w)
  ∧ (∀ (d : Device) (q low lid n k i : Nat) (r : LRec), Queue.headLaunch (Device.queue d q) = some lid → (Device.launch d lid).lrec = r →
      (Device.launch d lid).next = n → k < r.gsize → i < r.waves →
      ∃ u w wg, Tbl.get? (Device.placeGang d q low).waves u = some w
        ∧ Started r (low + k) wg ((n % r.gx + r.gx * (n / r.gx % r.gy + r.gy * (n / (r.gx * r.gy)))) * r.gsize + k)
            (n % r.gx) (n / r.gx % r.gy) (n / (r.gx * r.gy)) k i (firstBase (Device.placeGang d q low) wg) w)
  ∧ (∀ (d : Device) (sv : Saved) (slot : Nat) (e : Nat × Workgroup) (a : Nat), a < slotSize →
      Device.memByte (Device.writeSlot d sv slot e) 0 (Device.slotBase d sv.die slot + a) = pieceByte (slotPieces d sv e) a)
  ∧ (∀ (d : Device) (sv : Saved) (e : Nat × Workgroup) (flags off : Nat) (bs : List Byte), HeaderFits e.2 → HeaderField d sv e flags off bs →
      pieceBytes (Device.wgPieces d sv e flags) off bs.length = bs)
  ∧ (∀ (w : Wave) (progs : List Byte) (off : Nat) (bs : List Byte), BlockFits w progs → BlockField w off bs →
      pieceBytes (Wave.block w progs) off bs.length = bs)
  ∧ (∀ (w : Wave) (progs : List Byte), BlockFits w progs → AtRest w → GivenBack w (Wave.ofBlock w (pieceBytes (Wave.block w progs))))
  ∧ (∀ (d : Device) (sv : Saved) (e : Nat × Workgroup) (cl slot u : Nat), SlotGood d sv e slot → e.2.waves.Nodup → u ∈ e.2.waves →
      ∃ w, Tbl.get? (Device.restoreWg d sv e cl slot).waves u = some w
        ∧ w = { Wave.ofBlock (Tbl.getD sv.waves u Wave.blank)
                  (fun o k => Device.slotRd d sv slot (0x40000 + 65536 * (Tbl.getD sv.waves u Wave.blank).wid + o) k) with
                core := 8 * cl + e.2.core % 8, rslot := w.rslot, since := w.since, preempt := false })
  ∧ ∀ (d : Device) (base : Nat) (p : Pair), (∀ i < 2048, Tbl.getD p.scales i 127 < 256) → HoldsPair d base p →
      PairBack p (Device.pairOfSlot d base p)

/-- The events at the module's registers, ports and links (R204, R404, R447 to R452). The fields of error records that R452 leaves open are the model's reading (log entry 38); so is what R204 and R447 to R451 leave open (log entries 39 to 42, 45). -/
def Obligations.HostEvents : Prop := ∀ (s t : State) (i : Instr), Claim.HostEvents s i t → exec i s = .next t

/-- The requests of the management port, boot and bring-up, and what a reset leaves and keeps (R453 to R456). Memory read as 0 after a cold reset is the model's choice (log entry 2), as are the layouts that the port leaves open (log entry 43), what stands beside the fuses (log entry 44) and the tables of the firmware (log entry 63). A RESYNC reads its fields one after another as the module goes on, 4,240 bytes in all (R455). -/
def Obligations.ManageEvents : Prop :=
  (∀ (s t : State) (i : Instr), Claim.ManageEvents s i t → exec i s = .next t)
  ∧ (∀ (d : Device) (keep : Bool), Restarted d (Device.restart d keep) keep)
  ∧ (∀ s t : State, PortGoes s t → { s with dev := State.manage s } = t)
  ∧ ∀ d : Device, ((Device.resyncFields d).map List.length).sum = 4240
end

