-- ==== Sys2Proof/Laws/State.lean ====
section
/-! SUPPORT. One lemma per field per update of the device and the state, and the laws of reading a unit back. -/

namespace Sys2Proof.Machine

@[simp] theorem Device.setCore_mem (d : Device) (k : Nat) (x : Core) : (Device.setCore d k x).mem = d.mem := rfl
@[simp] theorem Device.setCore_hbm (d : Device) (k : Nat) (x : Core) : (Device.setCore d k x).hbm = d.hbm := rfl
@[simp] theorem Device.setCore_memErr (d : Device) (k : Nat) (x : Core) : (Device.setCore d k x).memErr = d.memErr := rfl
@[simp] theorem Device.setCore_mkeys (d : Device) (k : Nat) (x : Core) : (Device.setCore d k x).mkeys = d.mkeys := rfl
@[simp] theorem Device.setCore_waves (d : Device) (k : Nat) (x : Core) : (Device.setCore d k x).waves = d.waves := rfl
@[simp] theorem Device.setCore_wgs (d : Device) (k : Nat) (x : Core) : (Device.setCore d k x).wgs = d.wgs := rfl
@[simp] theorem Device.setCore_gangs (d : Device) (k : Nat) (x : Core) : (Device.setCore d k x).gangs = d.gangs := rfl
@[simp] theorem Device.setCore_launches (d : Device) (k : Nat) (x : Core) : (Device.setCore d k x).launches = d.launches := rfl
@[simp] theorem Device.setCore_cores (d : Device) (k : Nat) (x : Core) : (Device.setCore d k x).cores = Tbl.put d.cores k x := rfl
@[simp] theorem Device.setCore_clusters (d : Device) (k : Nat) (x : Core) : (Device.setCore d k x).clusters = d.clusters := rfl
@[simp] theorem Device.setCore_pairs (d : Device) (k : Nat) (x : Core) : (Device.setCore d k x).pairs = d.pairs := rfl
@[simp] theorem Device.setCore_dies (d : Device) (k : Nat) (x : Core) : (Device.setCore d k x).dies = d.dies := rfl
@[simp] theorem Device.setCore_queues (d : Device) (k : Nat) (x : Core) : (Device.setCore d k x).queues = d.queues := rfl
@[simp] theorem Device.setCore_sys (d : Device) (k : Nat) (x : Core) : (Device.setCore d k x).sys = d.sys := rfl
@[simp] theorem Device.setCore_ops (d : Device) (k : Nat) (x : Core) : (Device.setCore d k x).ops = d.ops := rfl
@[simp] theorem Device.setCore_fills (d : Device) (k : Nat) (x : Core) : (Device.setCore d k x).fills = d.fills := rfl
@[simp] theorem Device.setCore_tlbs (d : Device) (k : Nat) (x : Core) : (Device.setCore d k x).tlbs = d.tlbs := rfl
@[simp] theorem Device.setCore_xslots (d : Device) (k : Nat) (x : Core) : (Device.setCore d k x).xslots = d.xslots := rfl
@[simp] theorem Device.setCore_saved (d : Device) (k : Nat) (x : Core) : (Device.setCore d k x).saved = d.saved := rfl
@[simp] theorem Device.setCore_pins (d : Device) (k : Nat) (x : Core) : (Device.setCore d k x).pins = d.pins := rfl
@[simp] theorem Device.setCore_orphans (d : Device) (k : Nat) (x : Core) : (Device.setCore d k x).orphans = d.orphans := rfl
@[simp] theorem Device.setCore_served (d : Device) (k : Nat) (x : Core) : (Device.setCore d k x).served = d.served := rfl
@[simp] theorem Device.setCore_inbox (d : Device) (k : Nat) (x : Core) : (Device.setCore d k x).inbox = d.inbox := rfl
@[simp] theorem Device.setCore_peers (d : Device) (k : Nat) (x : Core) : (Device.setCore d k x).peers = d.peers := rfl
@[simp] theorem Device.setCore_reach (d : Device) (k : Nat) (x : Core) : (Device.setCore d k x).reach = d.reach := rfl
@[simp] theorem Device.setCore_outbox (d : Device) (k : Nat) (x : Core) : (Device.setCore d k x).outbox = d.outbox := rfl
@[simp] theorem Device.setCore_uid (d : Device) (k : Nat) (x : Core) : (Device.setCore d k x).uid = d.uid := rfl
@[simp] theorem Device.setCore_clock (d : Device) (k : Nat) (x : Core) : (Device.setCore d k x).clock = d.clock := rfl
@[simp] theorem Device.setCore_freeCtr (d : Device) (k : Nat) (x : Core) : (Device.setCore d k x).freeCtr = d.freeCtr := rfl
@[simp] theorem Device.core_setCore (d : Device) (k : Nat) (x : Core) : Device.core (Device.setCore d k x) k = x := by
  simp [Device.core]
theorem Device.core_setCore_ne (d : Device) {k j : Nat} (x : Core) (h : j ≠ k) : Device.core (Device.setCore d k x) j = Device.core d j := by
  simp [Device.core, Tbl.getD_put_ne _ _ _ h]
@[simp] theorem Device.setCore_setCore (d : Device) (k : Nat) (x y : Core) : Device.setCore (Device.setCore d k x) k y = Device.setCore d k y := by
  simp [Device.setCore]

@[simp] theorem Device.setCluster_mem (d : Device) (k : Nat) (x : Cluster) : (Device.setCluster d k x).mem = d.mem := rfl
@[simp] theorem Device.setCluster_hbm (d : Device) (k : Nat) (x : Cluster) : (Device.setCluster d k x).hbm = d.hbm := rfl
@[simp] theorem Device.setCluster_memErr (d : Device) (k : Nat) (x : Cluster) : (Device.setCluster d k x).memErr = d.memErr := rfl
@[simp] theorem Device.setCluster_mkeys (d : Device) (k : Nat) (x : Cluster) : (Device.setCluster d k x).mkeys = d.mkeys := rfl
@[simp] theorem Device.setCluster_waves (d : Device) (k : Nat) (x : Cluster) : (Device.setCluster d k x).waves = d.waves := rfl
@[simp] theorem Device.setCluster_wgs (d : Device) (k : Nat) (x : Cluster) : (Device.setCluster d k x).wgs = d.wgs := rfl
@[simp] theorem Device.setCluster_gangs (d : Device) (k : Nat) (x : Cluster) : (Device.setCluster d k x).gangs = d.gangs := rfl
@[simp] theorem Device.setCluster_launches (d : Device) (k : Nat) (x : Cluster) : (Device.setCluster d k x).launches = d.launches := rfl
@[simp] theorem Device.setCluster_cores (d : Device) (k : Nat) (x : Cluster) : (Device.setCluster d k x).cores = d.cores := rfl
@[simp] theorem Device.setCluster_clusters (d : Device) (k : Nat) (x : Cluster) : (Device.setCluster d k x).clusters = Tbl.put d.clusters k x := rfl
@[simp] theorem Device.setCluster_pairs (d : Device) (k : Nat) (x : Cluster) : (Device.setCluster d k x).pairs = d.pairs := rfl
@[simp] theorem Device.setCluster_dies (d : Device) (k : Nat) (x : Cluster) : (Device.setCluster d k x).dies = d.dies := rfl
@[simp] theorem Device.setCluster_queues (d : Device) (k : Nat) (x : Cluster) : (Device.setCluster d k x).queues = d.queues := rfl
@[simp] theorem Device.setCluster_sys (d : Device) (k : Nat) (x : Cluster) : (Device.setCluster d k x).sys = d.sys := rfl
@[simp] theorem Device.setCluster_ops (d : Device) (k : Nat) (x : Cluster) : (Device.setCluster d k x).ops = d.ops := rfl
@[simp] theorem Device.setCluster_fills (d : Device) (k : Nat) (x : Cluster) : (Device.setCluster d k x).fills = d.fills := rfl
@[simp] theorem Device.setCluster_tlbs (d : Device) (k : Nat) (x : Cluster) : (Device.setCluster d k x).tlbs = d.tlbs := rfl
@[simp] theorem Device.setCluster_xslots (d : Device) (k : Nat) (x : Cluster) : (Device.setCluster d k x).xslots = d.xslots := rfl
@[simp] theorem Device.setCluster_saved (d : Device) (k : Nat) (x : Cluster) : (Device.setCluster d k x).saved = d.saved := rfl
@[simp] theorem Device.setCluster_pins (d : Device) (k : Nat) (x : Cluster) : (Device.setCluster d k x).pins = d.pins := rfl
@[simp] theorem Device.setCluster_orphans (d : Device) (k : Nat) (x : Cluster) : (Device.setCluster d k x).orphans = d.orphans := rfl
@[simp] theorem Device.setCluster_served (d : Device) (k : Nat) (x : Cluster) : (Device.setCluster d k x).served = d.served := rfl
@[simp] theorem Device.setCluster_inbox (d : Device) (k : Nat) (x : Cluster) : (Device.setCluster d k x).inbox = d.inbox := rfl
@[simp] theorem Device.setCluster_peers (d : Device) (k : Nat) (x : Cluster) : (Device.setCluster d k x).peers = d.peers := rfl
@[simp] theorem Device.setCluster_reach (d : Device) (k : Nat) (x : Cluster) : (Device.setCluster d k x).reach = d.reach := rfl
@[simp] theorem Device.setCluster_outbox (d : Device) (k : Nat) (x : Cluster) : (Device.setCluster d k x).outbox = d.outbox := rfl
@[simp] theorem Device.setCluster_uid (d : Device) (k : Nat) (x : Cluster) : (Device.setCluster d k x).uid = d.uid := rfl
@[simp] theorem Device.setCluster_clock (d : Device) (k : Nat) (x : Cluster) : (Device.setCluster d k x).clock = d.clock := rfl
@[simp] theorem Device.setCluster_freeCtr (d : Device) (k : Nat) (x : Cluster) : (Device.setCluster d k x).freeCtr = d.freeCtr := rfl
@[simp] theorem Device.cluster_setCluster (d : Device) (k : Nat) (x : Cluster) : Device.cluster (Device.setCluster d k x) k = x := by
  simp [Device.cluster]
theorem Device.cluster_setCluster_ne (d : Device) {k j : Nat} (x : Cluster) (h : j ≠ k) : Device.cluster (Device.setCluster d k x) j = Device.cluster d j := by
  simp [Device.cluster, Tbl.getD_put_ne _ _ _ h]
@[simp] theorem Device.setCluster_setCluster (d : Device) (k : Nat) (x y : Cluster) : Device.setCluster (Device.setCluster d k x) k y = Device.setCluster d k y := by
  simp [Device.setCluster]

@[simp] theorem Device.setPair_mem (d : Device) (k : Nat) (x : Pair) : (Device.setPair d k x).mem = d.mem := rfl
@[simp] theorem Device.setPair_hbm (d : Device) (k : Nat) (x : Pair) : (Device.setPair d k x).hbm = d.hbm := rfl
@[simp] theorem Device.setPair_memErr (d : Device) (k : Nat) (x : Pair) : (Device.setPair d k x).memErr = d.memErr := rfl
@[simp] theorem Device.setPair_mkeys (d : Device) (k : Nat) (x : Pair) : (Device.setPair d k x).mkeys = d.mkeys := rfl
@[simp] theorem Device.setPair_waves (d : Device) (k : Nat) (x : Pair) : (Device.setPair d k x).waves = d.waves := rfl
@[simp] theorem Device.setPair_wgs (d : Device) (k : Nat) (x : Pair) : (Device.setPair d k x).wgs = d.wgs := rfl
@[simp] theorem Device.setPair_gangs (d : Device) (k : Nat) (x : Pair) : (Device.setPair d k x).gangs = d.gangs := rfl
@[simp] theorem Device.setPair_launches (d : Device) (k : Nat) (x : Pair) : (Device.setPair d k x).launches = d.launches := rfl
@[simp] theorem Device.setPair_cores (d : Device) (k : Nat) (x : Pair) : (Device.setPair d k x).cores = d.cores := rfl
@[simp] theorem Device.setPair_clusters (d : Device) (k : Nat) (x : Pair) : (Device.setPair d k x).clusters = d.clusters := rfl
@[simp] theorem Device.setPair_pairs (d : Device) (k : Nat) (x : Pair) : (Device.setPair d k x).pairs = Tbl.put d.pairs k x := rfl
@[simp] theorem Device.setPair_dies (d : Device) (k : Nat) (x : Pair) : (Device.setPair d k x).dies = d.dies := rfl
@[simp] theorem Device.setPair_queues (d : Device) (k : Nat) (x : Pair) : (Device.setPair d k x).queues = d.queues := rfl
@[simp] theorem Device.setPair_sys (d : Device) (k : Nat) (x : Pair) : (Device.setPair d k x).sys = d.sys := rfl
@[simp] theorem Device.setPair_ops (d : Device) (k : Nat) (x : Pair) : (Device.setPair d k x).ops = d.ops := rfl
@[simp] theorem Device.setPair_fills (d : Device) (k : Nat) (x : Pair) : (Device.setPair d k x).fills = d.fills := rfl
@[simp] theorem Device.setPair_tlbs (d : Device) (k : Nat) (x : Pair) : (Device.setPair d k x).tlbs = d.tlbs := rfl
@[simp] theorem Device.setPair_xslots (d : Device) (k : Nat) (x : Pair) : (Device.setPair d k x).xslots = d.xslots := rfl
@[simp] theorem Device.setPair_saved (d : Device) (k : Nat) (x : Pair) : (Device.setPair d k x).saved = d.saved := rfl
@[simp] theorem Device.setPair_pins (d : Device) (k : Nat) (x : Pair) : (Device.setPair d k x).pins = d.pins := rfl
@[simp] theorem Device.setPair_orphans (d : Device) (k : Nat) (x : Pair) : (Device.setPair d k x).orphans = d.orphans := rfl
@[simp] theorem Device.setPair_served (d : Device) (k : Nat) (x : Pair) : (Device.setPair d k x).served = d.served := rfl
@[simp] theorem Device.setPair_inbox (d : Device) (k : Nat) (x : Pair) : (Device.setPair d k x).inbox = d.inbox := rfl
@[simp] theorem Device.setPair_peers (d : Device) (k : Nat) (x : Pair) : (Device.setPair d k x).peers = d.peers := rfl
@[simp] theorem Device.setPair_reach (d : Device) (k : Nat) (x : Pair) : (Device.setPair d k x).reach = d.reach := rfl
@[simp] theorem Device.setPair_outbox (d : Device) (k : Nat) (x : Pair) : (Device.setPair d k x).outbox = d.outbox := rfl
@[simp] theorem Device.setPair_uid (d : Device) (k : Nat) (x : Pair) : (Device.setPair d k x).uid = d.uid := rfl
@[simp] theorem Device.setPair_clock (d : Device) (k : Nat) (x : Pair) : (Device.setPair d k x).clock = d.clock := rfl
@[simp] theorem Device.setPair_freeCtr (d : Device) (k : Nat) (x : Pair) : (Device.setPair d k x).freeCtr = d.freeCtr := rfl
@[simp] theorem Device.pair_setPair (d : Device) (k : Nat) (x : Pair) : Device.pair (Device.setPair d k x) k = x := by
  simp [Device.pair]
theorem Device.pair_setPair_ne (d : Device) {k j : Nat} (x : Pair) (h : j ≠ k) : Device.pair (Device.setPair d k x) j = Device.pair d j := by
  simp [Device.pair, Tbl.getD_put_ne _ _ _ h]
@[simp] theorem Device.setPair_setPair (d : Device) (k : Nat) (x y : Pair) : Device.setPair (Device.setPair d k x) k y = Device.setPair d k y := by
  simp [Device.setPair]

@[simp] theorem Device.setDie_mem (d : Device) (k : Nat) (x : Die) : (Device.setDie d k x).mem = d.mem := rfl
@[simp] theorem Device.setDie_hbm (d : Device) (k : Nat) (x : Die) : (Device.setDie d k x).hbm = d.hbm := rfl
@[simp] theorem Device.setDie_memErr (d : Device) (k : Nat) (x : Die) : (Device.setDie d k x).memErr = d.memErr := rfl
@[simp] theorem Device.setDie_mkeys (d : Device) (k : Nat) (x : Die) : (Device.setDie d k x).mkeys = d.mkeys := rfl
@[simp] theorem Device.setDie_waves (d : Device) (k : Nat) (x : Die) : (Device.setDie d k x).waves = d.waves := rfl
@[simp] theorem Device.setDie_wgs (d : Device) (k : Nat) (x : Die) : (Device.setDie d k x).wgs = d.wgs := rfl
@[simp] theorem Device.setDie_gangs (d : Device) (k : Nat) (x : Die) : (Device.setDie d k x).gangs = d.gangs := rfl
@[simp] theorem Device.setDie_launches (d : Device) (k : Nat) (x : Die) : (Device.setDie d k x).launches = d.launches := rfl
@[simp] theorem Device.setDie_cores (d : Device) (k : Nat) (x : Die) : (Device.setDie d k x).cores = d.cores := rfl
@[simp] theorem Device.setDie_clusters (d : Device) (k : Nat) (x : Die) : (Device.setDie d k x).clusters = d.clusters := rfl
@[simp] theorem Device.setDie_pairs (d : Device) (k : Nat) (x : Die) : (Device.setDie d k x).pairs = d.pairs := rfl
@[simp] theorem Device.setDie_dies (d : Device) (k : Nat) (x : Die) : (Device.setDie d k x).dies = Tbl.put d.dies k x := rfl
@[simp] theorem Device.setDie_queues (d : Device) (k : Nat) (x : Die) : (Device.setDie d k x).queues = d.queues := rfl
@[simp] theorem Device.setDie_sys (d : Device) (k : Nat) (x : Die) : (Device.setDie d k x).sys = d.sys := rfl
@[simp] theorem Device.setDie_ops (d : Device) (k : Nat) (x : Die) : (Device.setDie d k x).ops = d.ops := rfl
@[simp] theorem Device.setDie_fills (d : Device) (k : Nat) (x : Die) : (Device.setDie d k x).fills = d.fills := rfl
@[simp] theorem Device.setDie_tlbs (d : Device) (k : Nat) (x : Die) : (Device.setDie d k x).tlbs = d.tlbs := rfl
@[simp] theorem Device.setDie_xslots (d : Device) (k : Nat) (x : Die) : (Device.setDie d k x).xslots = d.xslots := rfl
@[simp] theorem Device.setDie_saved (d : Device) (k : Nat) (x : Die) : (Device.setDie d k x).saved = d.saved := rfl
@[simp] theorem Device.setDie_pins (d : Device) (k : Nat) (x : Die) : (Device.setDie d k x).pins = d.pins := rfl
@[simp] theorem Device.setDie_orphans (d : Device) (k : Nat) (x : Die) : (Device.setDie d k x).orphans = d.orphans := rfl
@[simp] theorem Device.setDie_served (d : Device) (k : Nat) (x : Die) : (Device.setDie d k x).served = d.served := rfl
@[simp] theorem Device.setDie_inbox (d : Device) (k : Nat) (x : Die) : (Device.setDie d k x).inbox = d.inbox := rfl
@[simp] theorem Device.setDie_peers (d : Device) (k : Nat) (x : Die) : (Device.setDie d k x).peers = d.peers := rfl
@[simp] theorem Device.setDie_reach (d : Device) (k : Nat) (x : Die) : (Device.setDie d k x).reach = d.reach := rfl
@[simp] theorem Device.setDie_outbox (d : Device) (k : Nat) (x : Die) : (Device.setDie d k x).outbox = d.outbox := rfl
@[simp] theorem Device.setDie_uid (d : Device) (k : Nat) (x : Die) : (Device.setDie d k x).uid = d.uid := rfl
@[simp] theorem Device.setDie_clock (d : Device) (k : Nat) (x : Die) : (Device.setDie d k x).clock = d.clock := rfl
@[simp] theorem Device.setDie_freeCtr (d : Device) (k : Nat) (x : Die) : (Device.setDie d k x).freeCtr = d.freeCtr := rfl
@[simp] theorem Device.die_setDie (d : Device) (k : Nat) (x : Die) : Device.die (Device.setDie d k x) k = x := by
  simp [Device.die]
theorem Device.die_setDie_ne (d : Device) {k j : Nat} (x : Die) (h : j ≠ k) : Device.die (Device.setDie d k x) j = Device.die d j := by
  simp [Device.die, Tbl.getD_put_ne _ _ _ h]
@[simp] theorem Device.setDie_setDie (d : Device) (k : Nat) (x y : Die) : Device.setDie (Device.setDie d k x) k y = Device.setDie d k y := by
  simp [Device.setDie]

@[simp] theorem Device.setQueue_mem (d : Device) (k : Nat) (x : Queue) : (Device.setQueue d k x).mem = d.mem := rfl
@[simp] theorem Device.setQueue_hbm (d : Device) (k : Nat) (x : Queue) : (Device.setQueue d k x).hbm = d.hbm := rfl
@[simp] theorem Device.setQueue_memErr (d : Device) (k : Nat) (x : Queue) : (Device.setQueue d k x).memErr = d.memErr := rfl
@[simp] theorem Device.setQueue_mkeys (d : Device) (k : Nat) (x : Queue) : (Device.setQueue d k x).mkeys = d.mkeys := rfl
@[simp] theorem Device.setQueue_waves (d : Device) (k : Nat) (x : Queue) : (Device.setQueue d k x).waves = d.waves := rfl
@[simp] theorem Device.setQueue_wgs (d : Device) (k : Nat) (x : Queue) : (Device.setQueue d k x).wgs = d.wgs := rfl
@[simp] theorem Device.setQueue_gangs (d : Device) (k : Nat) (x : Queue) : (Device.setQueue d k x).gangs = d.gangs := rfl
@[simp] theorem Device.setQueue_launches (d : Device) (k : Nat) (x : Queue) : (Device.setQueue d k x).launches = d.launches := rfl
@[simp] theorem Device.setQueue_cores (d : Device) (k : Nat) (x : Queue) : (Device.setQueue d k x).cores = d.cores := rfl
@[simp] theorem Device.setQueue_clusters (d : Device) (k : Nat) (x : Queue) : (Device.setQueue d k x).clusters = d.clusters := rfl
@[simp] theorem Device.setQueue_pairs (d : Device) (k : Nat) (x : Queue) : (Device.setQueue d k x).pairs = d.pairs := rfl
@[simp] theorem Device.setQueue_dies (d : Device) (k : Nat) (x : Queue) : (Device.setQueue d k x).dies = d.dies := rfl
@[simp] theorem Device.setQueue_queues (d : Device) (k : Nat) (x : Queue) : (Device.setQueue d k x).queues = Tbl.put d.queues k x := rfl
@[simp] theorem Device.setQueue_sys (d : Device) (k : Nat) (x : Queue) : (Device.setQueue d k x).sys = d.sys := rfl
@[simp] theorem Device.setQueue_ops (d : Device) (k : Nat) (x : Queue) : (Device.setQueue d k x).ops = d.ops := rfl
@[simp] theorem Device.setQueue_fills (d : Device) (k : Nat) (x : Queue) : (Device.setQueue d k x).fills = d.fills := rfl
@[simp] theorem Device.setQueue_tlbs (d : Device) (k : Nat) (x : Queue) : (Device.setQueue d k x).tlbs = d.tlbs := rfl
@[simp] theorem Device.setQueue_xslots (d : Device) (k : Nat) (x : Queue) : (Device.setQueue d k x).xslots = d.xslots := rfl
@[simp] theorem Device.setQueue_saved (d : Device) (k : Nat) (x : Queue) : (Device.setQueue d k x).saved = d.saved := rfl
@[simp] theorem Device.setQueue_pins (d : Device) (k : Nat) (x : Queue) : (Device.setQueue d k x).pins = d.pins := rfl
@[simp] theorem Device.setQueue_orphans (d : Device) (k : Nat) (x : Queue) : (Device.setQueue d k x).orphans = d.orphans := rfl
@[simp] theorem Device.setQueue_served (d : Device) (k : Nat) (x : Queue) : (Device.setQueue d k x).served = d.served := rfl
@[simp] theorem Device.setQueue_inbox (d : Device) (k : Nat) (x : Queue) : (Device.setQueue d k x).inbox = d.inbox := rfl
@[simp] theorem Device.setQueue_peers (d : Device) (k : Nat) (x : Queue) : (Device.setQueue d k x).peers = d.peers := rfl
@[simp] theorem Device.setQueue_reach (d : Device) (k : Nat) (x : Queue) : (Device.setQueue d k x).reach = d.reach := rfl
@[simp] theorem Device.setQueue_outbox (d : Device) (k : Nat) (x : Queue) : (Device.setQueue d k x).outbox = d.outbox := rfl
@[simp] theorem Device.setQueue_uid (d : Device) (k : Nat) (x : Queue) : (Device.setQueue d k x).uid = d.uid := rfl
@[simp] theorem Device.setQueue_clock (d : Device) (k : Nat) (x : Queue) : (Device.setQueue d k x).clock = d.clock := rfl
@[simp] theorem Device.setQueue_freeCtr (d : Device) (k : Nat) (x : Queue) : (Device.setQueue d k x).freeCtr = d.freeCtr := rfl
@[simp] theorem Device.queue_setQueue (d : Device) (k : Nat) (x : Queue) : Device.queue (Device.setQueue d k x) k = x := by
  simp [Device.queue]
theorem Device.queue_setQueue_ne (d : Device) {k j : Nat} (x : Queue) (h : j ≠ k) : Device.queue (Device.setQueue d k x) j = Device.queue d j := by
  simp [Device.queue, Tbl.getD_put_ne _ _ _ h]
@[simp] theorem Device.setQueue_setQueue (d : Device) (k : Nat) (x y : Queue) : Device.setQueue (Device.setQueue d k x) k y = Device.setQueue d k y := by
  simp [Device.setQueue]

@[simp] theorem Device.setWave_mem (d : Device) (k : Nat) (x : Wave) : (Device.setWave d k x).mem = d.mem := rfl
@[simp] theorem Device.setWave_hbm (d : Device) (k : Nat) (x : Wave) : (Device.setWave d k x).hbm = d.hbm := rfl
@[simp] theorem Device.setWave_memErr (d : Device) (k : Nat) (x : Wave) : (Device.setWave d k x).memErr = d.memErr := rfl
@[simp] theorem Device.setWave_mkeys (d : Device) (k : Nat) (x : Wave) : (Device.setWave d k x).mkeys = d.mkeys := rfl
@[simp] theorem Device.setWave_waves (d : Device) (k : Nat) (x : Wave) : (Device.setWave d k x).waves = Tbl.put d.waves k x := rfl
@[simp] theorem Device.setWave_wgs (d : Device) (k : Nat) (x : Wave) : (Device.setWave d k x).wgs = d.wgs := rfl
@[simp] theorem Device.setWave_gangs (d : Device) (k : Nat) (x : Wave) : (Device.setWave d k x).gangs = d.gangs := rfl
@[simp] theorem Device.setWave_launches (d : Device) (k : Nat) (x : Wave) : (Device.setWave d k x).launches = d.launches := rfl
@[simp] theorem Device.setWave_cores (d : Device) (k : Nat) (x : Wave) : (Device.setWave d k x).cores = d.cores := rfl
@[simp] theorem Device.setWave_clusters (d : Device) (k : Nat) (x : Wave) : (Device.setWave d k x).clusters = d.clusters := rfl
@[simp] theorem Device.setWave_pairs (d : Device) (k : Nat) (x : Wave) : (Device.setWave d k x).pairs = d.pairs := rfl
@[simp] theorem Device.setWave_dies (d : Device) (k : Nat) (x : Wave) : (Device.setWave d k x).dies = d.dies := rfl
@[simp] theorem Device.setWave_queues (d : Device) (k : Nat) (x : Wave) : (Device.setWave d k x).queues = d.queues := rfl
@[simp] theorem Device.setWave_sys (d : Device) (k : Nat) (x : Wave) : (Device.setWave d k x).sys = d.sys := rfl
@[simp] theorem Device.setWave_ops (d : Device) (k : Nat) (x : Wave) : (Device.setWave d k x).ops = d.ops := rfl
@[simp] theorem Device.setWave_fills (d : Device) (k : Nat) (x : Wave) : (Device.setWave d k x).fills = d.fills := rfl
@[simp] theorem Device.setWave_tlbs (d : Device) (k : Nat) (x : Wave) : (Device.setWave d k x).tlbs = d.tlbs := rfl
@[simp] theorem Device.setWave_xslots (d : Device) (k : Nat) (x : Wave) : (Device.setWave d k x).xslots = d.xslots := rfl
@[simp] theorem Device.setWave_saved (d : Device) (k : Nat) (x : Wave) : (Device.setWave d k x).saved = d.saved := rfl
@[simp] theorem Device.setWave_pins (d : Device) (k : Nat) (x : Wave) : (Device.setWave d k x).pins = d.pins := rfl
@[simp] theorem Device.setWave_orphans (d : Device) (k : Nat) (x : Wave) : (Device.setWave d k x).orphans = d.orphans := rfl
@[simp] theorem Device.setWave_served (d : Device) (k : Nat) (x : Wave) : (Device.setWave d k x).served = d.served := rfl
@[simp] theorem Device.setWave_inbox (d : Device) (k : Nat) (x : Wave) : (Device.setWave d k x).inbox = d.inbox := rfl
@[simp] theorem Device.setWave_peers (d : Device) (k : Nat) (x : Wave) : (Device.setWave d k x).peers = d.peers := rfl
@[simp] theorem Device.setWave_reach (d : Device) (k : Nat) (x : Wave) : (Device.setWave d k x).reach = d.reach := rfl
@[simp] theorem Device.setWave_outbox (d : Device) (k : Nat) (x : Wave) : (Device.setWave d k x).outbox = d.outbox := rfl
@[simp] theorem Device.setWave_uid (d : Device) (k : Nat) (x : Wave) : (Device.setWave d k x).uid = d.uid := rfl
@[simp] theorem Device.setWave_clock (d : Device) (k : Nat) (x : Wave) : (Device.setWave d k x).clock = d.clock := rfl
@[simp] theorem Device.setWave_freeCtr (d : Device) (k : Nat) (x : Wave) : (Device.setWave d k x).freeCtr = d.freeCtr := rfl
@[simp] theorem Device.wave_setWave (d : Device) (k : Nat) (x : Wave) : Device.wave (Device.setWave d k x) k = x := by
  simp [Device.wave]
theorem Device.wave_setWave_ne (d : Device) {k j : Nat} (x : Wave) (h : j ≠ k) : Device.wave (Device.setWave d k x) j = Device.wave d j := by
  simp [Device.wave, Tbl.getD_put_ne _ _ _ h]
@[simp] theorem Device.setWave_setWave (d : Device) (k : Nat) (x y : Wave) : Device.setWave (Device.setWave d k x) k y = Device.setWave d k y := by
  simp [Device.setWave]

@[simp] theorem Device.setWg_mem (d : Device) (k : Nat) (x : Workgroup) : (Device.setWg d k x).mem = d.mem := rfl
@[simp] theorem Device.setWg_hbm (d : Device) (k : Nat) (x : Workgroup) : (Device.setWg d k x).hbm = d.hbm := rfl
@[simp] theorem Device.setWg_memErr (d : Device) (k : Nat) (x : Workgroup) : (Device.setWg d k x).memErr = d.memErr := rfl
@[simp] theorem Device.setWg_mkeys (d : Device) (k : Nat) (x : Workgroup) : (Device.setWg d k x).mkeys = d.mkeys := rfl
@[simp] theorem Device.setWg_waves (d : Device) (k : Nat) (x : Workgroup) : (Device.setWg d k x).waves = d.waves := rfl
@[simp] theorem Device.setWg_wgs (d : Device) (k : Nat) (x : Workgroup) : (Device.setWg d k x).wgs = Tbl.put d.wgs k x := rfl
@[simp] theorem Device.setWg_gangs (d : Device) (k : Nat) (x : Workgroup) : (Device.setWg d k x).gangs = d.gangs := rfl
@[simp] theorem Device.setWg_launches (d : Device) (k : Nat) (x : Workgroup) : (Device.setWg d k x).launches = d.launches := rfl
@[simp] theorem Device.setWg_cores (d : Device) (k : Nat) (x : Workgroup) : (Device.setWg d k x).cores = d.cores := rfl
@[simp] theorem Device.setWg_clusters (d : Device) (k : Nat) (x : Workgroup) : (Device.setWg d k x).clusters = d.clusters := rfl
@[simp] theorem Device.setWg_pairs (d : Device) (k : Nat) (x : Workgroup) : (Device.setWg d k x).pairs = d.pairs := rfl
@[simp] theorem Device.setWg_dies (d : Device) (k : Nat) (x : Workgroup) : (Device.setWg d k x).dies = d.dies := rfl
@[simp] theorem Device.setWg_queues (d : Device) (k : Nat) (x : Workgroup) : (Device.setWg d k x).queues = d.queues := rfl
@[simp] theorem Device.setWg_sys (d : Device) (k : Nat) (x : Workgroup) : (Device.setWg d k x).sys = d.sys := rfl
@[simp] theorem Device.setWg_ops (d : Device) (k : Nat) (x : Workgroup) : (Device.setWg d k x).ops = d.ops := rfl
@[simp] theorem Device.setWg_fills (d : Device) (k : Nat) (x : Workgroup) : (Device.setWg d k x).fills = d.fills := rfl
@[simp] theorem Device.setWg_tlbs (d : Device) (k : Nat) (x : Workgroup) : (Device.setWg d k x).tlbs = d.tlbs := rfl
@[simp] theorem Device.setWg_xslots (d : Device) (k : Nat) (x : Workgroup) : (Device.setWg d k x).xslots = d.xslots := rfl
@[simp] theorem Device.setWg_saved (d : Device) (k : Nat) (x : Workgroup) : (Device.setWg d k x).saved = d.saved := rfl
@[simp] theorem Device.setWg_pins (d : Device) (k : Nat) (x : Workgroup) : (Device.setWg d k x).pins = d.pins := rfl
@[simp] theorem Device.setWg_orphans (d : Device) (k : Nat) (x : Workgroup) : (Device.setWg d k x).orphans = d.orphans := rfl
@[simp] theorem Device.setWg_served (d : Device) (k : Nat) (x : Workgroup) : (Device.setWg d k x).served = d.served := rfl
@[simp] theorem Device.setWg_inbox (d : Device) (k : Nat) (x : Workgroup) : (Device.setWg d k x).inbox = d.inbox := rfl
@[simp] theorem Device.setWg_peers (d : Device) (k : Nat) (x : Workgroup) : (Device.setWg d k x).peers = d.peers := rfl
@[simp] theorem Device.setWg_reach (d : Device) (k : Nat) (x : Workgroup) : (Device.setWg d k x).reach = d.reach := rfl
@[simp] theorem Device.setWg_outbox (d : Device) (k : Nat) (x : Workgroup) : (Device.setWg d k x).outbox = d.outbox := rfl
@[simp] theorem Device.setWg_uid (d : Device) (k : Nat) (x : Workgroup) : (Device.setWg d k x).uid = d.uid := rfl
@[simp] theorem Device.setWg_clock (d : Device) (k : Nat) (x : Workgroup) : (Device.setWg d k x).clock = d.clock := rfl
@[simp] theorem Device.setWg_freeCtr (d : Device) (k : Nat) (x : Workgroup) : (Device.setWg d k x).freeCtr = d.freeCtr := rfl
@[simp] theorem Device.wg_setWg (d : Device) (k : Nat) (x : Workgroup) : Device.wg (Device.setWg d k x) k = x := by
  simp [Device.wg]
theorem Device.wg_setWg_ne (d : Device) {k j : Nat} (x : Workgroup) (h : j ≠ k) : Device.wg (Device.setWg d k x) j = Device.wg d j := by
  simp [Device.wg, Tbl.getD_put_ne _ _ _ h]
@[simp] theorem Device.setWg_setWg (d : Device) (k : Nat) (x y : Workgroup) : Device.setWg (Device.setWg d k x) k y = Device.setWg d k y := by
  simp [Device.setWg]

@[simp] theorem Device.setGang_mem (d : Device) (k : Nat) (x : Gang) : (Device.setGang d k x).mem = d.mem := rfl
@[simp] theorem Device.setGang_hbm (d : Device) (k : Nat) (x : Gang) : (Device.setGang d k x).hbm = d.hbm := rfl
@[simp] theorem Device.setGang_memErr (d : Device) (k : Nat) (x : Gang) : (Device.setGang d k x).memErr = d.memErr := rfl
@[simp] theorem Device.setGang_mkeys (d : Device) (k : Nat) (x : Gang) : (Device.setGang d k x).mkeys = d.mkeys := rfl
@[simp] theorem Device.setGang_waves (d : Device) (k : Nat) (x : Gang) : (Device.setGang d k x).waves = d.waves := rfl
@[simp] theorem Device.setGang_wgs (d : Device) (k : Nat) (x : Gang) : (Device.setGang d k x).wgs = d.wgs := rfl
@[simp] theorem Device.setGang_gangs (d : Device) (k : Nat) (x : Gang) : (Device.setGang d k x).gangs = Tbl.put d.gangs k x := rfl
@[simp] theorem Device.setGang_launches (d : Device) (k : Nat) (x : Gang) : (Device.setGang d k x).launches = d.launches := rfl
@[simp] theorem Device.setGang_cores (d : Device) (k : Nat) (x : Gang) : (Device.setGang d k x).cores = d.cores := rfl
@[simp] theorem Device.setGang_clusters (d : Device) (k : Nat) (x : Gang) : (Device.setGang d k x).clusters = d.clusters := rfl
@[simp] theorem Device.setGang_pairs (d : Device) (k : Nat) (x : Gang) : (Device.setGang d k x).pairs = d.pairs := rfl
@[simp] theorem Device.setGang_dies (d : Device) (k : Nat) (x : Gang) : (Device.setGang d k x).dies = d.dies := rfl
@[simp] theorem Device.setGang_queues (d : Device) (k : Nat) (x : Gang) : (Device.setGang d k x).queues = d.queues := rfl
@[simp] theorem Device.setGang_sys (d : Device) (k : Nat) (x : Gang) : (Device.setGang d k x).sys = d.sys := rfl
@[simp] theorem Device.setGang_ops (d : Device) (k : Nat) (x : Gang) : (Device.setGang d k x).ops = d.ops := rfl
@[simp] theorem Device.setGang_fills (d : Device) (k : Nat) (x : Gang) : (Device.setGang d k x).fills = d.fills := rfl
@[simp] theorem Device.setGang_tlbs (d : Device) (k : Nat) (x : Gang) : (Device.setGang d k x).tlbs = d.tlbs := rfl
@[simp] theorem Device.setGang_xslots (d : Device) (k : Nat) (x : Gang) : (Device.setGang d k x).xslots = d.xslots := rfl
@[simp] theorem Device.setGang_saved (d : Device) (k : Nat) (x : Gang) : (Device.setGang d k x).saved = d.saved := rfl
@[simp] theorem Device.setGang_pins (d : Device) (k : Nat) (x : Gang) : (Device.setGang d k x).pins = d.pins := rfl
@[simp] theorem Device.setGang_orphans (d : Device) (k : Nat) (x : Gang) : (Device.setGang d k x).orphans = d.orphans := rfl
@[simp] theorem Device.setGang_served (d : Device) (k : Nat) (x : Gang) : (Device.setGang d k x).served = d.served := rfl
@[simp] theorem Device.setGang_inbox (d : Device) (k : Nat) (x : Gang) : (Device.setGang d k x).inbox = d.inbox := rfl
@[simp] theorem Device.setGang_peers (d : Device) (k : Nat) (x : Gang) : (Device.setGang d k x).peers = d.peers := rfl
@[simp] theorem Device.setGang_reach (d : Device) (k : Nat) (x : Gang) : (Device.setGang d k x).reach = d.reach := rfl
@[simp] theorem Device.setGang_outbox (d : Device) (k : Nat) (x : Gang) : (Device.setGang d k x).outbox = d.outbox := rfl
@[simp] theorem Device.setGang_uid (d : Device) (k : Nat) (x : Gang) : (Device.setGang d k x).uid = d.uid := rfl
@[simp] theorem Device.setGang_clock (d : Device) (k : Nat) (x : Gang) : (Device.setGang d k x).clock = d.clock := rfl
@[simp] theorem Device.setGang_freeCtr (d : Device) (k : Nat) (x : Gang) : (Device.setGang d k x).freeCtr = d.freeCtr := rfl
@[simp] theorem Device.gang_setGang (d : Device) (k : Nat) (x : Gang) : Device.gang (Device.setGang d k x) k = x := by
  simp [Device.gang]
theorem Device.gang_setGang_ne (d : Device) {k j : Nat} (x : Gang) (h : j ≠ k) : Device.gang (Device.setGang d k x) j = Device.gang d j := by
  simp [Device.gang, Tbl.getD_put_ne _ _ _ h]
@[simp] theorem Device.setGang_setGang (d : Device) (k : Nat) (x y : Gang) : Device.setGang (Device.setGang d k x) k y = Device.setGang d k y := by
  simp [Device.setGang]

@[simp] theorem Device.setLaunch_mem (d : Device) (k : Nat) (x : Launch) : (Device.setLaunch d k x).mem = d.mem := rfl
@[simp] theorem Device.setLaunch_hbm (d : Device) (k : Nat) (x : Launch) : (Device.setLaunch d k x).hbm = d.hbm := rfl
@[simp] theorem Device.setLaunch_memErr (d : Device) (k : Nat) (x : Launch) : (Device.setLaunch d k x).memErr = d.memErr := rfl
@[simp] theorem Device.setLaunch_mkeys (d : Device) (k : Nat) (x : Launch) : (Device.setLaunch d k x).mkeys = d.mkeys := rfl
@[simp] theorem Device.setLaunch_waves (d : Device) (k : Nat) (x : Launch) : (Device.setLaunch d k x).waves = d.waves := rfl
@[simp] theorem Device.setLaunch_wgs (d : Device) (k : Nat) (x : Launch) : (Device.setLaunch d k x).wgs = d.wgs := rfl
@[simp] theorem Device.setLaunch_gangs (d : Device) (k : Nat) (x : Launch) : (Device.setLaunch d k x).gangs = d.gangs := rfl
@[simp] theorem Device.setLaunch_launches (d : Device) (k : Nat) (x : Launch) : (Device.setLaunch d k x).launches = Tbl.put d.launches k x := rfl
@[simp] theorem Device.setLaunch_cores (d : Device) (k : Nat) (x : Launch) : (Device.setLaunch d k x).cores = d.cores := rfl
@[simp] theorem Device.setLaunch_clusters (d : Device) (k : Nat) (x : Launch) : (Device.setLaunch d k x).clusters = d.clusters := rfl
@[simp] theorem Device.setLaunch_pairs (d : Device) (k : Nat) (x : Launch) : (Device.setLaunch d k x).pairs = d.pairs := rfl
@[simp] theorem Device.setLaunch_dies (d : Device) (k : Nat) (x : Launch) : (Device.setLaunch d k x).dies = d.dies := rfl
@[simp] theorem Device.setLaunch_queues (d : Device) (k : Nat) (x : Launch) : (Device.setLaunch d k x).queues = d.queues := rfl
@[simp] theorem Device.setLaunch_sys (d : Device) (k : Nat) (x : Launch) : (Device.setLaunch d k x).sys = d.sys := rfl
@[simp] theorem Device.setLaunch_ops (d : Device) (k : Nat) (x : Launch) : (Device.setLaunch d k x).ops = d.ops := rfl
@[simp] theorem Device.setLaunch_fills (d : Device) (k : Nat) (x : Launch) : (Device.setLaunch d k x).fills = d.fills := rfl
@[simp] theorem Device.setLaunch_tlbs (d : Device) (k : Nat) (x : Launch) : (Device.setLaunch d k x).tlbs = d.tlbs := rfl
@[simp] theorem Device.setLaunch_xslots (d : Device) (k : Nat) (x : Launch) : (Device.setLaunch d k x).xslots = d.xslots := rfl
@[simp] theorem Device.setLaunch_saved (d : Device) (k : Nat) (x : Launch) : (Device.setLaunch d k x).saved = d.saved := rfl
@[simp] theorem Device.setLaunch_pins (d : Device) (k : Nat) (x : Launch) : (Device.setLaunch d k x).pins = d.pins := rfl
@[simp] theorem Device.setLaunch_orphans (d : Device) (k : Nat) (x : Launch) : (Device.setLaunch d k x).orphans = d.orphans := rfl
@[simp] theorem Device.setLaunch_served (d : Device) (k : Nat) (x : Launch) : (Device.setLaunch d k x).served = d.served := rfl
@[simp] theorem Device.setLaunch_inbox (d : Device) (k : Nat) (x : Launch) : (Device.setLaunch d k x).inbox = d.inbox := rfl
@[simp] theorem Device.setLaunch_peers (d : Device) (k : Nat) (x : Launch) : (Device.setLaunch d k x).peers = d.peers := rfl
@[simp] theorem Device.setLaunch_reach (d : Device) (k : Nat) (x : Launch) : (Device.setLaunch d k x).reach = d.reach := rfl
@[simp] theorem Device.setLaunch_outbox (d : Device) (k : Nat) (x : Launch) : (Device.setLaunch d k x).outbox = d.outbox := rfl
@[simp] theorem Device.setLaunch_uid (d : Device) (k : Nat) (x : Launch) : (Device.setLaunch d k x).uid = d.uid := rfl
@[simp] theorem Device.setLaunch_clock (d : Device) (k : Nat) (x : Launch) : (Device.setLaunch d k x).clock = d.clock := rfl
@[simp] theorem Device.setLaunch_freeCtr (d : Device) (k : Nat) (x : Launch) : (Device.setLaunch d k x).freeCtr = d.freeCtr := rfl
@[simp] theorem Device.launch_setLaunch (d : Device) (k : Nat) (x : Launch) : Device.launch (Device.setLaunch d k x) k = x := by
  simp [Device.launch]
theorem Device.launch_setLaunch_ne (d : Device) {k j : Nat} (x : Launch) (h : j ≠ k) : Device.launch (Device.setLaunch d k x) j = Device.launch d j := by
  simp [Device.launch, Tbl.getD_put_ne _ _ _ h]
@[simp] theorem Device.setLaunch_setLaunch (d : Device) (k : Nat) (x y : Launch) : Device.setLaunch (Device.setLaunch d k x) k y = Device.setLaunch d k y := by
  simp [Device.setLaunch]

@[simp] theorem Device.memWriteT_memErr (d : Device) (t a : Nat) (bs : List Byte) : (Device.memWriteT d t a bs).memErr = d.memErr := rfl
@[simp] theorem Device.memWriteT_waves (d : Device) (t a : Nat) (bs : List Byte) : (Device.memWriteT d t a bs).waves = d.waves := rfl
@[simp] theorem Device.memWriteT_wgs (d : Device) (t a : Nat) (bs : List Byte) : (Device.memWriteT d t a bs).wgs = d.wgs := rfl
@[simp] theorem Device.memWriteT_gangs (d : Device) (t a : Nat) (bs : List Byte) : (Device.memWriteT d t a bs).gangs = d.gangs := rfl
@[simp] theorem Device.memWriteT_launches (d : Device) (t a : Nat) (bs : List Byte) : (Device.memWriteT d t a bs).launches = d.launches := rfl
@[simp] theorem Device.memWriteT_cores (d : Device) (t a : Nat) (bs : List Byte) : (Device.memWriteT d t a bs).cores = d.cores := rfl
@[simp] theorem Device.memWriteT_clusters (d : Device) (t a : Nat) (bs : List Byte) : (Device.memWriteT d t a bs).clusters = d.clusters := rfl
@[simp] theorem Device.memWriteT_pairs (d : Device) (t a : Nat) (bs : List Byte) : (Device.memWriteT d t a bs).pairs = d.pairs := rfl
@[simp] theorem Device.memWriteT_dies (d : Device) (t a : Nat) (bs : List Byte) : (Device.memWriteT d t a bs).dies = d.dies := rfl
@[simp] theorem Device.memWriteT_queues (d : Device) (t a : Nat) (bs : List Byte) : (Device.memWriteT d t a bs).queues = d.queues := rfl
@[simp] theorem Device.memWriteT_sys (d : Device) (t a : Nat) (bs : List Byte) : (Device.memWriteT d t a bs).sys = d.sys := rfl
@[simp] theorem Device.memWriteT_ops (d : Device) (t a : Nat) (bs : List Byte) : (Device.memWriteT d t a bs).ops = d.ops := rfl
@[simp] theorem Device.memWriteT_fills (d : Device) (t a : Nat) (bs : List Byte) : (Device.memWriteT d t a bs).fills = d.fills := rfl
@[simp] theorem Device.memWriteT_tlbs (d : Device) (t a : Nat) (bs : List Byte) : (Device.memWriteT d t a bs).tlbs = d.tlbs := rfl
@[simp] theorem Device.memWriteT_xslots (d : Device) (t a : Nat) (bs : List Byte) : (Device.memWriteT d t a bs).xslots = d.xslots := rfl
@[simp] theorem Device.memWriteT_saved (d : Device) (t a : Nat) (bs : List Byte) : (Device.memWriteT d t a bs).saved = d.saved := rfl
@[simp] theorem Device.memWriteT_pins (d : Device) (t a : Nat) (bs : List Byte) : (Device.memWriteT d t a bs).pins = d.pins := rfl
@[simp] theorem Device.memWriteT_orphans (d : Device) (t a : Nat) (bs : List Byte) : (Device.memWriteT d t a bs).orphans = d.orphans := rfl
@[simp] theorem Device.memWriteT_served (d : Device) (t a : Nat) (bs : List Byte) : (Device.memWriteT d t a bs).served = d.served := rfl
@[simp] theorem Device.memWriteT_inbox (d : Device) (t a : Nat) (bs : List Byte) : (Device.memWriteT d t a bs).inbox = d.inbox := rfl
@[simp] theorem Device.memWriteT_peers (d : Device) (t a : Nat) (bs : List Byte) : (Device.memWriteT d t a bs).peers = d.peers := rfl
@[simp] theorem Device.memWriteT_reach (d : Device) (t a : Nat) (bs : List Byte) : (Device.memWriteT d t a bs).reach = d.reach := rfl
@[simp] theorem Device.memWriteT_outbox (d : Device) (t a : Nat) (bs : List Byte) : (Device.memWriteT d t a bs).outbox = d.outbox := rfl
@[simp] theorem Device.memWriteT_uid (d : Device) (t a : Nat) (bs : List Byte) : (Device.memWriteT d t a bs).uid = d.uid := rfl
@[simp] theorem Device.memWriteT_clock (d : Device) (t a : Nat) (bs : List Byte) : (Device.memWriteT d t a bs).clock = d.clock := rfl
@[simp] theorem Device.memWriteT_freeCtr (d : Device) (t a : Nat) (bs : List Byte) : (Device.memWriteT d t a bs).freeCtr = d.freeCtr := rfl
@[simp] theorem Device.memWriteT_mem (d : Device) (t a : Nat) (bs : List Byte) : (Device.memWriteT d t a bs).mem = Memory.writeN d.mem a bs := rfl

@[simp] theorem State.mapWave_pre (s : State) (f : Wave → Wave) : (State.mapWave s f).pre = s.pre := rfl
@[simp] theorem State.mapDev_pre (s : State) (f : Device → Device) : (State.mapDev s f).pre = s.pre := rfl
@[simp] theorem State.setSc_pre (s : State) (n : Nat) (e : Elem) : (State.setSc s n e).pre = s.pre := rfl
@[simp] theorem State.setFlag_pre (s : State) (q : Nat) (v p : Bool) : (State.setFlag s q v p).pre = s.pre := rfl
@[simp] theorem State.setPred_pre (s : State) (k : Nat) (v p : Nat → Bool) : (State.setPred s k v p).pre = s.pre := rfl
@[simp] theorem State.mapWave_base (s : State) (f : Wave → Wave) : (State.mapWave s f).base = s.base := rfl
@[simp] theorem State.mapDev_base (s : State) (f : Device → Device) : (State.mapDev s f).base = s.base := rfl
@[simp] theorem State.setSc_base (s : State) (n : Nat) (e : Elem) : (State.setSc s n e).base = s.base := rfl
@[simp] theorem State.setFlag_base (s : State) (q : Nat) (v p : Bool) : (State.setFlag s q v p).base = s.base := rfl
@[simp] theorem State.setPred_base (s : State) (k : Nat) (v p : Nat → Bool) : (State.setPred s k v p).base = s.base := rfl
@[simp] theorem State.mapWave_ctx (s : State) (f : Wave → Wave) : (State.mapWave s f).ctx = s.ctx := rfl
@[simp] theorem State.mapDev_ctx (s : State) (f : Device → Device) : (State.mapDev s f).ctx = s.ctx := rfl
@[simp] theorem State.setSc_ctx (s : State) (n : Nat) (e : Elem) : (State.setSc s n e).ctx = s.ctx := rfl
@[simp] theorem State.setFlag_ctx (s : State) (q : Nat) (v p : Bool) : (State.setFlag s q v p).ctx = s.ctx := rfl
@[simp] theorem State.setPred_ctx (s : State) (k : Nat) (v p : Nat → Bool) : (State.setPred s k v p).ctx = s.ctx := rfl
@[simp] theorem State.mapWave_agenda (s : State) (f : Wave → Wave) : (State.mapWave s f).agenda = s.agenda := rfl
@[simp] theorem State.mapDev_agenda (s : State) (f : Device → Device) : (State.mapDev s f).agenda = s.agenda := rfl
@[simp] theorem State.setSc_agenda (s : State) (n : Nat) (e : Elem) : (State.setSc s n e).agenda = s.agenda := rfl
@[simp] theorem State.setFlag_agenda (s : State) (q : Nat) (v p : Bool) : (State.setFlag s q v p).agenda = s.agenda := rfl
@[simp] theorem State.setPred_agenda (s : State) (k : Nat) (v p : Nat → Bool) : (State.setPred s k v p).agenda = s.agenda := rfl
@[simp] theorem State.mapWave_focus (s : State) (f : Wave → Wave) : (State.mapWave s f).focus = s.focus := rfl
@[simp] theorem State.mapDev_focus (s : State) (f : Device → Device) : (State.mapDev s f).focus = s.focus := rfl
@[simp] theorem State.setSc_focus (s : State) (n : Nat) (e : Elem) : (State.setSc s n e).focus = s.focus := rfl
@[simp] theorem State.setFlag_focus (s : State) (q : Nat) (v p : Bool) : (State.setFlag s q v p).focus = s.focus := rfl
@[simp] theorem State.setPred_focus (s : State) (k : Nat) (v p : Nat → Bool) : (State.setPred s k v p).focus = s.focus := rfl
@[simp] theorem State.hold_pre (s : State) (w : Stall) : (State.hold s w).pre = s.pre := rfl
@[simp] theorem State.trap_pre (s : State) (c : BitVec 8) (m : Mask) (a : DWord) : (State.trap s c m a).pre = s.pre := rfl
@[simp] theorem State.writeVIn_pre (s : State) (n : Nat) (L : Mask) (f : Nat → Elem) (li : Bool) : (State.writeVIn s n L f li).pre = s.pre := rfl
@[simp] theorem State.hold_base (s : State) (w : Stall) : (State.hold s w).base = s.base := rfl
@[simp] theorem State.trap_base (s : State) (c : BitVec 8) (m : Mask) (a : DWord) : (State.trap s c m a).base = s.base := rfl
@[simp] theorem State.writeVIn_base (s : State) (n : Nat) (L : Mask) (f : Nat → Elem) (li : Bool) : (State.writeVIn s n L f li).base = s.base := rfl
@[simp] theorem State.hold_agenda (s : State) (w : Stall) : (State.hold s w).agenda = s.agenda := rfl
@[simp] theorem State.trap_agenda (s : State) (c : BitVec 8) (m : Mask) (a : DWord) : (State.trap s c m a).agenda = s.agenda := rfl
@[simp] theorem State.writeVIn_agenda (s : State) (n : Nat) (L : Mask) (f : Nat → Elem) (li : Bool) : (State.writeVIn s n L f li).agenda = s.agenda := rfl
@[simp] theorem State.hold_focus (s : State) (w : Stall) : (State.hold s w).focus = s.focus := rfl
@[simp] theorem State.trap_focus (s : State) (c : BitVec 8) (m : Mask) (a : DWord) : (State.trap s c m a).focus = s.focus := rfl
@[simp] theorem State.writeVIn_focus (s : State) (n : Nat) (L : Mask) (f : Nat → Elem) (li : Bool) : (State.writeVIn s n L f li).focus = s.focus := rfl
@[simp] theorem State.mapDev_dev (s : State) (f : Device → Device) : (State.mapDev s f).dev = f s.dev := rfl
@[simp] theorem State.hold_dev (s : State) (w : Stall) : (State.hold s w).dev = s.base := rfl
@[simp] theorem State.hold_status (s : State) (w : Stall) : (State.hold s w).ctx.status = .held w := rfl
@[simp] theorem State.trap_status (s : State) (c : BitVec 8) (m : Mask) (a : DWord) : (State.trap s c m a).ctx.status = .trapped := rfl

/-- The wave of the chain after a change of it. -/
@[simp] theorem State.cur_mapWave (s : State) (f : Wave → Wave) : State.cur (State.mapWave s f) = f (State.cur s) := by
  simp [State.cur, State.mapWave]

/-- Two changes of the wave are one. -/
@[simp] theorem State.mapWave_mapWave (s : State) (f g : Wave → Wave) :
    State.mapWave (State.mapWave s f) g = State.mapWave s (fun w => g (f w)) := by
  simp [State.mapWave]

theorem State.mapWave_congr (s : State) {f g : Wave → Wave} (h : f (State.cur s) = g (State.cur s)) :
    State.mapWave s f = State.mapWave s g := by
  simp only [State.mapWave]
  rw [State.cur] at h
  rw [h]

@[simp] theorem State.src_mapWave (s : State) (f : Wave → Wave) : State.src (State.mapWave s f) = State.src s := rfl
@[simp] theorem State.src_setSc (s : State) (n : Nat) (e : Elem) : State.src (State.setSc s n e) = State.src s := rfl

/-- Every other wave is untouched by a change of the chain's wave. -/
theorem State.mapWave_other (s : State) (f : Wave → Wave) {u : Nat} (h : u ≠ s.ctx.wave) :
    Device.wave (State.mapWave s f).dev u = Device.wave s.dev u := by
  simp [State.mapWave, Device.wave_setWave_ne _ _ h]

@[simp] theorem Wave.sc_setSc (w : Wave) (n : Nat) (e : Elem) : Wave.sc (Wave.setSc w n e) n = e := by
  simp [Wave.sc, Wave.setSc]

theorem Wave.sc_setSc_ne (w : Wave) {n k : Nat} (e : Elem) (h : k ≠ n) : Wave.sc (Wave.setSc w n e) k = Wave.sc w k := by
  simp [Wave.sc, Wave.setSc, Tbl.getD_put_ne _ _ _ h]

@[simp] theorem State.cur_setSc (s : State) (n : Nat) (e : Elem) : State.cur (State.setSc s n e) = Wave.setSc (State.cur s) n e := by
  simp [State.setSc]

end Sys2Proof.Machine
end

