-- ==== Sys2Proof/Laws/Vector.lean ====
section
/-! SUPPORT. What the named register operations do, said once: which elements, scalars, predicates and flags they change and that nothing else differs. -/

namespace Sys2Proof.Machine

theorem putAt_getD {α : Type} (l : List α) (k j : Nat) (v d : α) :
    (putAt l k v d).getD j d = if j = k then v else l.getD j d := by
  induction l generalizing k j with
  | nil =>
    induction k generalizing j with
    | zero => cases j <;> simp [putAt]
    | succ k ih => cases j with
      | zero => simp [putAt]
      | succ j => simpa [putAt] using ih j
  | cons x r ih =>
    cases k with
    | zero => cases j <;> simp [putAt]
    | succ k => cases j with
      | zero => simp [putAt]
      | succ j => simpa [putAt] using ih k j

/-- Is an identifier one of a vector register. -/
def RegId.vector : RegId → Bool
  | .fixed _ => true
  | .pos _ => true
  | _ => false

@[simp] theorem Wave.vid_vector (w : Wave) (wb n : Nat) : (Wave.vid w wb n).vector = true := by
  unfold Wave.vid; split <;> rfl

theorem Wave.vid_inj (w : Wave) (wb : Nat) {n m : Nat} (h : n ≠ m) : Wave.vid w wb n ≠ Wave.vid w wb m := by
  unfold Wave.vid
  generalize (if w.handler = true then w.wlim else wb) = b
  by_cases h1 : n < 16 <;> by_cases h2 : m < 16
  · simp [h1, h2, h]
  · simp [h1, h2]
  · simp [h1, h2]
  · simp only [h1, h2, if_false, ne_eq, RegId.pos.injEq]; omega

theorem Wave.reg?_setReg (w : Wave) (id j : RegId) (r : VReg) (h : id.vector = true) :
    Wave.reg? (Wave.setReg w id r) j = if j = id then some r else Wave.reg? w j := by
  cases id <;> simp [RegId.vector] at h <;> cases j <;> simp [Wave.setReg, Wave.reg?, Tbl.get?_put]
  rename_i p q
  by_cases e : q = p
  · simp [e]
  · simp [e]

theorem Wave.reg?_freeReg (w : Wave) (id j : RegId) (h : id.vector = true) :
    Wave.reg? (Wave.freeReg w id) j = if j = id then none else Wave.reg? w j := by
  cases id <;> simp [RegId.vector] at h <;> cases j <;> simp [Wave.freeReg, Wave.reg?, Tbl.get?_del]
  split <;> simp_all

theorem VReg.elem_write (old : Option VReg) (L : Mask) (f : Nat → Elem) (li : Bool) {l : Nat} (hl : l < 64) :
    VReg.elem (VReg.write old L f li) l = if L.getLsbD l then f l else optElem old l := by
  have hl' : decide (l < 64) = true := by simp [hl]
  unfold VReg.elem VReg.write
  simp only [BitVec.getLsbD_or, BitVec.getLsbD_and, BitVec.getLsbD_not, getLsbD_maskOf, hl', Bool.true_and, map_mkLanes,
    getD_mkLanes _ _ hl]
  cases hL : L.getLsbD l
  · cases old with
    | none => simp [VReg.blank, optElem]
    | some r => simp [optElem, VReg.elem]
  · simp

theorem Wave.elemOf_writeReg (w : Wave) (id j : RegId) (L : Mask) (f : Nat → Elem) (li : Bool) {l : Nat} (hl : l < 64)
    (h : id.vector = true) :
    Wave.elemOf (Wave.writeReg w id L f li) j l = if j = id ∧ L.getLsbD l = true then f l else Wave.elemOf w j l := by
  unfold Wave.elemOf Wave.writeReg
  by_cases hL : L = 0
  · subst hL; simp
  · have hb : (L == 0) = false := by simpa using hL
    rw [hb]
    simp only [Bool.false_eq_true, if_false]
    rw [Wave.reg?_setReg w id j _ h]
    by_cases hj : j = id
    · subst hj
      simp only [if_true, true_and]
      show VReg.elem _ l = _
      rw [VReg.elem_write _ _ _ _ hl]
    · simp [hj]

/-- Cutting a position that is not resident changes no register that the wave can read. -/
theorem Wave.reg?_cutReg (w : Wave) (id j : RegId) (L : Mask) (h : Wave.reg? w id = none) :
    Wave.reg? (Wave.cutReg w id L) j = Wave.reg? w j := by
  unfold Wave.cutReg
  split
  · split
    · rename_i p _ x hx
      cases j <;> simp only [Wave.reg?, Tbl.get?_put] at h ⊢
      rename_i q
      by_cases e : q = p
      · subst e
        rw [hx] at h ⊢
        simp only at h ⊢
        simp_all
      · simp [e]
    · rfl
  · rfl

theorem Wave.elemOf_clearReg (w : Wave) (id j : RegId) (L : Mask) {l : Nat} (hl : l < 64) (h : id.vector = true) :
    Wave.elemOf (Wave.clearReg w id L) j l = if j = id ∧ L.getLsbD l = true then ⟨0, false⟩ else Wave.elemOf w j l := by
  unfold Wave.elemOf Wave.clearReg
  split
  · rename_i hn
    by_cases hj : j = id
    · subst hj; simp [Wave.reg?_cutReg w _ _ L hn, hn, optElem]
    · simp [Wave.reg?_cutReg w _ _ L hn, hj]
  · rename_i r hr
    split
    · rename_i hz
      rw [Wave.reg?_freeReg w id j h]
      by_cases hj : j = id
      · subst hj
        have hz' : ∀ l, l < 64 → (r.live &&& ~~~L).getLsbD l = false := (mask_eq_zero _).mp (by simpa using hz)
        have := hz' l hl
        rw [BitVec.getLsbD_and, BitVec.getLsbD_not] at this
        simp only [hl, decide_true, Bool.true_and] at this
        cases hL : L.getLsbD l
        · rw [hL] at this
          simp at this
          simp [hr, optElem, VReg.elem, this]
        · simp [optElem]
      · simp [hj]
    · rw [Wave.reg?_setReg w id j _ h]
      by_cases hj : j = id
      · subst hj
        simp only [if_true, true_and, hr, optElem, VReg.elem, BitVec.getLsbD_and, BitVec.getLsbD_not, hl, decide_true, Bool.true_and]
        cases hL : L.getLsbD l <;> simp
      · simp [hj]

@[simp] theorem Wave.withRegs_withRegs (a b c : Wave) : Wave.withRegs (Wave.withRegs a b) c = Wave.withRegs a c := rfl
@[simp] theorem Wave.withRegs_self (a : Wave) : Wave.withRegs a a = a := rfl
theorem Wave.vid_withRegs (a b : Wave) (wb n : Nat) : Wave.vid (Wave.withRegs a b) wb n = Wave.vid a wb n := rfl

/-- Two waves that differ in the registers a word may write only. -/
def Wave.SameRest (w w' : Wave) : Prop := w' = Wave.withRegs w w'

theorem Wave.SameRest.refl (w : Wave) : Wave.SameRest w w := rfl

theorem Wave.SameRest.trans {a b c : Wave} (h : Wave.SameRest a b) (h' : Wave.SameRest b c) : Wave.SameRest a c := by
  unfold Wave.SameRest at *
  rw [h, Wave.withRegs_withRegs] at h'
  exact h'

theorem Wave.SameRest.vid {a b : Wave} (h : Wave.SameRest a b) (wb n : Nat) : Wave.vid b wb n = Wave.vid a wb n := by
  unfold Wave.SameRest at h
  rw [h, Wave.vid_withRegs]

theorem Wave.sameRest_setReg (w : Wave) (id : RegId) (r : VReg) : Wave.SameRest w (Wave.setReg w id r) := by
  cases id <;> rfl

theorem Wave.sameRest_freeReg (w : Wave) (id : RegId) : Wave.SameRest w (Wave.freeReg w id) := by
  cases id <;> rfl

theorem Wave.sameRest_cutReg (w : Wave) (id : RegId) (L : Mask) : Wave.SameRest w (Wave.cutReg w id L) := by
  unfold Wave.cutReg
  split
  · split <;> rfl
  · rfl

theorem Wave.sameRest_clearReg (w : Wave) (id : RegId) (L : Mask) : Wave.SameRest w (Wave.clearReg w id L) := by
  unfold Wave.clearReg
  split
  · exact Wave.sameRest_cutReg w id L
  · split
    · exact Wave.sameRest_freeReg w id
    · exact Wave.sameRest_setReg w id _

theorem Wave.sameRest_writeReg (w : Wave) (id : RegId) (L : Mask) (f : Nat → Elem) (li : Bool) :
    Wave.SameRest w (Wave.writeReg w id L f li) := by
  unfold Wave.writeReg
  split
  · exact Wave.SameRest.refl w
  · exact Wave.sameRest_setReg w id _

/-- The state t is s after register operations: all but the registers, and the list of names written, is as before. -/
structure Regs (s t : State) : Prop where
  dev  : t.dev = s.dev ∨ t.dev = Device.setWave s.dev s.ctx.wave (State.cur t)
  st   : t = State.withDev s t.dev t.ctx.written
  wave : Wave.SameRest (State.cur s) (State.cur t)

/-- A change of the wave's registers. -/
structure RegsW (s t : State) : Prop where
  dev  : t.dev = Device.setWave s.dev s.ctx.wave (State.cur t)
  st   : t = State.withDev s t.dev t.ctx.written
  wave : Wave.SameRest (State.cur s) (State.cur t)

theorem RegsW.regs {s t : State} (h : RegsW s t) : Regs s t := ⟨.inr h.dev, h.st, h.wave⟩

theorem Regs.refl (s : State) : Regs s s := ⟨.inl rfl, rfl, rfl⟩

theorem Regs.wave_eq {s t : State} (h : Regs s t) : t.ctx.wave = s.ctx.wave := by rw [h.st]; rfl

theorem Regs.trans {a b c : State} (h : Regs a b) (h' : Regs b c) : Regs a c := by
  refine ⟨?_, ?_, h.wave.trans h'.wave⟩
  · rcases h.dev with e | e <;> rcases h'.dev with e' | e'
    · exact .inl (e'.trans e)
    · right; rw [e', h.wave_eq, e]
    · right
      have : State.cur c = State.cur b := by
        unfold State.cur; rw [e', h'.wave_eq]
      rw [e', e, this]
    · right
      rw [e', e, h.wave_eq]
      simp
  · have e := h'.st
    rw [h.st] at e
    exact e

theorem Regs.transW {a b c : State} (h : Regs a b) (h' : RegsW b c) : RegsW a c := by
  refine ⟨?_, (h.trans h'.regs).st, h.wave.trans h'.wave⟩
  rcases h.dev with e | e
  · rw [h'.dev, h.wave_eq, e]
  · rw [h'.dev, e, h.wave_eq]; simp

theorem Regs.lanes {s t : State} (h : Regs s t) : t.ctx.lanes = s.ctx.lanes := by rw [h.st]; rfl
theorem Regs.pre {s t : State} (h : Regs s t) : t.pre = s.pre := by rw [h.st]; rfl

theorem Regs.vidOf {s t : State} (h : Regs s t) (n : Nat) : State.vidOf t n = State.vidOf s n := by
  have : t.ctx.wb = s.ctx.wb := by rw [h.st]; rfl
  unfold State.vidOf
  rw [h.wave.vid, this]

theorem RegsW.onlyRegs {s t : State} (h : RegsW s t) : OnlyRegs s t := by
  unfold OnlyRegs
  have hw := h.wave
  unfold Wave.SameRest at hw
  rw [← hw, ← h.dev]
  exact h.st

theorem Regs.mem {s t : State} (h : Regs s t) : t.dev.mem = s.dev.mem := by
  rcases h.dev with e | e
  · rw [e]
  · rw [e]; rfl

theorem regsW_mapWave (s : State) (f : Wave → Wave) (h : Wave.SameRest (State.cur s) (f (State.cur s))) :
    RegsW s (State.mapWave s f) := by
  refine ⟨?_, rfl, ?_⟩
  · simp [State.mapWave, State.cur]
  · simpa using h

theorem regsW_setSc (s : State) (n : Nat) (e : Elem) : RegsW s (State.setSc s n e) := regsW_mapWave s _ rfl
theorem regsW_setPred (s : State) (k : Nat) (v p : Nat → Bool) : RegsW s (State.setPred s k v p) := regsW_mapWave s _ rfl
theorem regsW_setFlag (s : State) (q : Nat) (v p : Bool) : RegsW s (State.setFlag s q v p) := regsW_mapWave s _ rfl

theorem regsW_writeVIn (s : State) (n : Nat) (L : Mask) (f : Nat → Elem) (li : Bool) : RegsW s (State.writeVIn s n L f li) := by
  have h := regsW_mapWave s (fun w => Wave.writeReg w (State.vidOf s n) L f li) (Wave.sameRest_writeReg _ _ _ _ _)
  exact ⟨h.dev, rfl, h.wave⟩

theorem regs_lastRead (s : State) (on : BitVec 1) (n : Nat) : Regs s (State.lastRead s on n) := by
  unfold State.lastRead
  split
  · exact Regs.refl s
  · dsimp only
    split
    · exact Regs.refl s
    · exact (regsW_mapWave s _ (Wave.sameRest_clearReg _ _ _)).regs

theorem written_lastRead (s : State) (on : BitVec 1) (n : Nat) : (State.lastRead s on n).ctx = s.ctx := by
  unfold State.lastRead
  split
  · rfl
  · dsimp only
    split <;> rfl

/-- What a last read does to the elements. -/
theorem elemOf_lastRead (s : State) (on : BitVec 1) (n : Nat) (j : RegId) {l : Nat} (hl : l < 64) :
    Wave.elemOf (State.cur (State.lastRead s on n)) j l
      = if s.ctx.lanes.getLsbD l && (on != 0 && State.vidOf s n == j) && !s.ctx.written.contains j then ⟨0, false⟩
        else Wave.elemOf (State.cur s) j l := by
  unfold State.lastRead
  by_cases h0 : on = 0
  · subst h0; simp
  · have hb : (on == 0) = false := by simpa using h0
    have hb2 : (on != 0) = true := by simpa using h0
    rw [hb, hb2]
    simp only [Bool.false_eq_true, if_false, Bool.true_and]
    show Wave.elemOf (State.cur (if s.ctx.written.contains (State.vidOf s n) then s else _)) j l = _
    cases hw : s.ctx.written.contains (State.vidOf s n)
    · simp only [Bool.false_eq_true, if_false, State.cur_mapWave]
      rw [Wave.elemOf_clearReg _ _ _ _ hl (by simp)]
      by_cases hj : j = State.vidOf s n
      · subst hj
        rw [hw]
        simp [State.vidOf]
      · have hj' : (State.vidOf s n == j) = false := by
          simp; exact fun e => hj e.symm
        have hj2 : ¬ j = Wave.vid (State.cur s) s.ctx.wb n := hj
        simp [hj', hj2]
    · simp only [if_true]
      by_cases hj : State.vidOf s n = j
      · subst hj; rw [hw]; simp
      · have hj' : (State.vidOf s n == j) = false := by simpa using hj
        simp [hj']

theorem elemOf_writeVIn (s : State) (n : Nat) (L : Mask) (f : Nat → Elem) (li : Bool) (j : RegId) {l : Nat} (hl : l < 64) :
    Wave.elemOf (State.cur (State.writeVIn s n L f li)) j l
      = if j = State.vidOf s n ∧ L.getLsbD l = true then f l else Wave.elemOf (State.cur s) j l := by
  have : State.cur (State.writeVIn s n L f li) = Wave.writeReg (State.cur s) (State.vidOf s n) L f li :=
    State.cur_mapWave s (fun w => Wave.writeReg w (State.vidOf s n) L f li)
  rw [this]
  exact Wave.elemOf_writeReg _ _ _ _ _ _ hl (by simp [State.vidOf])

theorem Wave.pred_setPred (w : Wave) (k j : Nat) (L v p : Mask) (l : Nat) (hl : l < 64) :
    ((Wave.pred (Wave.setPred w k L v p) j).v.getLsbD l, (Wave.pred (Wave.setPred w k L v p) j).p.getLsbD l)
      = if j ≠ 0 ∧ L.getLsbD l = true ∧ j = k then (v.getLsbD l, p.getLsbD l)
        else ((Wave.pred w j).v.getLsbD l, (Wave.pred w j).p.getLsbD l) := by
  unfold Wave.pred
  by_cases hj : j = 0
  · subst hj; simp
  · have hb : (j == 0) = false := by simpa using hj
    simp only [hb, Bool.false_eq_true, if_false, Wave.setPred, putAt_getD]
    by_cases hk : j = k
    · subst hk
      simp only [if_true, BitVec.getLsbD_or, BitVec.getLsbD_and, BitVec.getLsbD_not, hl, decide_true, Bool.true_and]
      cases hL : L.getLsbD l <;> simp [hj]
    · simp [hk]

theorem Wave.flagOf_setFlag (w : Wave) (q j : Nat) (v p : Bool) :
    Wave.flagOf (Wave.setFlag w q v p) j = if j = q then ⟨v, p⟩ else Wave.flagOf w j := by
  simp only [Wave.flagOf, Wave.setFlag, putAt_getD]

/-- What one kind of operation leaves alone. -/
theorem lastRead_rest (s : State) (on : BitVec 1) (n : Nat) :
    (State.cur (State.lastRead s on n)).scal = (State.cur s).scal ∧ (State.cur (State.lastRead s on n)).preds = (State.cur s).preds
    ∧ (State.cur (State.lastRead s on n)).flags = (State.cur s).flags ∧ (State.cur (State.lastRead s on n)).scount = (State.cur s).scount := by
  unfold State.lastRead
  split
  · simp
  · dsimp only
    split
    · simp
    · simp only [State.cur_mapWave]
      unfold Wave.clearReg
      split
      · unfold Wave.cutReg; split <;> (try split) <;> simp
      · split
        · unfold Wave.freeReg; split <;> simp
        · unfold Wave.setReg; split <;> simp

theorem writeVIn_rest (s : State) (n : Nat) (L : Mask) (f : Nat → Elem) (li : Bool) :
    (State.cur (State.writeVIn s n L f li)).scal = (State.cur s).scal ∧ (State.cur (State.writeVIn s n L f li)).preds = (State.cur s).preds
    ∧ (State.cur (State.writeVIn s n L f li)).flags = (State.cur s).flags
    ∧ (State.cur (State.writeVIn s n L f li)).scount = (State.cur s).scount := by
  have : State.cur (State.writeVIn s n L f li) = Wave.writeReg (State.cur s) (State.vidOf s n) L f li :=
    State.cur_mapWave s (fun w => Wave.writeReg w (State.vidOf s n) L f li)
  rw [this]
  unfold Wave.writeReg
  split
  · simp
  · unfold Wave.setReg; split <;> simp

/-- An element comes back from a refill as memory holds it or as the hidden register held it (R141). -/
theorem Device.refillElem_either (d : Device) (was : VReg) (l : Nat) (now : Word) :
    Device.refillElem d was l now = now ∨ (was.live.getLsbD l = true ∧ Device.refillElem d was l now = was.vals.getD l 0) := by
  unfold Device.refillElem; dsimp only
  split
  · rename_i h
    simp only [Bool.and_eq_true] at h
    exact .inr ⟨h.1.1, rfl⟩
  · exact .inl rfl

/-- A frame entry comes back from a refill as memory holds it or as the hidden frame held it (R141). -/
theorem Device.refillEntry_either (d : Device) (was : Frame) (l : Nat) (now : DWord) :
    Device.refillEntry d was l now = now ∨ (was.mask.getLsbD l = true ∧ Device.refillEntry d was l now = was.entries.getD l 0) := by
  unfold Device.refillEntry; dsimp only
  split
  · rename_i h
    simp only [Bool.and_eq_true] at h
    exact .inr ⟨h.1.1, rfl⟩
  · exact .inl rfl

theorem putByKey_perm {α : Type} (k : Nat) (x : α) (xs : List (Nat × α)) : (putByKey k x xs).Perm ((k, x) :: xs) := by
  induction xs with
  | nil => exact .refl _
  | cons e r ih =>
    unfold putByKey
    split
    · exact .refl _
    · exact (ih.cons e).trans (.swap _ _ _)

/-- An open order loses nothing and adds nothing (R330). -/
theorem Device.anyOrder_perm {α : Type} (d : Device) (xs : List α) : (Device.anyOrder d xs).Perm xs := by
  have h : ∀ (ps : List (Nat × α)) (key : Nat → Nat),
      ((ps.foldr (fun e r => putByKey (key e.1) e.2 r) []).map (·.2)).Perm (ps.map (·.2)) := by
    intro ps key
    induction ps with
    | nil => exact .refl _
    | cons e r ih => exact ((putByKey_perm (key e.1) e.2 _).map _).trans (ih.cons e.2)
  refine (h _ (fun n => (Config.freeWord (d.freeCtr + n)).toNat)).trans (.of_eq ?_)
  exact List.map_snd_zip (by simp)

end Sys2Proof.Machine
end

