-- ==== Sys2Proof/Laws/Words.lean ====
section
/-! SUPPORT. A word made of named register operations leads exactly where its change says: the spec lemma of `State.does`. -/

namespace Sys2Proof.Machine

/-- The registers that are not vector registers are as before. -/
def SameOther (w w' : Wave) : Prop := w'.scal = w.scal ∧ w'.preds = w.preds ∧ w'.flags = w.flags ∧ w'.scount = w.scount

/-- All but scalars as before. -/
def KeptBut.scal (w w' : Wave) : Prop := w'.vfix = w.vfix ∧ w'.win = w.win ∧ w'.preds = w.preds ∧ w'.flags = w.flags ∧ w'.scount = w.scount
/-- All but predicates as before. -/
def KeptBut.preds (w w' : Wave) : Prop := w'.vfix = w.vfix ∧ w'.win = w.win ∧ w'.scal = w.scal ∧ w'.flags = w.flags ∧ w'.scount = w.scount
/-- All but flags as before. -/
def KeptBut.flags (w w' : Wave) : Prop := w'.vfix = w.vfix ∧ w'.win = w.win ∧ w'.scal = w.scal ∧ w'.preds = w.preds ∧ w'.scount = w.scount

theorem Wave.elemOf_congr {w w' : Wave} (h1 : w'.vfix = w.vfix) (h2 : w'.win = w.win) (id : RegId) (l : Nat) :
    Wave.elemOf w' id l = Wave.elemOf w id l := by
  unfold Wave.elemOf Wave.reg?
  cases id <;> simp only [h1, h2]

theorem ite_twice {α : Type} (L x y w : Bool) (z e : α) :
    (if (L && y) && !w then z else if (L && x) && !w then z else e) = if (L && (x || y)) && !w then z else e := by
  cases L <;> cases x <;> cases y <;> cases w <;> rfl

theorem reads_fold (rs : List (BitVec 1 × Nat)) (s : State) :
    Regs s (rs.foldl (fun t r => State.lastRead t r.1 r.2) s)
    ∧ (rs.foldl (fun t r => State.lastRead t r.1 r.2) s).ctx = s.ctx
    ∧ SameOther (State.cur s) (State.cur (rs.foldl (fun t r => State.lastRead t r.1 r.2) s))
    ∧ ∀ j l, l < 64 → Wave.elemOf (State.cur (rs.foldl (fun t r => State.lastRead t r.1 r.2) s)) j l
      = if s.ctx.lanes.getLsbD l && rs.any (fun r => r.1 != 0 && State.vidOf s r.2 == j) && !s.ctx.written.contains j then ⟨0, false⟩
        else Wave.elemOf (State.cur s) j l := by
  induction rs generalizing s with
  | nil => exact ⟨Regs.refl s, rfl, ⟨rfl, rfl, rfl, rfl⟩, by simp⟩
  | cons r rs ih =>
    have h1 := regs_lastRead s r.1 r.2
    have hc := written_lastRead s r.1 r.2
    have ho := lastRead_rest s r.1 r.2
    obtain ⟨i1, i2, i3, i4⟩ := ih (State.lastRead s r.1 r.2)
    refine ⟨h1.trans i1, i2.trans hc, ?_, ?_⟩
    · obtain ⟨a, b, c, d⟩ := i3
      exact ⟨a.trans ho.1, b.trans ho.2.1, c.trans ho.2.2.1, d.trans ho.2.2.2⟩
    · intro j l hl
      rw [List.foldl_cons, i4 j l hl, elemOf_lastRead s r.1 r.2 j hl, hc]
      simp only [h1.vidOf, List.any_cons]
      exact ite_twice _ _ _ _ _ _

theorem vecs_fold (ds : List (Nat × (Nat → Elem) × Bool)) (s : State) (hn : (ds.map (fun d => d.1)).Nodup) :
    Regs s (ds.foldl (fun t d => State.writeV t d.1 d.2.1 d.2.2) s)
    ∧ (ds ≠ [] → RegsW s (ds.foldl (fun t d => State.writeV t d.1 d.2.1 d.2.2) s))
    ∧ (ds.foldl (fun t d => State.writeV t d.1 d.2.1 d.2.2) s).ctx.written
        = (ds.map (fun d => State.vidOf s d.1)).reverse ++ s.ctx.written
    ∧ SameOther (State.cur s) (State.cur (ds.foldl (fun t d => State.writeV t d.1 d.2.1 d.2.2) s))
    ∧ ∀ j l, l < 64 → Wave.elemOf (State.cur (ds.foldl (fun t d => State.writeV t d.1 d.2.1 d.2.2) s)) j l
      = if s.ctx.lanes.getLsbD l then
          match ds.find? (fun d => State.vidOf s d.1 == j) with
          | some d => d.2.1 l
          | none => Wave.elemOf (State.cur s) j l
        else Wave.elemOf (State.cur s) j l := by
  induction ds generalizing s with
  | nil => exact ⟨Regs.refl s, fun h => absurd rfl h, rfl, ⟨rfl, rfl, rfl, rfl⟩, by simp⟩
  | cons d ds ih =>
    simp only [List.map_cons, List.nodup_cons] at hn
    have h1 : RegsW s (State.writeV s d.1 d.2.1 d.2.2) := regsW_writeVIn s d.1 s.ctx.lanes d.2.1 d.2.2
    have ho := writeVIn_rest s d.1 s.ctx.lanes d.2.1 d.2.2
    have hw : (State.writeV s d.1 d.2.1 d.2.2).ctx = { s.ctx with written := State.vidOf s d.1 :: s.ctx.written } := rfl
    obtain ⟨i1, i2, i3, i4, i5⟩ := ih (State.writeV s d.1 d.2.1 d.2.2) hn.2
    rw [List.foldl_cons]
    refine ⟨h1.regs.trans i1, fun _ => ?_, ?_, ?_, ?_⟩
    · by_cases hd : ds = []
      · subst hd; exact h1
      · exact h1.regs.transW (i2 hd)
    · rw [i3, hw]
      simp only [h1.regs.vidOf, List.map_cons, List.reverse_cons, List.append_assoc, List.singleton_append]
    · obtain ⟨a, b, c, e⟩ := i4
      exact ⟨a.trans ho.1, b.trans ho.2.1, c.trans ho.2.2.1, e.trans ho.2.2.2⟩
    · intro j l hl
      rw [i5 j l hl]
      have he : Wave.elemOf (State.cur (State.writeV s d.1 d.2.1 d.2.2)) j l
          = if j = State.vidOf s d.1 ∧ s.ctx.lanes.getLsbD l = true then d.2.1 l else Wave.elemOf (State.cur s) j l :=
        elemOf_writeVIn s d.1 s.ctx.lanes d.2.1 d.2.2 j hl
      have hlan : (State.writeV s d.1 d.2.1 d.2.2).ctx.lanes = s.ctx.lanes := rfl
      rw [he, hlan]
      simp only [h1.regs.vidOf]
      cases hL : s.ctx.lanes.getLsbD l
      · simp
      · simp only [if_true, and_true]
        by_cases hj : State.vidOf s d.1 = j
        · have hnone : ds.find? (fun d' => State.vidOf s d'.1 == j) = none := by
            rw [List.find?_eq_none]
            intro d' hd' hc
            have hne : d'.1 ≠ d.1 := by
              intro e
              exact hn.1 (List.mem_map.mpr ⟨d', hd', e⟩)
            have := Wave.vid_inj (State.cur s) s.ctx.wb hne
            apply this
            have hc' : State.vidOf s d'.1 = j := by simpa using hc
            exact hc'.trans hj.symm
          rw [hnone]
          simp [hj]
        · have hj' : (State.vidOf s d.1 == j) = false := by simpa using hj
          have hj2 : ¬ j = State.vidOf s d.1 := fun e => hj e.symm
          simp only [List.find?_cons, hj', hj2, if_false]

theorem scals_fold (ds : List (Nat × Elem)) (s : State) (hn : (ds.map (fun d => d.1)).Nodup) :
    Regs s (ds.foldl (fun t d => State.setSc t d.1 d.2) s)
    ∧ (ds ≠ [] → RegsW s (ds.foldl (fun t d => State.setSc t d.1 d.2) s))
    ∧ (ds.foldl (fun t d => State.setSc t d.1 d.2) s).ctx = s.ctx
    ∧ KeptBut.scal (State.cur s) (State.cur (ds.foldl (fun t d => State.setSc t d.1 d.2) s))
    ∧ ∀ n, Wave.sc (State.cur (ds.foldl (fun t d => State.setSc t d.1 d.2) s)) n
      = match ds.find? (fun d => d.1 == n) with
        | some d => d.2
        | none => Wave.sc (State.cur s) n := by
  induction ds generalizing s with
  | nil => exact ⟨Regs.refl s, fun h => absurd rfl h, rfl, ⟨rfl, rfl, rfl, rfl, rfl⟩, by simp⟩
  | cons d ds ih =>
    simp only [List.map_cons, List.nodup_cons] at hn
    have h1 := regsW_setSc s d.1 d.2
    obtain ⟨i1, i2, i3, i4, i5⟩ := ih (State.setSc s d.1 d.2) hn.2
    rw [List.foldl_cons]
    refine ⟨h1.regs.trans i1, fun _ => ?_, i3, ?_, ?_⟩
    · by_cases hd : ds = []
      · subst hd; exact h1
      · exact h1.regs.transW (i2 hd)
    · rw [State.cur_setSc] at i4
      exact i4
    · intro n
      rw [i5 n, State.cur_setSc]
      by_cases hj : d.1 = n
      · have hnone : ds.find? (fun d' => d'.1 == n) = none := by
          rw [List.find?_eq_none]
          intro d' hd' hc
          have hc' : d'.1 = n := by simpa using hc
          exact hn.1 (List.mem_map.mpr ⟨d', hd', hc'.trans hj.symm⟩)
        rw [hnone]
        subst hj
        simp
      · have hj' : (d.1 == n) = false := by simpa using hj
        simp only [List.find?_cons, hj', Wave.sc_setSc_ne _ _ (fun e => hj e.symm)]

theorem preds_fold (ds : List (Nat × (Nat → Bool × Bool))) (s : State) (hn : (ds.map (fun d => d.1)).Nodup) :
    Regs s (ds.foldl (fun t d => State.setPred t d.1 (fun l => (d.2 l).1) (fun l => (d.2 l).2)) s)
    ∧ (ds ≠ [] → RegsW s (ds.foldl (fun t d => State.setPred t d.1 (fun l => (d.2 l).1) (fun l => (d.2 l).2)) s))
    ∧ (ds.foldl (fun t d => State.setPred t d.1 (fun l => (d.2 l).1) (fun l => (d.2 l).2)) s).ctx = s.ctx
    ∧ KeptBut.preds (State.cur s) (State.cur (ds.foldl (fun t d => State.setPred t d.1 (fun l => (d.2 l).1) (fun l => (d.2 l).2)) s))
    ∧ ∀ k l, l < 64 →
      ((Wave.pred (State.cur (ds.foldl (fun t d => State.setPred t d.1 (fun l => (d.2 l).1) (fun l => (d.2 l).2)) s)) k).v.getLsbD l,
       (Wave.pred (State.cur (ds.foldl (fun t d => State.setPred t d.1 (fun l => (d.2 l).1) (fun l => (d.2 l).2)) s)) k).p.getLsbD l)
      = if k != 0 && s.ctx.lanes.getLsbD l then
          match ds.find? (fun d => d.1 == k) with
          | some d => d.2 l
          | none => ((Wave.pred (State.cur s) k).v.getLsbD l, (Wave.pred (State.cur s) k).p.getLsbD l)
        else ((Wave.pred (State.cur s) k).v.getLsbD l, (Wave.pred (State.cur s) k).p.getLsbD l) := by
  induction ds generalizing s with
  | nil => exact ⟨Regs.refl s, fun h => absurd rfl h, rfl, ⟨rfl, rfl, rfl, rfl, rfl⟩, by simp⟩
  | cons d ds ih =>
    simp only [List.map_cons, List.nodup_cons] at hn
    have h1 := regsW_setPred s d.1 (fun l => (d.2 l).1) (fun l => (d.2 l).2)
    obtain ⟨i1, i2, i3, i4, i5⟩ := ih (State.setPred s d.1 (fun l => (d.2 l).1) (fun l => (d.2 l).2)) hn.2
    rw [List.foldl_cons]
    have hcur : State.cur (State.setPred s d.1 (fun l => (d.2 l).1) (fun l => (d.2 l).2))
        = Wave.setPred (State.cur s) d.1 s.ctx.lanes (maskOf (fun l => (d.2 l).1)) (maskOf (fun l => (d.2 l).2)) :=
      State.cur_mapWave s (fun w => Wave.setPred w d.1 s.ctx.lanes (maskOf (fun l => (d.2 l).1)) (maskOf (fun l => (d.2 l).2)))
    refine ⟨h1.regs.trans i1, fun _ => ?_, i3, ?_, ?_⟩
    · by_cases hd : ds = []
      · subst hd; exact h1
      · exact h1.regs.transW (i2 hd)
    · rw [hcur] at i4
      exact i4
    · intro k l hl
      rw [i5 k l hl, hcur, Wave.pred_setPred _ _ _ _ _ _ _ hl]
      have hlan : (State.setPred s d.1 (fun l => (d.2 l).1) (fun l => (d.2 l).2)).ctx.lanes = s.ctx.lanes := rfl
      simp only [getLsbD_maskOf, hl, decide_true, Bool.true_and, State.setPred_ctx]
      by_cases hk : k = 0
      · subst hk; simp
      · have hk' : (k != 0) = true := by simpa using hk
        cases hL : s.ctx.lanes.getLsbD l
        · simp
        · simp only [hk', Bool.true_and, if_true, ne_eq, hk, not_false_eq_true, true_and]
          by_cases hj : d.1 = k
          · have hnone : ds.find? (fun d' => d'.1 == k) = none := by
              rw [List.find?_eq_none]
              intro d' hd' hc
              have hc' : d'.1 = k := by simpa using hc
              exact hn.1 (List.mem_map.mpr ⟨d', hd', hc'.trans hj.symm⟩)
            rw [hnone]
            subst hj
            simp
          · have hj' : (d.1 == k) = false := by simpa using hj
            have hj2 : ¬ k = d.1 := fun e => hj e.symm
            simp only [List.find?_cons, hj', hj2, if_false]

theorem flags_fold (ds : List (Nat × FReg)) (s : State) (hn : (ds.map (fun d => d.1)).Nodup) :
    Regs s (ds.foldl (fun t d => State.setFlag t d.1 d.2.v d.2.p) s)
    ∧ (ds ≠ [] → RegsW s (ds.foldl (fun t d => State.setFlag t d.1 d.2.v d.2.p) s))
    ∧ (ds.foldl (fun t d => State.setFlag t d.1 d.2.v d.2.p) s).ctx = s.ctx
    ∧ KeptBut.flags (State.cur s) (State.cur (ds.foldl (fun t d => State.setFlag t d.1 d.2.v d.2.p) s))
    ∧ ∀ n, Wave.flagOf (State.cur (ds.foldl (fun t d => State.setFlag t d.1 d.2.v d.2.p) s)) n
      = match ds.find? (fun d => d.1 == n) with
        | some d => d.2
        | none => Wave.flagOf (State.cur s) n := by
  induction ds generalizing s with
  | nil => exact ⟨Regs.refl s, fun h => absurd rfl h, rfl, ⟨rfl, rfl, rfl, rfl, rfl⟩, by simp⟩
  | cons d ds ih =>
    simp only [List.map_cons, List.nodup_cons] at hn
    have h1 := regsW_setFlag s d.1 d.2.v d.2.p
    have hcur : State.cur (State.setFlag s d.1 d.2.v d.2.p) = Wave.setFlag (State.cur s) d.1 d.2.v d.2.p :=
      State.cur_mapWave s (fun w => Wave.setFlag w d.1 d.2.v d.2.p)
    obtain ⟨i1, i2, i3, i4, i5⟩ := ih (State.setFlag s d.1 d.2.v d.2.p) hn.2
    rw [List.foldl_cons]
    refine ⟨h1.regs.trans i1, fun _ => ?_, i3, ?_, ?_⟩
    · by_cases hd : ds = []
      · subst hd; exact h1
      · exact h1.regs.transW (i2 hd)
    · rw [hcur] at i4
      exact i4
    · intro n
      rw [i5 n, hcur, Wave.flagOf_setFlag]
      by_cases hj : d.1 = n
      · have hnone : ds.find? (fun d' => d'.1 == n) = none := by
          rw [List.find?_eq_none]
          intro d' hd' hc
          have hc' : d'.1 = n := by simpa using hc
          exact hn.1 (List.mem_map.mpr ⟨d', hd', hc'.trans hj.symm⟩)
        rw [hnone]
        subst hj
        simp
      · have hj' : (d.1 == n) = false := by simpa using hj
        have hj2 : ¬ n = d.1 := fun e => hj e.symm
        simp only [List.find?_cons, hj', hj2, if_false]

/-- The names a change writes are distinct, and it writes at least one register. -/
structure Change.Sound (c : Change) : Prop where
  vecs  : (c.vecs.map (fun d => d.1)).Nodup
  scals : (c.scals.map (fun d => d.1)).Nodup
  preds : (c.preds.map (fun d => d.1)).Nodup
  flags : (c.flags.map (fun d => d.1)).Nodup
  some  : c.vecs ≠ [] ∨ c.scals ≠ [] ∨ c.preds ≠ [] ∨ c.flags ≠ []

/-- The operations of a change, made, lead where the change says. -/
theorem Change.leads_does (s : State) (c : Change) (h : Change.Sound c) (hc : c.count = 0) : Change.Leads c s (State.does s c) := by
  obtain ⟨a1, a2, a3, a4⟩ := reads_fold c.reads s
  generalize hs1 : c.reads.foldl (fun t r => State.lastRead t r.1 r.2) s = s1 at *
  obtain ⟨b1, b2, b3, b4, b5⟩ := vecs_fold c.vecs s1 h.vecs
  generalize hs2 : c.vecs.foldl (fun t d => State.writeV t d.1 d.2.1 d.2.2) s1 = s2 at *
  obtain ⟨c1, c2, c3, c4, c5⟩ := scals_fold c.scals s2 h.scals
  generalize hs3 : c.scals.foldl (fun t d => State.setSc t d.1 d.2) s2 = s3 at *
  obtain ⟨d1, d2, d3, d4, d5⟩ := preds_fold c.preds s3 h.preds
  generalize hs4 : c.preds.foldl (fun t d => State.setPred t d.1 (fun l => (d.2 l).1) (fun l => (d.2 l).2)) s3 = s4 at *
  obtain ⟨e1, e2, e3, e4, e5⟩ := flags_fold c.flags s4 h.flags
  generalize hs5 : c.flags.foldl (fun t d => State.setFlag t d.1 d.2.v d.2.p) s4 = s5 at *
  have key : State.does s c = s5 := by
    rw [← hs5, ← hs4, ← hs3, ← hs2, ← hs1]
    rfl
  rw [key]
  have h12 : Regs s s2 := a1.trans b1
  have h13 : Regs s s3 := h12.trans c1
  have h14 : Regs s s4 := h13.trans d1
  have h15 : Regs s s5 := h14.trans e1
  have hW : RegsW s s5 := by
    by_cases hf : c.flags = []
    · rw [hf] at hs5
      simp only [List.foldl_nil] at hs5
      rw [← hs5]
      by_cases hp : c.preds = []
      · rw [hp] at hs4
        simp only [List.foldl_nil] at hs4
        rw [← hs4]
        by_cases hz : c.scals = []
        · rw [hz] at hs3
          simp only [List.foldl_nil] at hs3
          rw [← hs3]
          refine a1.transW (b2 ?_)
          rcases h.some with x | x | x | x
          · exact x
          · exact absurd hz x
          · exact absurd hp x
          · exact absurd hf x
        · exact h12.transW (c2 hz)
      · exact h13.transW (d2 hp)
    · exact h14.transW (e2 hf)
  obtain ⟨c41, c42, c43, c44, c45⟩ := c4
  obtain ⟨d41, d42, d43, d44, d45⟩ := d4
  obtain ⟨e41, e42, e43, e44, e45⟩ := e4
  have hctx1 : s1.ctx = s.ctx := a2
  have hlan3 : s3.ctx.lanes = s.ctx.lanes := h13.lanes
  refine ⟨?_, ?_, ?_, ?_, ?_, ?_, hW.onlyRegs, ?_⟩
  · intro id l hl
    rw [Wave.elemOf_congr e41 e42, Wave.elemOf_congr d41 d42, Wave.elemOf_congr c41 c42, b5 id l hl, a4 id l hl]
    unfold Change.vec
    simp only [a1.vidOf, hctx1]
    cases s.ctx.lanes.getLsbD l
    · simp
    · try simp only [if_true, Bool.true_and]
      try rfl
  · intro n
    have h1 : Wave.sc (State.cur s5) n = Wave.sc (State.cur s3) n := by unfold Wave.sc; rw [e43, d43]
    have h2 : Wave.sc (State.cur s2) n = Wave.sc (State.cur s) n := by unfold Wave.sc; rw [b4.1, a3.1]
    rw [h1, c5 n, h2]
    rfl
  · intro k l hl
    have hp4 : Wave.pred (State.cur s5) k = Wave.pred (State.cur s4) k := by unfold Wave.pred; rw [e44]
    have hp2 : Wave.pred (State.cur s3) k = Wave.pred (State.cur s) k := by unfold Wave.pred; rw [c43, b4.2.1, a3.2.1]
    rw [hp4, d5 k l hl, hp2, hlan3]
    rfl
  · intro q
    have h1 : Wave.flagOf (State.cur s4) q = Wave.flagOf (State.cur s) q := by
      unfold Wave.flagOf; rw [d44, c44, b4.2.2.1, a3.2.2.1]
    rw [e5 q, h1]
    rfl
  · rw [e45, d45, c45, b4.2.2.2, a3.2.2.2, hc]
    simp
  · have : s5.ctx = s2.ctx := by rw [e3, d3, c3]
    rw [this, b3, hctx1]
    simp only [a1.vidOf]
  · intro a; rw [h15.mem]

/-- The stochastic count moves on beside a change (R69). -/
theorem Change.leads_bump {c : Change} {s t : State} (h : Change.Leads c s t) (hc : c.count = 0) (rm k : Nat) :
    Change.Leads { c with count := if rm == 4 then k else 0 } s (State.bumpCount t rm k) := by
  unfold State.bumpCount
  cases hr : rm == 4
  · have e : ({ c with count := 0 } : Change) = c := by rw [← hc]
    simp only [Bool.false_eq_true, if_false]
    rw [e]
    exact h
  · simp only [if_true]
    generalize hf : (fun w : Wave => { w with scount := w.scount + BitVec.ofNat 32 k }) = f
    have hcur : State.cur (State.mapWave t f) = f (State.cur t) := State.cur_mapWave _ _
    have hwave : t.ctx.wave = s.ctx.wave := by rw [h.rest]; rfl
    refine ⟨?_, ?_, ?_, ?_, ?_, h.written, ?_, h.mem⟩
    · intro id l hl
      rw [hcur, ← hf]
      exact h.vec id l hl
    · intro n; rw [hcur, ← hf]; exact h.sc n
    · intro j l hl; rw [hcur, ← hf]; exact h.pred j l hl
    · intro q; rw [hcur, ← hf]; exact h.flag q
    · rw [hcur, ← hf]
      show (State.cur t).scount + _ = _
      rw [h.count, hc]
      simp
    · have hr := h.rest
      unfold OnlyRegs at hr ⊢
      have hd : t.dev = Device.setWave s.dev s.ctx.wave (Wave.withRegs (State.cur s) (State.cur t)) := by
        conv_lhs => rw [hr]
        rfl
      have hcw : State.cur t = Wave.withRegs (State.cur s) (State.cur t) := by
        conv_lhs => rw [State.cur, hwave, hd, Device.wave_setWave]
      have hfw : ∀ a b : Wave, f (Wave.withRegs a b) = Wave.withRegs a (f b) := by intro a b; rw [← hf]; rfl
      have hm : (State.mapWave t f).dev = Device.setWave s.dev s.ctx.wave (Wave.withRegs (State.cur s) (f (State.cur t))) := by
        show Device.setWave t.dev t.ctx.wave (f (State.cur t)) = _
        rw [hwave, ← hfw, ← hcw, hd]
        simp
      have hst : State.mapWave t f = State.withDev t (State.mapWave t f).dev t.ctx.written := rfl
      have hst2 : ∀ d, State.withDev t d t.ctx.written = State.withDev s d t.ctx.written := by
        intro d
        conv_lhs => rw [hr]
        rfl
      rw [hcur, hst, hst2, hm]
      rfl

end Sys2Proof.Machine
end

