-- ==== Sys2Proof/Laws/Acts.lean ====
section
/-! SUPPORT. A change of registers beside other changes of the machine. -/

namespace Sys2Proof.Machine

/-- Two states whose chains and current registers are alike. -/
structure Alike (a b : State) : Prop where
  ctx   : b.ctx = a.ctx
  vfix  : (State.cur b).vfix = (State.cur a).vfix
  win   : (State.cur b).win = (State.cur a).win
  scal  : (State.cur b).scal = (State.cur a).scal
  preds : (State.cur b).preds = (State.cur a).preds
  flags : (State.cur b).flags = (State.cur a).flags
  count : (State.cur b).scount = (State.cur a).scount
  hand  : (State.cur b).handler = (State.cur a).handler
  wlim  : (State.cur b).wlim = (State.cur a).wlim

theorem Alike.elemOf {a b : State} (h : Alike a b) (id : RegId) (l : Nat) :
    Wave.elemOf (State.cur b) id l = Wave.elemOf (State.cur a) id l := Wave.elemOf_congr h.vfix h.win id l

theorem Alike.sc {a b : State} (h : Alike a b) (n : Nat) : Wave.sc (State.cur b) n = Wave.sc (State.cur a) n := by
  unfold Wave.sc; rw [h.scal]

theorem Alike.pred {a b : State} (h : Alike a b) (k : Nat) : Wave.pred (State.cur b) k = Wave.pred (State.cur a) k := by
  unfold Wave.pred; rw [h.preds]

theorem Alike.flagOf {a b : State} (h : Alike a b) (q : Nat) : Wave.flagOf (State.cur b) q = Wave.flagOf (State.cur a) q := by
  unfold Wave.flagOf; rw [h.flags]

theorem Alike.vidOf {a b : State} (h : Alike a b) (n : Nat) : State.vidOf b n = State.vidOf a n := by
  unfold State.vidOf Wave.vid; rw [h.hand, h.wlim, h.ctx]

/-- A change seen from a state is the same change seen from a like one. -/
theorem Change.Leads.transfer {c : Change} {s t s' t' : State} (h : Change.Leads c s t) (hs : Alike s s') (ht : Alike t t')
    (hr : OnlyRegs s' t') (hm : SameMemory s' t') : Change.Leads c s' t' := by
  refine ⟨?_, ?_, ?_, ?_, ?_, ?_, hr, hm⟩
  · intro id l hl
    rw [ht.elemOf, h.vec id l hl]
    unfold Change.vec
    simp only [hs.vidOf, hs.elemOf, hs.ctx]
  · intro n
    rw [ht.sc, h.sc n]
    unfold Change.sc
    simp only [hs.sc]
  · intro k l hl
    rw [ht.pred, h.pred k l hl]
    unfold Change.pred
    simp only [hs.pred, hs.ctx]
  · intro q
    rw [ht.flagOf, h.flag q]
    unfold Change.flag
    simp only [hs.flagOf]
  · rw [ht.count, h.count, hs.count]
  · rw [ht.ctx, h.written, hs.ctx]
    simp only [hs.vidOf]

/-- Counting an operation leaves the registers. -/
theorem doneOp_alike (s : State) (cls : Nat) : Alike s (State.doneOp s cls) := by
  have h : State.cur (State.doneOp s cls) = Wave.addOut (State.cur s) ⟨State.newId s, cls, true, [], []⟩ := State.cur_mapWave _ _
  constructor
  · rfl
  all_goals rw [h]; rfl

/-- What `OnlyRegs` says, part by part. -/
theorem OnlyRegs.parts {s t : State} (h : OnlyRegs s t) :
    t.dev = Device.setWave s.dev s.ctx.wave (Wave.withRegs (State.cur s) (State.cur t)) ∧ t.pre = s.pre ∧ t.base = s.base
    ∧ t.ctx = { s.ctx with written := t.ctx.written } ∧ t.agenda = s.agenda ∧ t.focus = s.focus := by
  unfold OnlyRegs at h
  generalize (State.cur t) = w at h
  generalize t.ctx.written = v at h
  subst h
  exact ⟨rfl, rfl, rfl, rfl, rfl, rfl⟩

/-- And back. -/
theorem OnlyRegs.of_parts {s t : State}
    (hd : t.dev = Device.setWave s.dev s.ctx.wave (Wave.withRegs (State.cur s) (State.cur t))) (hp : t.pre = s.pre) (hb : t.base = s.base)
    (hc : t.ctx = { s.ctx with written := t.ctx.written }) (ha : t.agenda = s.agenda) (hf : t.focus = s.focus) : OnlyRegs s t := by
  unfold OnlyRegs
  rw [← hd]
  cases t
  simp only at hp hb hc ha hf ⊢
  subst hp hb ha hf
  rw [hc]
  rfl

/-- Under `OnlyRegs` the wave has the new registers and is else the old one. -/
theorem OnlyRegs.cur {s t : State} (h : OnlyRegs s t) : State.cur t = Wave.withRegs (State.cur s) (State.cur t) := by
  obtain ⟨hd, -, -, hc, -, -⟩ := h.parts
  have hw : t.ctx.wave = s.ctx.wave := by rw [hc]
  conv_lhs => rw [State.cur, hw, hd, Device.wave_setWave]

/-- A change of the wave beside its registers, made after a change of registers, or before it. -/
theorem OnlyRegs.mapBoth {s t : State} (h : OnlyRegs s t) (f : Wave → Wave) (hf : ∀ a b, f (Wave.withRegs a b) = Wave.withRegs (f a) (f b)) (u : Nat) :
    OnlyRegs { State.mapWave s f with dev.uid := u } { State.mapWave t f with dev.uid := u } := by
  obtain ⟨hd, hp, hb, hc, ha, hfo⟩ := h.parts
  have hw : t.ctx.wave = s.ctx.wave := by rw [hc]
  have hcw := h.cur
  have c1 : State.cur { State.mapWave s f with dev.uid := u } = f (State.cur s) := State.cur_mapWave _ _
  have c2 : State.cur { State.mapWave t f with dev.uid := u } = f (State.cur t) := State.cur_mapWave _ _
  refine OnlyRegs.of_parts ?_ hp hb hc ha hfo
  rw [c1, c2]
  have ht : State.mapWave t f = { t with dev := Device.setWave t.dev t.ctx.wave (f (State.cur t)) } := rfl
  have hs : State.mapWave s f = { s with dev := Device.setWave s.dev s.ctx.wave (f (State.cur s)) } := rfl
  rw [ht, hs]
  simp only
  rw [hw, hd, ← hf, ← hcw]
  simp only [Device.setWave, Tbl.put_put]

/-- An operation counted beside a change of registers. -/
theorem Change.Leads.doneOp {c : Change} {s t : State} (h : Change.Leads c s t) (cls : Nat) :
    Change.Leads c (State.doneOp s cls) (State.doneOp t cls) := by
  refine h.transfer (doneOp_alike s cls) (doneOp_alike t cls) ?_ (fun a => h.mem a)
  have hu : t.dev.uid = s.dev.uid := by rw [h.rest.parts.1]; rfl
  have := h.rest.mapBoth (fun w => Wave.addOut w ⟨s.dev.uid, cls, true, [], []⟩) (fun _ _ => rfl) (s.dev.uid + 1)
  have e : State.doneOp t cls = { State.mapWave t (fun w => Wave.addOut w ⟨s.dev.uid, cls, true, [], []⟩) with dev.uid := s.dev.uid + 1 } := by
    rw [← hu]; rfl
  rw [e]
  exact this

end Sys2Proof.Machine
end

