-- ==== Sys2Proof/Laws/PerInstr.lean ====
section
/-! SUPPORT. Statements made of every instruction as syntax: the family Coded. -/

namespace Sys2Proof.Laws

/-- The encoding of an instruction fits its 32 bits (R19). -/
def Coded.Statement (i : Instr) : Prop := ∀ n, encodeNat i = some n → n < 2 ^ 32

theorem Coded.of_some {i : Instr} {k m b : Nat} (hb : b ≤ m) (h : encodeNat i = some (k + b)) (hk : k + m < 2 ^ 32) : Coded.Statement i := by
  intro n hn
  rw [h] at hn
  have : k + b = n := Option.some.inj hn
  omega

theorem BF.bits_le (o : BF) : BF.bits o ≤ 0x81FFFFFF := by
  have h0 := o.c.isLt
  have h1 := o.p.isLt
  have h2 := o.n.isLt
  have h3 := o.off.isLt
  unfold BF.bits
  omega

theorem BC.bits_le (o : BC) : BC.bits o ≤ 0x81FFFFFF := by
  have h0 := o.c.isLt
  have h1 := o.sl.isLt
  have h2 := o.off.isLt
  unfold BC.bits
  omega

theorem C0.bits_le (o : C0) : C0.bits o ≤ 0x80000000 := by
  have h0 := o.c.isLt
  unfold C0.bits
  omega

theorem CCallS.bits_le (o : CCallS) : CCallS.bits o ≤ 0x8007F8E0 := by
  have h0 := o.c.isLt
  have h1 := o.s.isLt
  have h2 := o.sl.isLt
  unfold CCallS.bits
  omega

theorem CCallV.bits_le (o : CCallV) : CCallV.bits o ≤ 0x81F800E0 := by
  have h0 := o.c.isLt
  have h1 := o.v.isLt
  have h2 := o.sl.isLt
  unfold CCallV.bits
  omega

theorem CS.bits_le (o : CS) : CS.bits o ≤ 0x8007F800 := by
  have h0 := o.c.isLt
  have h1 := o.s.isLt
  unfold CS.bits
  omega

theorem CV.bits_le (o : CV) : CV.bits o ≤ 0x81F80000 := by
  have h0 := o.c.isLt
  have h1 := o.v.isLt
  unfold CV.bits
  omega

theorem CSP.bits_le (o : CSP) : CSP.bits o ≤ 0x8007F8E0 := by
  have h0 := o.c.isLt
  have h1 := o.s.isLt
  have h2 := o.p.isLt
  unfold CSP.bits
  omega

theorem VR.bits_le (o : VR) : VR.bits o ≤ 0x81FFFFE0 := by
  have h0 := o.c.isLt
  have h1 := o.d.isLt
  have h2 := o.a.isLt
  have h3 := o.b.isLt
  have h4 := o.la.isLt
  have h5 := o.lb.isLt
  unfold VR.bits
  omega

theorem VU.bits_le (o : VU) : VU.bits o ≤ 0x81FFE040 := by
  have h0 := o.c.isLt
  have h1 := o.d.isLt
  have h2 := o.a.isLt
  have h3 := o.la.isLt
  unfold VU.bits
  omega

theorem CRed.bits_le (o : CRed) : CRed.bits o ≤ 0x81FFF820 := by
  have h0 := o.c.isLt
  have h1 := o.a.isLt
  have h2 := o.s.isLt
  have h3 := o.la.isLt
  unfold CRed.bits
  omega

theorem CMov.bits_le (o : CMov) : CMov.bits o ≤ 0x81F80FE0 := by
  have h0 := o.c.isLt
  have h1 := o.d.isLt
  have h2 := o.la.isLt
  have h3 := o.a.isLt
  unfold CMov.bits
  omega

theorem CVS.bits_le (o : CVS) : CVS.bits o ≤ 0x81FFF800 := by
  have h0 := o.c.isLt
  have h1 := o.d.isLt
  have h2 := o.s.isLt
  unfold CVS.bits
  omega

theorem CVSK.bits_le (o : CVSK) : CVSK.bits o ≤ 0x81FFFFE0 := by
  have h0 := o.c.isLt
  have h1 := o.v.isLt
  have h2 := o.s.isLt
  have h3 := o.k.isLt
  unfold CVSK.bits
  omega

theorem CVK.bits_le (o : CVK) : CVK.bits o ≤ 0x81F807E0 := by
  have h0 := o.c.isLt
  have h1 := o.d.isLt
  have h2 := o.k.isLt
  unfold CVK.bits
  omega

theorem CVP.bits_le (o : CVP) : CVP.bits o ≤ 0x81F800E0 := by
  have h0 := o.c.isLt
  have h1 := o.v.isLt
  have h2 := o.p.isLt
  unfold CVP.bits
  omega

theorem CPmov.bits_le (o : CPmov) : CPmov.bits o ≤ 0x81F808E0 := by
  have h0 := o.c.isLt
  have h1 := o.a.isLt
  have h2 := o.la.isLt
  have h3 := o.p.isLt
  unfold CPmov.bits
  omega

theorem P3.bits_le (o : P3) : P3.bits o ≤ 0x81FF0000 := by
  have h0 := o.c.isLt
  have h1 := o.d.isLt
  have h2 := o.a.isLt
  have h3 := o.b.isLt
  unfold P3.bits
  omega

theorem P2.bits_le (o : P2) : P2.bits o ≤ 0x81F80000 := by
  have h0 := o.c.isLt
  have h1 := o.d.isLt
  have h2 := o.a.isLt
  unfold P2.bits
  omega

theorem P1.bits_le (o : P1) : P1.bits o ≤ 0x81C00000 := by
  have h0 := o.c.isLt
  have h1 := o.d.isLt
  unfold P1.bits
  omega

theorem VS.bits_le (o : VS) : VS.bits o ≤ 0x81FFFFC0 := by
  have h0 := o.c.isLt
  have h1 := o.d.isLt
  have h2 := o.a.isLt
  have h3 := o.b.isLt
  have h4 := o.la.isLt
  unfold VS.bits
  omega

theorem VP.bits_le (o : VP) : VP.bits o ≤ 0x81FFFFFF := by
  have h0 := o.c.isLt
  have h1 := o.pd.isLt
  have h2 := o.cond.isLt
  have h3 := o.a.isLt
  have h4 := o.b.isLt
  have h5 := o.la.isLt
  have h6 := o.lb.isLt
  have h7 := o.ty.isLt
  unfold VP.bits
  omega

theorem VPS.bits_le (o : VPS) : VPS.bits o ≤ 0x81FFFFDF := by
  have h0 := o.c.isLt
  have h1 := o.pd.isLt
  have h2 := o.cond.isLt
  have h3 := o.a.isLt
  have h4 := o.b.isLt
  have h5 := o.la.isLt
  have h6 := o.ty.isLt
  unfold VPS.bits
  omega

theorem VSel.bits_le (o : VSel) : VSel.bits o ≤ 0x81FFFFFE := by
  have h0 := o.c.isLt
  have h1 := o.d.isLt
  have h2 := o.a.isLt
  have h3 := o.b.isLt
  have h4 := o.la.isLt
  have h5 := o.lb.isLt
  have h6 := o.p.isLt
  have h7 := o.n.isLt
  unfold VSel.bits
  omega

theorem VX.bits_le (o : VX) : VX.bits o ≤ 0x81FFFFFF := by
  have h0 := o.c.isLt
  have h1 := o.d.isLt
  have h2 := o.a.isLt
  have h3 := o.dt.isLt
  have h4 := o.st.isLt
  have h5 := o.rm.isLt
  have h6 := o.sat.isLt
  have h7 := o.la.isLt
  unfold VX.bits
  omega

theorem VRnd.bits_le (o : VRnd) : VRnd.bits o ≤ 0x81FFE01F := by
  have h0 := o.c.isLt
  have h1 := o.d.isLt
  have h2 := o.a.isLt
  have h3 := o.rm.isLt
  have h4 := o.sat.isLt
  have h5 := o.la.isLt
  unfold VRnd.bits
  omega

theorem SR.bits_le (o : SR) : SR.bits o ≤ 0x81FFFFF8 := by
  have h0 := o.c.isLt
  have h1 := o.d.isLt
  have h2 := o.a.isLt
  have h3 := o.b.isLt
  unfold SR.bits
  omega

theorem SC.bits_le (o : SC) : SC.bits o ≤ 0x81FDFFF8 := by
  have h0 := o.c.isLt
  have h1 := o.q.isLt
  have h2 := o.cond.isLt
  have h3 := o.ty.isLt
  have h4 := o.a.isLt
  have h5 := o.b.isLt
  unfold SC.bits
  omega

theorem SB.bits_le (o : SB) : SB.bits o ≤ 0x81FFFFFF := by
  have h0 := o.c.isLt
  have h1 := o.q.isLt
  have h2 := o.n.isLt
  have h3 := o.off.isLt
  unfold SB.bits
  omega

theorem SXFs.bits_le (o : SXFs) : SXFs.bits o ≤ 0x81FFFE00 := by
  have h0 := o.c.isLt
  have h1 := o.s.isLt
  have h2 := o.r.isLt
  unfold SXFs.bits
  omega

theorem SXTs.bits_le (o : SXTs) : SXTs.bits o ≤ 0x81FFFE00 := by
  have h0 := o.c.isLt
  have h1 := o.r.isLt
  have h2 := o.s.isLt
  unfold SXTs.bits
  omega

theorem E1.bits_le (o : E1) : E1.bits o ≤ 0x81FE0000 := by
  have h0 := o.c.isLt
  have h1 := o.s.isLt
  unfold E1.bits
  omega

theorem SXN.bits_le (o : SXN) : SXN.bits o ≤ 0x81FE0000 := by
  have h0 := o.c.isLt
  have h1 := o.n.isLt
  unfold SXN.bits
  omega

theorem SXE.bits_le (o : SXE) : SXE.bits o ≤ 0x800001E0 := by
  have h0 := o.c.isLt
  have h1 := o.e.isLt
  unfold SXE.bits
  omega

theorem ML.bits_le (o : ML) : ML.bits o ≤ 0x81FFFFFF := by
  have h0 := o.c.isLt
  have h1 := o.x.isLt
  have h2 := o.a.isLt
  have h3 := o.b.isLt
  have h4 := o.sz.isLt
  have h5 := o.sx.isLt
  have h6 := o.la.isLt
  unfold ML.bits
  omega

theorem MS.bits_le (o : MS) : MS.bits o ≤ 0x81FFFFFD := by
  have h0 := o.c.isLt
  have h1 := o.x.isLt
  have h2 := o.a.isLt
  have h3 := o.b.isLt
  have h4 := o.sz.isLt
  have h5 := o.la.isLt
  unfold MS.bits
  omega

theorem MA.bits_le (o : MA) : MA.bits o ≤ 0x81FFFFFF := by
  have h0 := o.c.isLt
  have h1 := o.x.isLt
  have h2 := o.a.isLt
  have h3 := o.b.isLt
  have h4 := o.op.isLt
  have h5 := o.la.isLt
  unfold MA.bits
  omega

theorem MD.bits_le (o : MD) : MD.bits o ≤ 0x81FFFFE1 := by
  have h0 := o.c.isLt
  have h1 := o.x.isLt
  have h2 := o.a.isLt
  have h3 := o.b.isLt
  have h4 := o.la.isLt
  unfold MD.bits
  omega

theorem CK.bits_le (o : CK) : CK.bits o ≤ 0x800007E0 := by
  have h0 := o.c.isLt
  have h1 := o.k.isLt
  unfold CK.bits
  omega

theorem CWait.bits_le (o : CWait) : CWait.bits o ≤ 0x8001FFE0 := by
  have h0 := o.c.isLt
  have h1 := o.n.isLt
  have h2 := o.k.isLt
  unfold CWait.bits
  omega

theorem CPf.bits_le (o : CPf) : CPf.bits o ≤ 0x81FFF860 := by
  have h0 := o.c.isLt
  have h1 := o.v.isLt
  have h2 := o.s.isLt
  have h3 := o.l.isLt
  unfold CPf.bits
  omega

theorem CMwait.bits_le (o : CMwait) : CMwait.bits o ≤ 0x8007FBE0 := by
  have h0 := o.c.isLt
  have h1 := o.s.isLt
  have h2 := o.scope.isLt
  have h3 := o.cond.isLt
  unfold CMwait.bits
  omega

theorem CBmode.bits_le (o : CBmode) : CBmode.bits o ≤ 0x8007F860 := by
  have h0 := o.c.isLt
  have h1 := o.s.isLt
  have h2 := o.m.isLt
  unfold CBmode.bits
  omega

theorem CRing.bits_le (o : CRing) : CRing.bits o ≤ 0x8007FBE0 := by
  have h0 := o.c.isLt
  have h1 := o.s.isLt
  have h2 := o.r.isLt
  unfold CRing.bits
  omega

theorem CBarS.bits_le (o : CBarS) : CBarS.bits o ≤ 0x8007F9E0 := by
  have h0 := o.c.isLt
  have h1 := o.s.isLt
  have h2 := o.b.isLt
  unfold CBarS.bits
  omega

theorem CBar.bits_le (o : CBar) : CBar.bits o ≤ 0x800001E0 := by
  have h0 := o.c.isLt
  have h1 := o.b.isLt
  unfold CBar.bits
  omega

theorem CBarP.bits_le (o : CBarP) : CBarP.bits o ≤ 0x800003E0 := by
  have h0 := o.c.isLt
  have h1 := o.p.isLt
  have h2 := o.b.isLt
  unfold CBarP.bits
  omega

theorem CBarPS.bits_le (o : CBarPS) : CBarPS.bits o ≤ 0x8007FBE0 := by
  have h0 := o.c.isLt
  have h1 := o.s.isLt
  have h2 := o.p.isLt
  have h3 := o.b.isLt
  unfold CBarPS.bits
  omega

theorem CBart.bits_le (o : CBart) : CBart.bits o ≤ 0x80003BE0 := by
  have h0 := o.c.isLt
  have h1 := o.q.isLt
  have h2 := o.p.isLt
  have h3 := o.b.isLt
  unfold CBart.bits
  omega

theorem E3.bits_le (o : E3) : E3.bits o ≤ 0x81FFFFE0 := by
  have h0 := o.c.isLt
  have h1 := o.s.isLt
  have h2 := o.a.isLt
  have h3 := o.b.isLt
  unfold E3.bits
  omega

theorem EJ.bits_le (o : EJ) : EJ.bits o ≤ 0x81FE0020 := by
  have h0 := o.c.isLt
  have h1 := o.s.isLt
  have h2 := o.j.isLt
  unfold EJ.bits
  omega

theorem EMmul.bits_le (o : EMmul) : EMmul.bits o ≤ 0x81FE01E0 := by
  have h0 := o.c.isLt
  have h1 := o.s.isLt
  have h2 := o.z.isLt
  have h3 := o.j.isLt
  have h4 := o.n.isLt
  unfold EMmul.bits
  omega

theorem EMmulR.bits_le (o : EMmulR) : EMmulR.bits o ≤ 0x8001F9E0 := by
  have h0 := o.c.isLt
  have h1 := o.d.isLt
  have h2 := o.z.isLt
  have h3 := o.j.isLt
  have h4 := o.n.isLt
  unfold EMmulR.bits
  omega

theorem EDrainR.bits_le (o : EDrainR) : EDrainR.bits o ≤ 0x81FFFC60 := by
  have h0 := o.c.isLt
  have h1 := o.s.isLt
  have h2 := o.d.isLt
  have h3 := o.w.isLt
  have h4 := o.n.isLt
  unfold EDrainR.bits
  omega

theorem EDrain.bits_le (o : EDrain) : EDrain.bits o ≤ 0x81FE0460 := by
  have h0 := o.c.isLt
  have h1 := o.s.isLt
  have h2 := o.w.isLt
  have h3 := o.n.isLt
  unfold EDrain.bits
  omega

theorem EMask.bits_le (o : EMask) : EMask.bits o ≤ 0x800001E0 := by
  have h0 := o.c.isLt
  have h1 := o.m.isLt
  unfold EMask.bits
  omega

theorem E2.bits_le (o : E2) : E2.bits o ≤ 0x81FFF800 := by
  have h0 := o.c.isLt
  have h1 := o.s.isLt
  have h2 := o.p.isLt
  unfold E2.bits
  omega

theorem EV.bits_le (o : EV) : EV.bits o ≤ 0x8001F800 := by
  have h0 := o.c.isLt
  have h1 := o.d.isLt
  unfold EV.bits
  omega

theorem LitW.bits_le (o : LitW) : LitW.bits o ≤ 0x81FFFFFF := by
  have h0 := o.c.isLt
  have h1 := o.payload.isLt
  unfold LitW.bits
  omega

theorem UAK.bits_le (o : UAK) : UAK.bits o ≤ 0x780003 := by
  have h0 := o.a.isLt
  have h1 := o.k.isLt
  unfold UAK.bits
  omega

theorem UDAF.bits_le (o : UDAF) : UDAF.bits o ≤ 0x7F8000F := by
  have h0 := o.d.isLt
  have h1 := o.a.isLt
  have h2 := o.f.isLt
  unfold UDAF.bits
  omega

theorem UDA.bits_le (o : UDA) : UDA.bits o ≤ 0x7F80000 := by
  have h0 := o.d.isLt
  have h1 := o.a.isLt
  unfold UDA.bits
  omega

theorem USel.bits_le (o : USel) : USel.bits o ≤ 0x7FFFFFF := by
  have h0 := o.d.isLt
  have h1 := o.a.isLt
  have h2 := o.b.isLt
  have h3 := o.m.isLt
  have h4 := o.v.isLt
  unfold USel.bits
  omega

theorem UA.bits_le (o : UA) : UA.bits o ≤ 0x780000 := by
  have h0 := o.a.isLt
  unfold UA.bits
  omega

theorem UD.bits_le (o : UD) : UD.bits o ≤ 0x7800000 := by
  have h0 := o.d.isLt
  unfold UD.bits
  omega

theorem UBr.bits_le (o : UBr) : UBr.bits o ≤ 0x7FF8FFF := by
  have h0 := o.d.isLt
  have h1 := o.a.isLt
  have h2 := o.b.isLt
  have h3 := o.t.isLt
  unfold UBr.bits
  omega

theorem ULoop.bits_le (o : ULoop) : ULoop.bits o ≤ 0x780FFF := by
  have h0 := o.a.isLt
  have h1 := o.t.isLt
  unfold ULoop.bits
  omega

theorem USetb.bits_le (o : USetb) : USetb.bits o ≤ 0x78000F := by
  have h0 := o.a.isLt
  have h1 := o.k.isLt
  have h2 := o.m.isLt
  unfold USetb.bits
  omega

theorem UStb.bits_le (o : UStb) : UStb.bits o ≤ 0x780001 := by
  have h0 := o.a.isLt
  have h1 := o.m.isLt
  unfold UStb.bits
  omega

theorem UYield.bits_le (o : UYield) : UYield.bits o ≤ 0xFF := by
  have h0 := o.r.isLt
  unfold UYield.bits
  omega

theorem Coded.bra (a0 : BF) : Coded.Statement (.bra a0) := Coded.of_some (BF.bits_le a0) rfl (by decide)
theorem Coded.call (a0 : BC) : Coded.Statement (.call a0) := Coded.of_some (BC.bits_le a0) rfl (by decide)
theorem Coded.ret (a0 : C0) : Coded.Statement (.ret a0) := Coded.of_some (C0.bits_le a0) rfl (by decide)
theorem Coded.calliS (a0 : CCallS) : Coded.Statement (.calliS a0) := Coded.of_some (CCallS.bits_le a0) rfl (by decide)
theorem Coded.calliV (a0 : CCallV) : Coded.Statement (.calliV a0) := Coded.of_some (CCallV.bits_le a0) rfl (by decide)
theorem Coded.jmpS (a0 : CS) : Coded.Statement (.jmpS a0) := Coded.of_some (CS.bits_le a0) rfl (by decide)
theorem Coded.jmpV (a0 : CV) : Coded.Statement (.jmpV a0) := Coded.of_some (CV.bits_le a0) rfl (by decide)
theorem Coded.exitW (a0 : C0) : Coded.Statement (.exitW a0) := Coded.of_some (C0.bits_le a0) rfl (by decide)
theorem Coded.exitS (a0 : CS) : Coded.Statement (.exitS a0) := Coded.of_some (CS.bits_le a0) rfl (by decide)
theorem Coded.yield (a0 : C0) : Coded.Statement (.yield a0) := Coded.of_some (C0.bits_le a0) rfl (by decide)
theorem Coded.elect (a0 : CSP) : Coded.Statement (.elect a0) := Coded.of_some (CSP.bits_le a0) rfl (by decide)
theorem Coded.sync (a0 : C0) : Coded.Statement (.sync a0) := Coded.of_some (C0.bits_le a0) rfl (by decide)
theorem Coded.syncm (a0 : CS) : Coded.Statement (.syncm a0) := Coded.of_some (CS.bits_le a0) rfl (by decide)
theorem Coded.nop (a0 : C0) : Coded.Statement (.nop a0) := Coded.of_some (C0.bits_le a0) rfl (by decide)
theorem Coded.wflush (a0 : C0) : Coded.Statement (.wflush a0) := Coded.of_some (C0.bits_le a0) rfl (by decide)
theorem Coded.quota (a0 : CS) : Coded.Statement (.quota a0) := Coded.of_some (CS.bits_le a0) rfl (by decide)
theorem Coded.shfl (a0 : VR) : Coded.Statement (.shfl a0) := Coded.of_some (VR.bits_le a0) rfl (by decide)
theorem Coded.shflx (a0 : VR) : Coded.Statement (.shflx a0) := Coded.of_some (VR.bits_le a0) rfl (by decide)
theorem Coded.shflup (a0 : VR) : Coded.Statement (.shflup a0) := Coded.of_some (VR.bits_le a0) rfl (by decide)
theorem Coded.shfldn (a0 : VR) : Coded.Statement (.shfldn a0) := Coded.of_some (VR.bits_le a0) rfl (by decide)
theorem Coded.qswapH (a0 : VU) : Coded.Statement (.qswapH a0) := Coded.of_some (VU.bits_le a0) rfl (by decide)
theorem Coded.qswapV (a0 : VU) : Coded.Statement (.qswapV a0) := Coded.of_some (VU.bits_le a0) rfl (by decide)
theorem Coded.qswapD (a0 : VU) : Coded.Statement (.qswapD a0) := Coded.of_some (VU.bits_le a0) rfl (by decide)
theorem Coded.qbcast (a0 : VR) : Coded.Statement (.qbcast a0) := Coded.of_some (VR.bits_le a0) rfl (by decide)
theorem Coded.scanAddI32 (a0 : VU) : Coded.Statement (.scanAddI32 a0) := Coded.of_some (VU.bits_le a0) rfl (by decide)
theorem Coded.scanAddF32 (a0 : VU) : Coded.Statement (.scanAddF32 a0) := Coded.of_some (VU.bits_le a0) rfl (by decide)
theorem Coded.scanMaxI32 (a0 : VU) : Coded.Statement (.scanMaxI32 a0) := Coded.of_some (VU.bits_le a0) rfl (by decide)
theorem Coded.scanMinI32 (a0 : VU) : Coded.Statement (.scanMinI32 a0) := Coded.of_some (VU.bits_le a0) rfl (by decide)
theorem Coded.xscanAddI32 (a0 : VU) : Coded.Statement (.xscanAddI32 a0) := Coded.of_some (VU.bits_le a0) rfl (by decide)
theorem Coded.voteAny (a0 : CSP) : Coded.Statement (.voteAny a0) := Coded.of_some (CSP.bits_le a0) rfl (by decide)
theorem Coded.voteAll (a0 : CSP) : Coded.Statement (.voteAll a0) := Coded.of_some (CSP.bits_le a0) rfl (by decide)
theorem Coded.ballot (a0 : CSP) : Coded.Statement (.ballot a0) := Coded.of_some (CSP.bits_le a0) rfl (by decide)
theorem Coded.redwAddI32 (a0 : CRed) : Coded.Statement (.redwAddI32 a0) := Coded.of_some (CRed.bits_le a0) rfl (by decide)
theorem Coded.redwMinI32 (a0 : CRed) : Coded.Statement (.redwMinI32 a0) := Coded.of_some (CRed.bits_le a0) rfl (by decide)
theorem Coded.redwMaxI32 (a0 : CRed) : Coded.Statement (.redwMaxI32 a0) := Coded.of_some (CRed.bits_le a0) rfl (by decide)
theorem Coded.redwMinN32 (a0 : CRed) : Coded.Statement (.redwMinN32 a0) := Coded.of_some (CRed.bits_le a0) rfl (by decide)
theorem Coded.redwMaxN32 (a0 : CRed) : Coded.Statement (.redwMaxN32 a0) := Coded.of_some (CRed.bits_le a0) rfl (by decide)
theorem Coded.redwAnd (a0 : CRed) : Coded.Statement (.redwAnd a0) := Coded.of_some (CRed.bits_le a0) rfl (by decide)
theorem Coded.redwOr (a0 : CRed) : Coded.Statement (.redwOr a0) := Coded.of_some (CRed.bits_le a0) rfl (by decide)
theorem Coded.redwXor (a0 : CRed) : Coded.Statement (.redwXor a0) := Coded.of_some (CRed.bits_le a0) rfl (by decide)
theorem Coded.redwAddF32 (a0 : CRed) : Coded.Statement (.redwAddF32 a0) := Coded.of_some (CRed.bits_le a0) rfl (by decide)
theorem Coded.redwMinF32 (a0 : CRed) : Coded.Statement (.redwMinF32 a0) := Coded.of_some (CRed.bits_le a0) rfl (by decide)
theorem Coded.redwMaxF32 (a0 : CRed) : Coded.Statement (.redwMaxF32 a0) := Coded.of_some (CRed.bits_le a0) rfl (by decide)
theorem Coded.mov (a0 : CMov) : Coded.Statement (.mov a0) := Coded.of_some (CMov.bits_le a0) rfl (by decide)
theorem Coded.movs (a0 : CVS) : Coded.Statement (.movs a0) := Coded.of_some (CVS.bits_le a0) rfl (by decide)
theorem Coded.rdl (a0 : CVSK) : Coded.Statement (.rdl a0) := Coded.of_some (CVSK.bits_le a0) rfl (by decide)
theorem Coded.wrl (a0 : CVSK) : Coded.Statement (.wrl a0) := Coded.of_some (CVSK.bits_le a0) rfl (by decide)
theorem Coded.lid (a0 : CVK) : Coded.Statement (.lid a0) := Coded.of_some (CVK.bits_le a0) rfl (by decide)
theorem Coded.movp (a0 : CVP) : Coded.Statement (.movp a0) := Coded.of_some (CVP.bits_le a0) rfl (by decide)
theorem Coded.pmov (a0 : CPmov) : Coded.Statement (.pmov a0) := Coded.of_some (CPmov.bits_le a0) rfl (by decide)
theorem Coded.movi (a0 : CV) : Coded.Statement (.movi a0) := Coded.of_some (CV.bits_le a0) rfl (by decide)
theorem Coded.pand (a0 : P3) : Coded.Statement (.pand a0) := Coded.of_some (P3.bits_le a0) rfl (by decide)
theorem Coded.por (a0 : P3) : Coded.Statement (.por a0) := Coded.of_some (P3.bits_le a0) rfl (by decide)
theorem Coded.pxor (a0 : P3) : Coded.Statement (.pxor a0) := Coded.of_some (P3.bits_le a0) rfl (by decide)
theorem Coded.pandn (a0 : P3) : Coded.Statement (.pandn a0) := Coded.of_some (P3.bits_le a0) rfl (by decide)
theorem Coded.pnot (a0 : P2) : Coded.Statement (.pnot a0) := Coded.of_some (P2.bits_le a0) rfl (by decide)
theorem Coded.pset (a0 : P1) : Coded.Statement (.pset a0) := Coded.of_some (P1.bits_le a0) rfl (by decide)
theorem Coded.pclr (a0 : P1) : Coded.Statement (.pclr a0) := Coded.of_some (P1.bits_le a0) rfl (by decide)
theorem Coded.addI32 (a0 : VR) : Coded.Statement (.addI32 a0) := Coded.of_some (VR.bits_le a0) rfl (by decide)
theorem Coded.addI32S (a0 : VS) : Coded.Statement (.addI32S a0) := Coded.of_some (VS.bits_le a0) rfl (by decide)
theorem Coded.subI32 (a0 : VR) : Coded.Statement (.subI32 a0) := Coded.of_some (VR.bits_le a0) rfl (by decide)
theorem Coded.subI32S (a0 : VS) : Coded.Statement (.subI32S a0) := Coded.of_some (VS.bits_le a0) rfl (by decide)
theorem Coded.mulI32 (a0 : VR) : Coded.Statement (.mulI32 a0) := Coded.of_some (VR.bits_le a0) rfl (by decide)
theorem Coded.mulI32S (a0 : VS) : Coded.Statement (.mulI32S a0) := Coded.of_some (VS.bits_le a0) rfl (by decide)
theorem Coded.mulhI32 (a0 : VR) : Coded.Statement (.mulhI32 a0) := Coded.of_some (VR.bits_le a0) rfl (by decide)
theorem Coded.mulhI32S (a0 : VS) : Coded.Statement (.mulhI32S a0) := Coded.of_some (VS.bits_le a0) rfl (by decide)
theorem Coded.mulhN32 (a0 : VR) : Coded.Statement (.mulhN32 a0) := Coded.of_some (VR.bits_le a0) rfl (by decide)
theorem Coded.mulhN32S (a0 : VS) : Coded.Statement (.mulhN32S a0) := Coded.of_some (VS.bits_le a0) rfl (by decide)
theorem Coded.mulwI32 (a0 : VR) : Coded.Statement (.mulwI32 a0) := Coded.of_some (VR.bits_le a0) rfl (by decide)
theorem Coded.mulwI32S (a0 : VS) : Coded.Statement (.mulwI32S a0) := Coded.of_some (VS.bits_le a0) rfl (by decide)
theorem Coded.mulwN32 (a0 : VR) : Coded.Statement (.mulwN32 a0) := Coded.of_some (VR.bits_le a0) rfl (by decide)
theorem Coded.mulwN32S (a0 : VS) : Coded.Statement (.mulwN32S a0) := Coded.of_some (VS.bits_le a0) rfl (by decide)
theorem Coded.madI32 (a0 : VR) : Coded.Statement (.madI32 a0) := Coded.of_some (VR.bits_le a0) rfl (by decide)
theorem Coded.madI32S (a0 : VS) : Coded.Statement (.madI32S a0) := Coded.of_some (VS.bits_le a0) rfl (by decide)
theorem Coded.minI32 (a0 : VR) : Coded.Statement (.minI32 a0) := Coded.of_some (VR.bits_le a0) rfl (by decide)
theorem Coded.minI32S (a0 : VS) : Coded.Statement (.minI32S a0) := Coded.of_some (VS.bits_le a0) rfl (by decide)
theorem Coded.maxI32 (a0 : VR) : Coded.Statement (.maxI32 a0) := Coded.of_some (VR.bits_le a0) rfl (by decide)
theorem Coded.maxI32S (a0 : VS) : Coded.Statement (.maxI32S a0) := Coded.of_some (VS.bits_le a0) rfl (by decide)
theorem Coded.minN32 (a0 : VR) : Coded.Statement (.minN32 a0) := Coded.of_some (VR.bits_le a0) rfl (by decide)
theorem Coded.minN32S (a0 : VS) : Coded.Statement (.minN32S a0) := Coded.of_some (VS.bits_le a0) rfl (by decide)
theorem Coded.maxN32 (a0 : VR) : Coded.Statement (.maxN32 a0) := Coded.of_some (VR.bits_le a0) rfl (by decide)
theorem Coded.maxN32S (a0 : VS) : Coded.Statement (.maxN32S a0) := Coded.of_some (VS.bits_le a0) rfl (by decide)
theorem Coded.absI32 (a0 : VU) : Coded.Statement (.absI32 a0) := Coded.of_some (VU.bits_le a0) rfl (by decide)
theorem Coded.absI32S (a0 : VU) : Coded.Statement (.absI32S a0) := Coded.of_some (VU.bits_le a0) rfl (by decide)
theorem Coded.addsI32 (a0 : VR) : Coded.Statement (.addsI32 a0) := Coded.of_some (VR.bits_le a0) rfl (by decide)
theorem Coded.addsI32S (a0 : VS) : Coded.Statement (.addsI32S a0) := Coded.of_some (VS.bits_le a0) rfl (by decide)
theorem Coded.subsI32 (a0 : VR) : Coded.Statement (.subsI32 a0) := Coded.of_some (VR.bits_le a0) rfl (by decide)
theorem Coded.subsI32S (a0 : VS) : Coded.Statement (.subsI32S a0) := Coded.of_some (VS.bits_le a0) rfl (by decide)
theorem Coded.addsN32 (a0 : VR) : Coded.Statement (.addsN32 a0) := Coded.of_some (VR.bits_le a0) rfl (by decide)
theorem Coded.addsN32S (a0 : VS) : Coded.Statement (.addsN32S a0) := Coded.of_some (VS.bits_le a0) rfl (by decide)
theorem Coded.subsN32 (a0 : VR) : Coded.Statement (.subsN32 a0) := Coded.of_some (VR.bits_le a0) rfl (by decide)
theorem Coded.subsN32S (a0 : VS) : Coded.Statement (.subsN32S a0) := Coded.of_some (VS.bits_le a0) rfl (by decide)
theorem Coded.addI64 (a0 : VR) : Coded.Statement (.addI64 a0) := Coded.of_some (VR.bits_le a0) rfl (by decide)
theorem Coded.addI64S (a0 : VS) : Coded.Statement (.addI64S a0) := Coded.of_some (VS.bits_le a0) rfl (by decide)
theorem Coded.subI64 (a0 : VR) : Coded.Statement (.subI64 a0) := Coded.of_some (VR.bits_le a0) rfl (by decide)
theorem Coded.subI64S (a0 : VS) : Coded.Statement (.subI64S a0) := Coded.of_some (VS.bits_le a0) rfl (by decide)
theorem Coded.addI16x2 (a0 : VR) : Coded.Statement (.addI16x2 a0) := Coded.of_some (VR.bits_le a0) rfl (by decide)
theorem Coded.addI16x2S (a0 : VS) : Coded.Statement (.addI16x2S a0) := Coded.of_some (VS.bits_le a0) rfl (by decide)
theorem Coded.subI16x2 (a0 : VR) : Coded.Statement (.subI16x2 a0) := Coded.of_some (VR.bits_le a0) rfl (by decide)
theorem Coded.subI16x2S (a0 : VS) : Coded.Statement (.subI16x2S a0) := Coded.of_some (VS.bits_le a0) rfl (by decide)
theorem Coded.dp4I8 (a0 : VR) : Coded.Statement (.dp4I8 a0) := Coded.of_some (VR.bits_le a0) rfl (by decide)
theorem Coded.dp4I8S (a0 : VS) : Coded.Statement (.dp4I8S a0) := Coded.of_some (VS.bits_le a0) rfl (by decide)
theorem Coded.dp4N8 (a0 : VR) : Coded.Statement (.dp4N8 a0) := Coded.of_some (VR.bits_le a0) rfl (by decide)
theorem Coded.dp4N8S (a0 : VS) : Coded.Statement (.dp4N8S a0) := Coded.of_some (VS.bits_le a0) rfl (by decide)
theorem Coded.vAnd (a0 : VR) : Coded.Statement (.vAnd a0) := Coded.of_some (VR.bits_le a0) rfl (by decide)
theorem Coded.vAndS (a0 : VS) : Coded.Statement (.vAndS a0) := Coded.of_some (VS.bits_le a0) rfl (by decide)
theorem Coded.vOr (a0 : VR) : Coded.Statement (.vOr a0) := Coded.of_some (VR.bits_le a0) rfl (by decide)
theorem Coded.vOrS (a0 : VS) : Coded.Statement (.vOrS a0) := Coded.of_some (VS.bits_le a0) rfl (by decide)
theorem Coded.vXor (a0 : VR) : Coded.Statement (.vXor a0) := Coded.of_some (VR.bits_le a0) rfl (by decide)
theorem Coded.vXorS (a0 : VS) : Coded.Statement (.vXorS a0) := Coded.of_some (VS.bits_le a0) rfl (by decide)
theorem Coded.vAndn (a0 : VR) : Coded.Statement (.vAndn a0) := Coded.of_some (VR.bits_le a0) rfl (by decide)
theorem Coded.vAndnS (a0 : VS) : Coded.Statement (.vAndnS a0) := Coded.of_some (VS.bits_le a0) rfl (by decide)
theorem Coded.shl (a0 : VR) : Coded.Statement (.shl a0) := Coded.of_some (VR.bits_le a0) rfl (by decide)
theorem Coded.shlS (a0 : VS) : Coded.Statement (.shlS a0) := Coded.of_some (VS.bits_le a0) rfl (by decide)
theorem Coded.shr (a0 : VR) : Coded.Statement (.shr a0) := Coded.of_some (VR.bits_le a0) rfl (by decide)
theorem Coded.shrS (a0 : VS) : Coded.Statement (.shrS a0) := Coded.of_some (VS.bits_le a0) rfl (by decide)
theorem Coded.sar (a0 : VR) : Coded.Statement (.sar a0) := Coded.of_some (VR.bits_le a0) rfl (by decide)
theorem Coded.sarS (a0 : VS) : Coded.Statement (.sarS a0) := Coded.of_some (VS.bits_le a0) rfl (by decide)
theorem Coded.rotl (a0 : VR) : Coded.Statement (.rotl a0) := Coded.of_some (VR.bits_le a0) rfl (by decide)
theorem Coded.rotlS (a0 : VS) : Coded.Statement (.rotlS a0) := Coded.of_some (VS.bits_le a0) rfl (by decide)
theorem Coded.bfxI32 (a0 : VR) : Coded.Statement (.bfxI32 a0) := Coded.of_some (VR.bits_le a0) rfl (by decide)
theorem Coded.bfxN32 (a0 : VR) : Coded.Statement (.bfxN32 a0) := Coded.of_some (VR.bits_le a0) rfl (by decide)
theorem Coded.bfi (a0 : VR) : Coded.Statement (.bfi a0) := Coded.of_some (VR.bits_le a0) rfl (by decide)
theorem Coded.perm (a0 : VR) : Coded.Statement (.perm a0) := Coded.of_some (VR.bits_le a0) rfl (by decide)
theorem Coded.popc (a0 : VU) : Coded.Statement (.popc a0) := Coded.of_some (VU.bits_le a0) rfl (by decide)
theorem Coded.clz (a0 : VU) : Coded.Statement (.clz a0) := Coded.of_some (VU.bits_le a0) rfl (by decide)
theorem Coded.ctz (a0 : VU) : Coded.Statement (.ctz a0) := Coded.of_some (VU.bits_le a0) rfl (by decide)
theorem Coded.brev (a0 : VU) : Coded.Statement (.brev a0) := Coded.of_some (VU.bits_le a0) rfl (by decide)
theorem Coded.fshl (a0 : VR) : Coded.Statement (.fshl a0) := Coded.of_some (VR.bits_le a0) rfl (by decide)
theorem Coded.fshr (a0 : VR) : Coded.Statement (.fshr a0) := Coded.of_some (VR.bits_le a0) rfl (by decide)
theorem Coded.sext8 (a0 : VU) : Coded.Statement (.sext8 a0) := Coded.of_some (VU.bits_le a0) rfl (by decide)
theorem Coded.sext16 (a0 : VU) : Coded.Statement (.sext16 a0) := Coded.of_some (VU.bits_le a0) rfl (by decide)
theorem Coded.icmp (a0 : VP) : Coded.Statement (.icmp a0) := Coded.of_some (VP.bits_le a0) rfl (by decide)
theorem Coded.icmpS (a0 : VPS) : Coded.Statement (.icmpS a0) := Coded.of_some (VPS.bits_le a0) rfl (by decide)
theorem Coded.sel (a0 : VSel) : Coded.Statement (.sel a0) := Coded.of_some (VSel.bits_le a0) rfl (by decide)
theorem Coded.faddF32 (a0 : VR) : Coded.Statement (.faddF32 a0) := Coded.of_some (VR.bits_le a0) rfl (by decide)
theorem Coded.faddF32S (a0 : VS) : Coded.Statement (.faddF32S a0) := Coded.of_some (VS.bits_le a0) rfl (by decide)
theorem Coded.fsubF32 (a0 : VR) : Coded.Statement (.fsubF32 a0) := Coded.of_some (VR.bits_le a0) rfl (by decide)
theorem Coded.fsubF32S (a0 : VS) : Coded.Statement (.fsubF32S a0) := Coded.of_some (VS.bits_le a0) rfl (by decide)
theorem Coded.fmulF32 (a0 : VR) : Coded.Statement (.fmulF32 a0) := Coded.of_some (VR.bits_le a0) rfl (by decide)
theorem Coded.fmulF32S (a0 : VS) : Coded.Statement (.fmulF32S a0) := Coded.of_some (VS.bits_le a0) rfl (by decide)
theorem Coded.fmaF32 (a0 : VR) : Coded.Statement (.fmaF32 a0) := Coded.of_some (VR.bits_le a0) rfl (by decide)
theorem Coded.fmaF32S (a0 : VS) : Coded.Statement (.fmaF32S a0) := Coded.of_some (VS.bits_le a0) rfl (by decide)
theorem Coded.fnmaF32 (a0 : VR) : Coded.Statement (.fnmaF32 a0) := Coded.of_some (VR.bits_le a0) rfl (by decide)
theorem Coded.fnmaF32S (a0 : VS) : Coded.Statement (.fnmaF32S a0) := Coded.of_some (VS.bits_le a0) rfl (by decide)
theorem Coded.fminF32 (a0 : VR) : Coded.Statement (.fminF32 a0) := Coded.of_some (VR.bits_le a0) rfl (by decide)
theorem Coded.fminF32S (a0 : VS) : Coded.Statement (.fminF32S a0) := Coded.of_some (VS.bits_le a0) rfl (by decide)
theorem Coded.fmaxF32 (a0 : VR) : Coded.Statement (.fmaxF32 a0) := Coded.of_some (VR.bits_le a0) rfl (by decide)
theorem Coded.fmaxF32S (a0 : VS) : Coded.Statement (.fmaxF32S a0) := Coded.of_some (VS.bits_le a0) rfl (by decide)
theorem Coded.fabsF32 (a0 : VU) : Coded.Statement (.fabsF32 a0) := Coded.of_some (VU.bits_le a0) rfl (by decide)
theorem Coded.fabsF32S (a0 : VU) : Coded.Statement (.fabsF32S a0) := Coded.of_some (VU.bits_le a0) rfl (by decide)
theorem Coded.fnegF32 (a0 : VU) : Coded.Statement (.fnegF32 a0) := Coded.of_some (VU.bits_le a0) rfl (by decide)
theorem Coded.fnegF32S (a0 : VU) : Coded.Statement (.fnegF32S a0) := Coded.of_some (VU.bits_le a0) rfl (by decide)
theorem Coded.fsignF32 (a0 : VU) : Coded.Statement (.fsignF32 a0) := Coded.of_some (VU.bits_le a0) rfl (by decide)
theorem Coded.fsignF32S (a0 : VU) : Coded.Statement (.fsignF32S a0) := Coded.of_some (VU.bits_le a0) rfl (by decide)
theorem Coded.fldexpF32 (a0 : VR) : Coded.Statement (.fldexpF32 a0) := Coded.of_some (VR.bits_le a0) rfl (by decide)
theorem Coded.fldexpF32S (a0 : VS) : Coded.Statement (.fldexpF32S a0) := Coded.of_some (VS.bits_le a0) rfl (by decide)
theorem Coded.ffracF32 (a0 : VU) : Coded.Statement (.ffracF32 a0) := Coded.of_some (VU.bits_le a0) rfl (by decide)
theorem Coded.ffracF32S (a0 : VU) : Coded.Statement (.ffracF32S a0) := Coded.of_some (VU.bits_le a0) rfl (by decide)
theorem Coded.fclassF32 (a0 : VU) : Coded.Statement (.fclassF32 a0) := Coded.of_some (VU.bits_le a0) rfl (by decide)
theorem Coded.fclassF32S (a0 : VU) : Coded.Statement (.fclassF32S a0) := Coded.of_some (VU.bits_le a0) rfl (by decide)
theorem Coded.faddF16x2 (a0 : VR) : Coded.Statement (.faddF16x2 a0) := Coded.of_some (VR.bits_le a0) rfl (by decide)
theorem Coded.faddF16x2S (a0 : VS) : Coded.Statement (.faddF16x2S a0) := Coded.of_some (VS.bits_le a0) rfl (by decide)
theorem Coded.fmulF16x2 (a0 : VR) : Coded.Statement (.fmulF16x2 a0) := Coded.of_some (VR.bits_le a0) rfl (by decide)
theorem Coded.fmulF16x2S (a0 : VS) : Coded.Statement (.fmulF16x2S a0) := Coded.of_some (VS.bits_le a0) rfl (by decide)
theorem Coded.fmaF16x2 (a0 : VR) : Coded.Statement (.fmaF16x2 a0) := Coded.of_some (VR.bits_le a0) rfl (by decide)
theorem Coded.fmaF16x2S (a0 : VS) : Coded.Statement (.fmaF16x2S a0) := Coded.of_some (VS.bits_le a0) rfl (by decide)
theorem Coded.fminF16x2 (a0 : VR) : Coded.Statement (.fminF16x2 a0) := Coded.of_some (VR.bits_le a0) rfl (by decide)
theorem Coded.fminF16x2S (a0 : VS) : Coded.Statement (.fminF16x2S a0) := Coded.of_some (VS.bits_le a0) rfl (by decide)
theorem Coded.fmaxF16x2 (a0 : VR) : Coded.Statement (.fmaxF16x2 a0) := Coded.of_some (VR.bits_le a0) rfl (by decide)
theorem Coded.fmaxF16x2S (a0 : VS) : Coded.Statement (.fmaxF16x2S a0) := Coded.of_some (VS.bits_le a0) rfl (by decide)
theorem Coded.faddBf16x2 (a0 : VR) : Coded.Statement (.faddBf16x2 a0) := Coded.of_some (VR.bits_le a0) rfl (by decide)
theorem Coded.faddBf16x2S (a0 : VS) : Coded.Statement (.faddBf16x2S a0) := Coded.of_some (VS.bits_le a0) rfl (by decide)
theorem Coded.fmulBf16x2 (a0 : VR) : Coded.Statement (.fmulBf16x2 a0) := Coded.of_some (VR.bits_le a0) rfl (by decide)
theorem Coded.fmulBf16x2S (a0 : VS) : Coded.Statement (.fmulBf16x2S a0) := Coded.of_some (VS.bits_le a0) rfl (by decide)
theorem Coded.fmaBf16x2 (a0 : VR) : Coded.Statement (.fmaBf16x2 a0) := Coded.of_some (VR.bits_le a0) rfl (by decide)
theorem Coded.fmaBf16x2S (a0 : VS) : Coded.Statement (.fmaBf16x2S a0) := Coded.of_some (VS.bits_le a0) rfl (by decide)
theorem Coded.fminBf16x2 (a0 : VR) : Coded.Statement (.fminBf16x2 a0) := Coded.of_some (VR.bits_le a0) rfl (by decide)
theorem Coded.fminBf16x2S (a0 : VS) : Coded.Statement (.fminBf16x2S a0) := Coded.of_some (VS.bits_le a0) rfl (by decide)
theorem Coded.fmaxBf16x2 (a0 : VR) : Coded.Statement (.fmaxBf16x2 a0) := Coded.of_some (VR.bits_le a0) rfl (by decide)
theorem Coded.fmaxBf16x2S (a0 : VS) : Coded.Statement (.fmaxBf16x2S a0) := Coded.of_some (VS.bits_le a0) rfl (by decide)
theorem Coded.fdot2Bf16 (a0 : VR) : Coded.Statement (.fdot2Bf16 a0) := Coded.of_some (VR.bits_le a0) rfl (by decide)
theorem Coded.fdot2Bf16S (a0 : VS) : Coded.Statement (.fdot2Bf16S a0) := Coded.of_some (VS.bits_le a0) rfl (by decide)
theorem Coded.fdot2F16 (a0 : VR) : Coded.Statement (.fdot2F16 a0) := Coded.of_some (VR.bits_le a0) rfl (by decide)
theorem Coded.fdot2F16S (a0 : VS) : Coded.Statement (.fdot2F16S a0) := Coded.of_some (VS.bits_le a0) rfl (by decide)
theorem Coded.flerpF32 (a0 : VR) : Coded.Statement (.flerpF32 a0) := Coded.of_some (VR.bits_le a0) rfl (by decide)
theorem Coded.flerpF32S (a0 : VS) : Coded.Statement (.flerpF32S a0) := Coded.of_some (VS.bits_le a0) rfl (by decide)
theorem Coded.fcmp (a0 : VP) : Coded.Statement (.fcmp a0) := Coded.of_some (VP.bits_le a0) rfl (by decide)
theorem Coded.fcmpS (a0 : VPS) : Coded.Statement (.fcmpS a0) := Coded.of_some (VPS.bits_le a0) rfl (by decide)
theorem Coded.fcvt (a0 : VX) : Coded.Statement (.fcvt a0) := Coded.of_some (VX.bits_le a0) rfl (by decide)
theorem Coded.frnd (a0 : VRnd) : Coded.Statement (.frnd a0) := Coded.of_some (VRnd.bits_le a0) rfl (by decide)
theorem Coded.frcp (a0 : VU) : Coded.Statement (.frcp a0) := Coded.of_some (VU.bits_le a0) rfl (by decide)
theorem Coded.frsq (a0 : VU) : Coded.Statement (.frsq a0) := Coded.of_some (VU.bits_le a0) rfl (by decide)
theorem Coded.fsqrt (a0 : VU) : Coded.Statement (.fsqrt a0) := Coded.of_some (VU.bits_le a0) rfl (by decide)
theorem Coded.fexp2 (a0 : VU) : Coded.Statement (.fexp2 a0) := Coded.of_some (VU.bits_le a0) rfl (by decide)
theorem Coded.flog2 (a0 : VU) : Coded.Statement (.flog2 a0) := Coded.of_some (VU.bits_le a0) rfl (by decide)
theorem Coded.fsinp (a0 : VU) : Coded.Statement (.fsinp a0) := Coded.of_some (VU.bits_le a0) rfl (by decide)
theorem Coded.fcosp (a0 : VU) : Coded.Statement (.fcosp a0) := Coded.of_some (VU.bits_le a0) rfl (by decide)
theorem Coded.ftanh (a0 : VU) : Coded.Statement (.ftanh a0) := Coded.of_some (VU.bits_le a0) rfl (by decide)
theorem Coded.fdiv (a0 : VR) : Coded.Statement (.fdiv a0) := Coded.of_some (VR.bits_le a0) rfl (by decide)
theorem Coded.mxqF8e4 (a0 : CVSK) : Coded.Statement (.mxqF8e4 a0) := Coded.of_some (CVSK.bits_le a0) rfl (by decide)
theorem Coded.mxqF8e5 (a0 : CVSK) : Coded.Statement (.mxqF8e5 a0) := Coded.of_some (CVSK.bits_le a0) rfl (by decide)
theorem Coded.mxqF4 (a0 : CVSK) : Coded.Statement (.mxqF4 a0) := Coded.of_some (CVSK.bits_le a0) rfl (by decide)
theorem Coded.mxdqF8e4 (a0 : CVSK) : Coded.Statement (.mxdqF8e4 a0) := Coded.of_some (CVSK.bits_le a0) rfl (by decide)
theorem Coded.mxdqF8e5 (a0 : CVSK) : Coded.Statement (.mxdqF8e5 a0) := Coded.of_some (CVSK.bits_le a0) rfl (by decide)
theorem Coded.mxdqF4 (a0 : CVSK) : Coded.Statement (.mxdqF4 a0) := Coded.of_some (CVSK.bits_le a0) rfl (by decide)
theorem Coded.sadd (a0 : SR) : Coded.Statement (.sadd a0) := Coded.of_some (SR.bits_le a0) rfl (by decide)
theorem Coded.ssub (a0 : SR) : Coded.Statement (.ssub a0) := Coded.of_some (SR.bits_le a0) rfl (by decide)
theorem Coded.smul (a0 : SR) : Coded.Statement (.smul a0) := Coded.of_some (SR.bits_le a0) rfl (by decide)
theorem Coded.sand (a0 : SR) : Coded.Statement (.sand a0) := Coded.of_some (SR.bits_le a0) rfl (by decide)
theorem Coded.sor (a0 : SR) : Coded.Statement (.sor a0) := Coded.of_some (SR.bits_le a0) rfl (by decide)
theorem Coded.sxor (a0 : SR) : Coded.Statement (.sxor a0) := Coded.of_some (SR.bits_le a0) rfl (by decide)
theorem Coded.sshl (a0 : SR) : Coded.Statement (.sshl a0) := Coded.of_some (SR.bits_le a0) rfl (by decide)
theorem Coded.sshr (a0 : SR) : Coded.Statement (.sshr a0) := Coded.of_some (SR.bits_le a0) rfl (by decide)
theorem Coded.ssar (a0 : SR) : Coded.Statement (.ssar a0) := Coded.of_some (SR.bits_le a0) rfl (by decide)
theorem Coded.smin (a0 : SR) : Coded.Statement (.smin a0) := Coded.of_some (SR.bits_le a0) rfl (by decide)
theorem Coded.smax (a0 : SR) : Coded.Statement (.smax a0) := Coded.of_some (SR.bits_le a0) rfl (by decide)
theorem Coded.sminn (a0 : SR) : Coded.Statement (.sminn a0) := Coded.of_some (SR.bits_le a0) rfl (by decide)
theorem Coded.smaxn (a0 : SR) : Coded.Statement (.smaxn a0) := Coded.of_some (SR.bits_le a0) rfl (by decide)
theorem Coded.smulh (a0 : SR) : Coded.Statement (.smulh a0) := Coded.of_some (SR.bits_le a0) rfl (by decide)
theorem Coded.sadd64 (a0 : SR) : Coded.Statement (.sadd64 a0) := Coded.of_some (SR.bits_le a0) rfl (by decide)
theorem Coded.ssel (a0 : SR) : Coded.Statement (.ssel a0) := Coded.of_some (SR.bits_le a0) rfl (by decide)
theorem Coded.scmp (a0 : SC) : Coded.Statement (.scmp a0) := Coded.of_some (SC.bits_le a0) rfl (by decide)
theorem Coded.sbr (a0 : SB) : Coded.Statement (.sbr a0) := Coded.of_some (SB.bits_le a0) rfl (by decide)
theorem Coded.sldW (a0 : SR) : Coded.Statement (.sldW a0) := Coded.of_some (SR.bits_le a0) rfl (by decide)
theorem Coded.sldD (a0 : SR) : Coded.Statement (.sldD a0) := Coded.of_some (SR.bits_le a0) rfl (by decide)
theorem Coded.sldQ (a0 : SR) : Coded.Statement (.sldQ a0) := Coded.of_some (SR.bits_le a0) rfl (by decide)
theorem Coded.sstW (a0 : SR) : Coded.Statement (.sstW a0) := Coded.of_some (SR.bits_le a0) rfl (by decide)
theorem Coded.sstD (a0 : SR) : Coded.Statement (.sstD a0) := Coded.of_some (SR.bits_le a0) rfl (by decide)
theorem Coded.sstQ (a0 : SR) : Coded.Statement (.sstQ a0) := Coded.of_some (SR.bits_le a0) rfl (by decide)
theorem Coded.mfs (a0 : SXFs) : Coded.Statement (.mfs a0) := Coded.of_some (SXFs.bits_le a0) rfl (by decide)
theorem Coded.mts (a0 : SXTs) : Coded.Statement (.mts a0) := Coded.of_some (SXTs.bits_le a0) rfl (by decide)
theorem Coded.cinvI (a0 : E1) : Coded.Statement (.cinvI a0) := Coded.of_some (E1.bits_le a0) rfl (by decide)
theorem Coded.cinvD (a0 : E1) : Coded.Statement (.cinvD a0) := Coded.of_some (E1.bits_le a0) rfl (by decide)
theorem Coded.cwbL1 (a0 : E1) : Coded.Statement (.cwbL1 a0) := Coded.of_some (E1.bits_le a0) rfl (by decide)
theorem Coded.cwbL2 (a0 : E1) : Coded.Statement (.cwbL2 a0) := Coded.of_some (E1.bits_le a0) rfl (by decide)
theorem Coded.tlbinvPage (a0 : E1) : Coded.Statement (.tlbinvPage a0) := Coded.of_some (E1.bits_le a0) rfl (by decide)
theorem Coded.tlbinvRange (a0 : E1) : Coded.Statement (.tlbinvRange a0) := Coded.of_some (E1.bits_le a0) rfl (by decide)
theorem Coded.tlbinvAsid (a0 : C0) : Coded.Statement (.tlbinvAsid a0) := Coded.of_some (C0.bits_le a0) rfl (by decide)
theorem Coded.tlbinvAll (a0 : C0) : Coded.Statement (.tlbinvAll a0) := Coded.of_some (C0.bits_le a0) rfl (by decide)
theorem Coded.brk (a0 : SXN) : Coded.Statement (.brk a0) := Coded.of_some (SXN.bits_le a0) rfl (by decide)
theorem Coded.trapW (a0 : SXN) : Coded.Statement (.trapW a0) := Coded.of_some (SXN.bits_le a0) rfl (by decide)
theorem Coded.rte (a0 : C0) : Coded.Statement (.rte a0) := Coded.of_some (C0.bits_le a0) rfl (by decide)
theorem Coded.rqr (a0 : SXE) : Coded.Statement (.rqr a0) := Coded.of_some (SXE.bits_le a0) rfl (by decide)
theorem Coded.rqw (a0 : SXE) : Coded.Statement (.rqw a0) := Coded.of_some (SXE.bits_le a0) rfl (by decide)
theorem Coded.rqd (a0 : SXE) : Coded.Statement (.rqd a0) := Coded.of_some (SXE.bits_le a0) rfl (by decide)
theorem Coded.ld (a0 : ML) : Coded.Statement (.ld a0) := Coded.of_some (ML.bits_le a0) rfl (by decide)
theorem Coded.st (a0 : MS) : Coded.Statement (.st a0) := Coded.of_some (MS.bits_le a0) rfl (by decide)
theorem Coded.atom (a0 : MA) : Coded.Statement (.atom a0) := Coded.of_some (MA.bits_le a0) rfl (by decide)
theorem Coded.red (a0 : MA) : Coded.Statement (.red a0) := Coded.of_some (MA.bits_le a0) rfl (by decide)
theorem Coded.dopen (a0 : MD) : Coded.Statement (.dopen a0) := Coded.of_some (MD.bits_le a0) rfl (by decide)
theorem Coded.dadd (a0 : MD) : Coded.Statement (.dadd a0) := Coded.of_some (MD.bits_le a0) rfl (by decide)
theorem Coded.dclose (a0 : MD) : Coded.Statement (.dclose a0) := Coded.of_some (MD.bits_le a0) rfl (by decide)
theorem Coded.fence (a0 : CK) : Coded.Statement (.fence a0) := Coded.of_some (CK.bits_le a0) rfl (by decide)
theorem Coded.fenceAcq (a0 : CK) : Coded.Statement (.fenceAcq a0) := Coded.of_some (CK.bits_le a0) rfl (by decide)
theorem Coded.fenceRel (a0 : CK) : Coded.Statement (.fenceRel a0) := Coded.of_some (CK.bits_le a0) rfl (by decide)
theorem Coded.waitk (a0 : CWait) : Coded.Statement (.waitk a0) := Coded.of_some (CWait.bits_le a0) rfl (by decide)
theorem Coded.pf (a0 : CPf) : Coded.Statement (.pf a0) := Coded.of_some (CPf.bits_le a0) rfl (by decide)
theorem Coded.pchkV (a0 : CVP) : Coded.Statement (.pchkV a0) := Coded.of_some (CVP.bits_le a0) rfl (by decide)
theorem Coded.pchkS (a0 : CSP) : Coded.Statement (.pchkS a0) := Coded.of_some (CSP.bits_le a0) rfl (by decide)
theorem Coded.mwait (a0 : CMwait) : Coded.Statement (.mwait a0) := Coded.of_some (CMwait.bits_le a0) rfl (by decide)
theorem Coded.pclrV (a0 : CV) : Coded.Statement (.pclrV a0) := Coded.of_some (CV.bits_le a0) rfl (by decide)
theorem Coded.pclrS (a0 : CS) : Coded.Statement (.pclrS a0) := Coded.of_some (CS.bits_le a0) rfl (by decide)
theorem Coded.ldl (a0 : ML) : Coded.Statement (.ldl a0) := Coded.of_some (ML.bits_le a0) rfl (by decide)
theorem Coded.stl (a0 : MS) : Coded.Statement (.stl a0) := Coded.of_some (MS.bits_le a0) rfl (by decide)
theorem Coded.atoml (a0 : MA) : Coded.Statement (.atoml a0) := Coded.of_some (MA.bits_le a0) rfl (by decide)
theorem Coded.salloc (a0 : CS) : Coded.Statement (.salloc a0) := Coded.of_some (CS.bits_le a0) rfl (by decide)
theorem Coded.sfree (a0 : CS) : Coded.Statement (.sfree a0) := Coded.of_some (CS.bits_le a0) rfl (by decide)
theorem Coded.bmode (a0 : CBmode) : Coded.Statement (.bmode a0) := Coded.of_some (CBmode.bits_le a0) rfl (by decide)
theorem Coded.join (a0 : CS) : Coded.Statement (.join a0) := Coded.of_some (CS.bits_le a0) rfl (by decide)
theorem Coded.leave (a0 : C0) : Coded.Statement (.leave a0) := Coded.of_some (C0.bits_le a0) rfl (by decide)
theorem Coded.rinit (a0 : CS) : Coded.Statement (.rinit a0) := Coded.of_some (CS.bits_le a0) rfl (by decide)
theorem Coded.rinitFree (a0 : CS) : Coded.Statement (.rinitFree a0) := Coded.of_some (CS.bits_le a0) rfl (by decide)
theorem Coded.rpushRes (a0 : CRing) : Coded.Statement (.rpushRes a0) := Coded.of_some (CRing.bits_le a0) rfl (by decide)
theorem Coded.rpushCmt (a0 : CRing) : Coded.Statement (.rpushCmt a0) := Coded.of_some (CRing.bits_le a0) rfl (by decide)
theorem Coded.rpopRes (a0 : CRing) : Coded.Statement (.rpopRes a0) := Coded.of_some (CRing.bits_le a0) rfl (by decide)
theorem Coded.rpopRel (a0 : CRing) : Coded.Statement (.rpopRel a0) := Coded.of_some (CRing.bits_le a0) rfl (by decide)
theorem Coded.rlen (a0 : CRing) : Coded.Statement (.rlen a0) := Coded.of_some (CRing.bits_le a0) rfl (by decide)
theorem Coded.presGet (a0 : CS) : Coded.Statement (.presGet a0) := Coded.of_some (CS.bits_le a0) rfl (by decide)
theorem Coded.presSet (a0 : CS) : Coded.Statement (.presSet a0) := Coded.of_some (CS.bits_le a0) rfl (by decide)
theorem Coded.binit (a0 : CBarS) : Coded.Statement (.binit a0) := Coded.of_some (CBarS.bits_le a0) rfl (by decide)
theorem Coded.barr (a0 : CBar) : Coded.Statement (.barr a0) := Coded.of_some (CBar.bits_le a0) rfl (by decide)
theorem Coded.barx (a0 : CBarS) : Coded.Statement (.barx a0) := Coded.of_some (CBarS.bits_le a0) rfl (by decide)
theorem Coded.barw (a0 : CBarP) : Coded.Statement (.barw a0) := Coded.of_some (CBarP.bits_le a0) rfl (by decide)
theorem Coded.barwS (a0 : CBarPS) : Coded.Statement (.barwS a0) := Coded.of_some (CBarPS.bits_le a0) rfl (by decide)
theorem Coded.bart (a0 : CBart) : Coded.Statement (.bart a0) := Coded.of_some (CBart.bits_le a0) rfl (by decide)
theorem Coded.cpl (a0 : E3) : Coded.Statement (.cpl a0) := Coded.of_some (E3.bits_le a0) rfl (by decide)
theorem Coded.cpls (a0 : E3) : Coded.Statement (.cpls a0) := Coded.of_some (E3.bits_le a0) rfl (by decide)
theorem Coded.cpt (a0 : E1) : Coded.Statement (.cpt a0) := Coded.of_some (E1.bits_le a0) rfl (by decide)
theorem Coded.cpts (a0 : E1) : Coded.Statement (.cpts a0) := Coded.of_some (E1.bits_le a0) rfl (by decide)
theorem Coded.tdesc (a0 : E1) : Coded.Statement (.tdesc a0) := Coded.of_some (E1.bits_le a0) rfl (by decide)
theorem Coded.fmt (a0 : E1) : Coded.Statement (.fmt a0) := Coded.of_some (E1.bits_le a0) rfl (by decide)
theorem Coded.mshape (a0 : E1) : Coded.Statement (.mshape a0) := Coded.of_some (E1.bits_le a0) rfl (by decide)
theorem Coded.mload (a0 : EJ) : Coded.Statement (.mload a0) := Coded.of_some (EJ.bits_le a0) rfl (by decide)
theorem Coded.mmul (a0 : EMmul) : Coded.Statement (.mmul a0) := Coded.of_some (EMmul.bits_le a0) rfl (by decide)
theorem Coded.mmulReg (a0 : EMmulR) : Coded.Statement (.mmulReg a0) := Coded.of_some (EMmulR.bits_le a0) rfl (by decide)
theorem Coded.mdrainF32 (a0 : EDrainR) : Coded.Statement (.mdrainF32 a0) := Coded.of_some (EDrainR.bits_le a0) rfl (by decide)
theorem Coded.mdrainBf16 (a0 : EDrainR) : Coded.Statement (.mdrainBf16 a0) := Coded.of_some (EDrainR.bits_le a0) rfl (by decide)
theorem Coded.mdrainTile (a0 : EDrain) : Coded.Statement (.mdrainTile a0) := Coded.of_some (EDrain.bits_le a0) rfl (by decide)
theorem Coded.mdrainRing (a0 : EDrain) : Coded.Statement (.mdrainRing a0) := Coded.of_some (EDrain.bits_le a0) rfl (by decide)
theorem Coded.mdrainPort (a0 : EDrain) : Coded.Statement (.mdrainPort a0) := Coded.of_some (EDrain.bits_le a0) rfl (by decide)
theorem Coded.mclr (a0 : EMask) : Coded.Statement (.mclr a0) := Coded.of_some (EMask.bits_le a0) rfl (by decide)
theorem Coded.mstat (a0 : EJ) : Coded.Statement (.mstat a0) := Coded.of_some (EJ.bits_le a0) rfl (by decide)
theorem Coded.hxcfg (a0 : E1) : Coded.Statement (.hxcfg a0) := Coded.of_some (E1.bits_le a0) rfl (by decide)
theorem Coded.hxq (a0 : E3) : Coded.Statement (.hxq a0) := Coded.of_some (E3.bits_le a0) rfl (by decide)
theorem Coded.hxqRing (a0 : E2) : Coded.Statement (.hxqRing a0) := Coded.of_some (E2.bits_le a0) rfl (by decide)
theorem Coded.hxg (a0 : E3) : Coded.Statement (.hxg a0) := Coded.of_some (E3.bits_le a0) rfl (by decide)
theorem Coded.vpub (a0 : E1) : Coded.Statement (.vpub a0) := Coded.of_some (E1.bits_le a0) rfl (by decide)
theorem Coded.vbind (a0 : E1) : Coded.Statement (.vbind a0) := Coded.of_some (E1.bits_le a0) rfl (by decide)
theorem Coded.tlayout (a0 : E1) : Coded.Statement (.tlayout a0) := Coded.of_some (E1.bits_le a0) rfl (by decide)
theorem Coded.tcode (a0 : E1) : Coded.Statement (.tcode a0) := Coded.of_some (E1.bits_le a0) rfl (by decide)
theorem Coded.trace (a0 : E2) : Coded.Statement (.trace a0) := Coded.of_some (E2.bits_le a0) rfl (by decide)
theorem Coded.tget (a0 : EV) : Coded.Statement (.tget a0) := Coded.of_some (EV.bits_le a0) rfl (by decide)
theorem Coded.tresume (a0 : E2) : Coded.Statement (.tresume a0) := Coded.of_some (E2.bits_le a0) rfl (by decide)
theorem Coded.tabort (a0 : C0) : Coded.Statement (.tabort a0) := Coded.of_some (C0.bits_le a0) rfl (by decide)
theorem Coded.tstamp (a0 : E2) : Coded.Statement (.tstamp a0) := Coded.of_some (E2.bits_le a0) rfl (by decide)
theorem Coded.coll (a0 : E1) : Coded.Statement (.coll a0) := Coded.of_some (E1.bits_le a0) rfl (by decide)
theorem Coded.launchW (a0 : E1) : Coded.Statement (.launchW a0) := Coded.of_some (E1.bits_le a0) rfl (by decide)
theorem Coded.tapeW (a0 : E1) : Coded.Statement (.tapeW a0) := Coded.of_some (E1.bits_le a0) rfl (by decide)
theorem Coded.lit (a0 : LitW) : Coded.Statement (.lit a0) := Coded.of_some (LitW.bits_le a0) rfl (by decide)
theorem Coded.evActiveSlotFill (a0 : Nat) (a1 : Nat) : Coded.Statement (.evActiveSlotFill a0 a1) := fun _ h => nomatch h
theorem Coded.evWaveSwap (a0 : Nat) (a1 : Nat) : Coded.Statement (.evWaveSwap a0 a1) := fun _ h => nomatch h
theorem Coded.evWatchdog (a0 : Nat) : Coded.Statement (.evWatchdog a0) := fun _ h => nomatch h
theorem Coded.evTrapEntry (a0 : BitVec 8) (a1 : BitVec 64) (a2 : BitVec 64) (a3 : BitVec 8) : Coded.Statement (.evTrapEntry a0 a1 a2 a3) := fun _ h => nomatch h
theorem Coded.evStoreTranslationFault (a0 : Nat) (a1 : Nat) : Coded.Statement (.evStoreTranslationFault a0 a1) := fun _ h => nomatch h
theorem Coded.evSoftError (a0 : Nat) (a1 : SoftTarget) : Coded.Statement (.evSoftError a0 a1) := fun _ h => nomatch h
theorem Coded.evSuccessorRestart (a0 : Nat) : Coded.Statement (.evSuccessorRestart a0) := fun _ h => nomatch h
theorem Coded.evSpill (a0 : Nat) (a1 : Nat) (a2 : Bool) : Coded.Statement (.evSpill a0 a1 a2) := fun _ h => nomatch h
theorem Coded.evSpillComplete (a0 : Nat) (a1 : Nat) (a2 : Bool) : Coded.Statement (.evSpillComplete a0 a1 a2) := fun _ h => nomatch h
theorem Coded.evRefill (a0 : Nat) (a1 : Nat) (a2 : Bool) : Coded.Statement (.evRefill a0 a1 a2) := fun _ h => nomatch h
theorem Coded.evRefillComplete (a0 : Nat) (a1 : Nat) (a2 : Bool) : Coded.Statement (.evRefillComplete a0 a1 a2) := fun _ h => nomatch h
theorem Coded.evOperationComplete (a0 : Nat) (a1 : Nat) : Coded.Statement (.evOperationComplete a0 a1) := fun _ h => nomatch h
theorem Coded.evEngineDispatch (a0 : Nat) (a1 : Nat) : Coded.Statement (.evEngineDispatch a0 a1) := fun _ h => nomatch h
theorem Coded.evEngineOpFire (a0 : Nat) : Coded.Statement (.evEngineOpFire a0) := fun _ h => nomatch h
theorem Coded.evCopyArrival (a0 : Nat) : Coded.Statement (.evCopyArrival a0) := fun _ h => nomatch h
theorem Coded.evSlotOpen (a0 : Nat) (a1 : Nat) (a2 : Nat) : Coded.Statement (.evSlotOpen a0 a1 a2) := fun _ h => nomatch h
theorem Coded.evSlotAddition (a0 : Nat) (a1 : Nat) (a2 : BitVec 32) (a3 : Nat) : Coded.Statement (.evSlotAddition a0 a1 a2 a3) := fun _ h => nomatch h
theorem Coded.evSlotClose (a0 : Nat) (a1 : Nat) : Coded.Statement (.evSlotClose a0 a1) := fun _ h => nomatch h
theorem Coded.evPairOpStart (a0 : Nat) : Coded.Statement (.evPairOpStart a0) := fun _ h => nomatch h
theorem Coded.evRowInjection (a0 : Nat) : Coded.Statement (.evRowInjection a0) := fun _ h => nomatch h
theorem Coded.evPairOpRetire (a0 : Nat) : Coded.Statement (.evPairOpRetire a0) := fun _ h => nomatch h
theorem Coded.evTokenHop (a0 : Nat) (a1 : Nat) : Coded.Statement (.evTokenHop a0 a1) := fun _ h => nomatch h
theorem Coded.evBurstQuietClose (a0 : Nat) : Coded.Statement (.evBurstQuietClose a0) := fun _ h => nomatch h
theorem Coded.evBurstTimeLimit (a0 : Nat) : Coded.Statement (.evBurstTimeLimit a0) := fun _ h => nomatch h
theorem Coded.evTokenRelease (a0 : Nat) : Coded.Statement (.evTokenRelease a0) := fun _ h => nomatch h
theorem Coded.evRampStep (a0 : Nat) : Coded.Statement (.evRampStep a0) := fun _ h => nomatch h
theorem Coded.evControllerPeriod (a0 : Nat) (a1 : Telemetry) : Coded.Statement (.evControllerPeriod a0 a1) := fun _ h => nomatch h
theorem Coded.evThermalTripWarning (a0 : Nat) (a1 : Nat) : Coded.Statement (.evThermalTripWarning a0 a1) := fun _ h => nomatch h
theorem Coded.evThermalStop (a0 : Nat) (a1 : Nat) : Coded.Statement (.evThermalStop a0 a1) := fun _ h => nomatch h
theorem Coded.evMarginMeasurement (a0 : Nat) (a1 : BitVec 10) : Coded.Statement (.evMarginMeasurement a0 a1) := fun _ h => nomatch h
theorem Coded.evTimingReplay (a0 : Nat) : Coded.Statement (.evTimingReplay a0) := fun _ h => nomatch h
theorem Coded.evReplayRateStep (a0 : Nat) (a1 : Bool) (a2 : Nat) : Coded.Statement (.evReplayRateStep a0 a1 a2) := fun _ h => nomatch h
theorem Coded.evReplayThrottle (a0 : Nat) (a1 : Nat) : Coded.Statement (.evReplayThrottle a0 a1) := fun _ h => nomatch h
theorem Coded.evL1LineRefresh (a0 : Nat) (a1 : Nat) : Coded.Statement (.evL1LineRefresh a0 a1) := fun _ h => nomatch h
theorem Coded.evVersionStep (a0 : Nat) : Coded.Statement (.evVersionStep a0) := fun _ h => nomatch h
theorem Coded.evBindingRelease (a0 : Nat) : Coded.Statement (.evBindingRelease a0) := fun _ h => nomatch h
theorem Coded.miNop : Coded.Statement .miNop := Coded.of_some (Nat.le_refl 0) rfl (by decide)
theorem Coded.miFetch (a0 : UAK) : Coded.Statement (.miFetch a0) := Coded.of_some (UAK.bits_le a0) rfl (by decide)
theorem Coded.miField (a0 : UDAF) : Coded.Statement (.miField a0) := Coded.of_some (UDAF.bits_le a0) rfl (by decide)
theorem Coded.miBox (a0 : UDA) : Coded.Statement (.miBox a0) := Coded.of_some (UDA.bits_le a0) rfl (by decide)
theorem Coded.miSort (a0 : UDAF) : Coded.Statement (.miSort a0) := Coded.of_some (UDAF.bits_le a0) rfl (by decide)
theorem Coded.miSelect (a0 : USel) : Coded.Statement (.miSelect a0) := Coded.of_some (USel.bits_le a0) rfl (by decide)
theorem Coded.miPush (a0 : UA) : Coded.Statement (.miPush a0) := Coded.of_some (UA.bits_le a0) rfl (by decide)
theorem Coded.miPop (a0 : UD) : Coded.Statement (.miPop a0) := Coded.of_some (UD.bits_le a0) rfl (by decide)
theorem Coded.miTri (a0 : UA) : Coded.Statement (.miTri a0) := Coded.of_some (UA.bits_le a0) rfl (by decide)
theorem Coded.miCaps (a0 : UA) : Coded.Statement (.miCaps a0) := Coded.of_some (UA.bits_le a0) rfl (by decide)
theorem Coded.miCurve (a0 : UA) : Coded.Statement (.miCurve a0) := Coded.of_some (UA.bits_le a0) rfl (by decide)
theorem Coded.miXform (a0 : UDA) : Coded.Statement (.miXform a0) := Coded.of_some (UDA.bits_le a0) rfl (by decide)
theorem Coded.miPopx : Coded.Statement .miPopx := Coded.of_some (Nat.le_refl 0) rfl (by decide)
theorem Coded.miAccept : Coded.Statement .miAccept := Coded.of_some (Nat.le_refl 0) rfl (by decide)
theorem Coded.miTerm : Coded.Statement .miTerm := Coded.of_some (Nat.le_refl 0) rfl (by decide)
theorem Coded.miBr (a0 : UBr) : Coded.Statement (.miBr a0) := Coded.of_some (UBr.bits_le a0) rfl (by decide)
theorem Coded.miLoop (a0 : ULoop) : Coded.Statement (.miLoop a0) := Coded.of_some (ULoop.bits_le a0) rfl (by decide)
theorem Coded.miSetb (a0 : USetb) : Coded.Statement (.miSetb a0) := Coded.of_some (USetb.bits_le a0) rfl (by decide)
theorem Coded.miStb (a0 : UStb) : Coded.Statement (.miStb a0) := Coded.of_some (UStb.bits_le a0) rfl (by decide)
theorem Coded.miYield (a0 : UYield) : Coded.Statement (.miYield a0) := Coded.of_some (UYield.bits_le a0) rfl (by decide)
theorem Coded.evBudgetExhausted (a0 : Nat) (a1 : Nat) : Coded.Statement (.evBudgetExhausted a0 a1) := fun _ h => nomatch h
theorem Coded.evProgramStart (a0 : Nat) : Coded.Statement (.evProgramStart a0) := fun _ h => nomatch h
theorem Coded.evSend (a0 : Nat) (a1 : PData) : Coded.Statement (.evSend a0 a1) := fun _ h => nomatch h
theorem Coded.evRecv (a0 : Nat) (a1 : PData) : Coded.Statement (.evRecv a0 a1) := fun _ h => nomatch h
theorem Coded.evRrs (a0 : Nat) (a1 : PData) : Coded.Statement (.evRrs a0 a1) := fun _ h => nomatch h
theorem Coded.evRrw (a0 : Nat) (a1 : PData) : Coded.Statement (.evRrw a0 a1) := fun _ h => nomatch h
theorem Coded.evCopy (a0 : Nat) (a1 : PData) : Coded.Statement (.evCopy a0 a1) := fun _ h => nomatch h
theorem Coded.evWait (a0 : Nat) (a1 : BitVec 2) (a2 : BitVec 4) (a3 : BitVec 20) (a4 : BitVec 32) : Coded.Statement (.evWait a0 a1 a2 a3 a4) := fun _ h => nomatch h
theorem Coded.evPelotonLoop (a0 : Nat) (a1 : BitVec 2) (a2 : BitVec 32) : Coded.Statement (.evPelotonLoop a0 a1 a2) := fun _ h => nomatch h
theorem Coded.evEndl (a0 : Nat) (a1 : BitVec 2) : Coded.Statement (.evEndl a0 a1) := fun _ h => nomatch h
theorem Coded.evPeer (a0 : Nat) (a1 : BitVec 2) (a2 : BitVec 1) (a3 : BitVec 2) (a4 : BitVec 2) (a5 : BitVec 32) : Coded.Statement (.evPeer a0 a1 a2 a3 a4 a5) := fun _ h => nomatch h
theorem Coded.evSrk (a0 : Nat) (a1 : BitVec 32) : Coded.Statement (.evSrk a0 a1) := fun _ h => nomatch h
theorem Coded.evDone (a0 : Nat) (a1 : BitVec 4) (a2 : BitVec 20) (a3 : BitVec 32) : Coded.Statement (.evDone a0 a1 a2 a3) := fun _ h => nomatch h
theorem Coded.evStepx (a0 : Nat) (a1 : BitVec 4) (a2 : BitVec 20) : Coded.Statement (.evStepx a0 a1 a2) := fun _ h => nomatch h
theorem Coded.evMessageArrival (a0 : Nat) (a1 : PMsg) : Coded.Statement (.evMessageArrival a0 a1) := fun _ h => nomatch h
theorem Coded.evAbortFlit (a0 : Nat) (a1 : BitVec 16) : Coded.Statement (.evAbortFlit a0 a1) := fun _ h => nomatch h
theorem Coded.evLinkStop (a0 : Nat) (a1 : Nat) (a2 : Bool) : Coded.Statement (.evLinkStop a0 a1 a2) := fun _ h => nomatch h
theorem Coded.evDoorbell (a0 : Nat) (a1 : BitVec 64) (a2 : Nat) : Coded.Statement (.evDoorbell a0 a1 a2) := fun _ h => nomatch h
theorem Coded.evLaunchEntry (a0 : Nat) : Coded.Statement (.evLaunchEntry a0) := fun _ h => nomatch h
theorem Coded.evTapeRun (a0 : Nat) : Coded.Statement (.evTapeRun a0) := fun _ h => nomatch h
theorem Coded.evFrameMark (a0 : Nat) : Coded.Statement (.evFrameMark a0) := fun _ h => nomatch h
theorem Coded.evLaunchConditionsHold (a0 : Nat) (a1 : Nat) : Coded.Statement (.evLaunchConditionsHold a0 a1) := fun _ h => nomatch h
theorem Coded.evPlaceGang : Coded.Statement .evPlaceGang := fun _ h => nomatch h
theorem Coded.evClusterDrain (a0 : Nat) : Coded.Statement (.evClusterDrain a0) := fun _ h => nomatch h
theorem Coded.evPreemptionComplete (a0 : Nat) : Coded.Statement (.evPreemptionComplete a0) := fun _ h => nomatch h
theorem Coded.evPendingLaunchAppend (a0 : Nat) : Coded.Statement (.evPendingLaunchAppend a0) := fun _ h => nomatch h
theorem Coded.evBackgroundBudgetReached (a0 : Nat) : Coded.Statement (.evBackgroundBudgetReached a0) := fun _ h => nomatch h
theorem Coded.evWorkgroupRetire (a0 : Nat) : Coded.Statement (.evWorkgroupRetire a0) := fun _ h => nomatch h
theorem Coded.evLaunchRetire (a0 : Nat) : Coded.Statement (.evLaunchRetire a0) := fun _ h => nomatch h
theorem Coded.evSplinter (a0 : Nat) (a1 : BitVec 64) : Coded.Statement (.evSplinter a0 a1) := fun _ h => nomatch h
theorem Coded.evPstatRead (a0 : Nat) : Coded.Statement (.evPstatRead a0) := fun _ h => nomatch h
theorem Coded.evQcmdEnable (a0 : Nat) (a1 : Nat) : Coded.Statement (.evQcmdEnable a0 a1) := fun _ h => nomatch h
theorem Coded.evQcmdDisable (a0 : Nat) (a1 : Nat) : Coded.Statement (.evQcmdDisable a0 a1) := fun _ h => nomatch h
theorem Coded.evQcmdSuspend (a0 : Nat) (a1 : Nat) : Coded.Statement (.evQcmdSuspend a0 a1) := fun _ h => nomatch h
theorem Coded.evQcmdKill (a0 : Nat) (a1 : Nat) : Coded.Statement (.evQcmdKill a0 a1) := fun _ h => nomatch h
theorem Coded.evKilll (a0 : BitVec 32) (a1 : Nat) : Coded.Statement (.evKilll a0 a1) := fun _ h => nomatch h
theorem Coded.evKeyLoad (a0 : BitVec 64) (a1 : Nat) : Coded.Statement (.evKeyLoad a0 a1) := fun _ h => nomatch h
theorem Coded.evPflush (a0 : Nat) (a1 : BitVec 64) : Coded.Statement (.evPflush a0 a1) := fun _ h => nomatch h
theorem Coded.evPstepWrite (a0 : Nat) (a1 : BitVec 64) (a2 : Nat) : Coded.Statement (.evPstepWrite a0 a1 a2) := fun _ h => nomatch h
theorem Coded.evRegisterWrite (a0 : Nat) (a1 : Nat) (a2 : Nat) (a3 : BitVec 64) (a4 : Nat) : Coded.Statement (.evRegisterWrite a0 a1 a2 a3 a4) := fun _ h => nomatch h
theorem Coded.evHostBarAccess (a0 : Nat) (a1 : Nat) (a2 : Nat) (a3 : BusAccess) : Coded.Statement (.evHostBarAccess a0 a1 a2 a3) := fun _ h => nomatch h
theorem Coded.evPeerAccess (a0 : Nat) (a1 : Nat) (a2 : BusAccess) : Coded.Statement (.evPeerAccess a0 a1 a2) := fun _ h => nomatch h
theorem Coded.evLinkStateChange (a0 : Bool) (a1 : Nat) (a2 : Bool) : Coded.Statement (.evLinkStateChange a0 a1 a2) := fun _ h => nomatch h
theorem Coded.evRead (a0 : BitVec 8) (a1 : BitVec 32) : Coded.Statement (.evRead a0 a1) := fun _ h => nomatch h
theorem Coded.evWrite (a0 : BitVec 8) (a1 : BitVec 32) (a2 : BitVec 64) : Coded.Statement (.evWrite a0 a1 a2) := fun _ h => nomatch h
theorem Coded.evResync : Coded.Statement .evResync := fun _ h => nomatch h
theorem Coded.evQuote (a0 : BitVec 256) : Coded.Statement (.evQuote a0) := fun _ h => nomatch h
theorem Coded.evCert : Coded.Statement .evCert := fun _ h => nomatch h
theorem Coded.evColdReset : Coded.Statement .evColdReset := fun _ h => nomatch h
theorem Coded.evWarmReset : Coded.Statement .evWarmReset := fun _ h => nomatch h
theorem Coded.evPortRetrain (a0 : Nat) : Coded.Statement (.evPortRetrain a0) := fun _ h => nomatch h
theorem Coded.evRelease : Coded.Statement .evRelease := fun _ h => nomatch h
theorem Coded.evKill (a0 : BitVec 32) : Coded.Statement (.evKill a0) := fun _ h => nomatch h
theorem Coded.evExtend (a0 : Nat) (a1 : BitVec 256) : Coded.Statement (.evExtend a0 a1) := fun _ h => nomatch h
theorem Coded.evFirmwareVerify (a0 : List (BitVec 8)) (a1 : Nat) (a2 : BitVec 256) (a3 : Nat) (a4 : Nat) (a5 : Nat) : Coded.Statement (.evFirmwareVerify a0 a1 a2 a3 a4 a5) := fun _ h => nomatch h
theorem Coded.evBringupStep (a0 : Bool) : Coded.Statement (.evBringupStep a0) := fun _ h => nomatch h
theorem Coded.evZeroFill (a0 : Nat) : Coded.Statement (.evZeroFill a0) := fun _ h => nomatch h
theorem Coded.evModeSwitchComplete (a0 : Nat) : Coded.Statement (.evModeSwitchComplete a0) := fun _ h => nomatch h
theorem Coded.evSplinterDone (a0 : Nat) : Coded.Statement (.evSplinterDone a0) := fun _ h => nomatch h
theorem Coded.evPacketArrival (a0 : Nat) (a1 : Nat) (a2 : Nat) : Coded.Statement (.evPacketArrival a0 a1 a2) := fun _ h => nomatch h
theorem Coded.evBadFrame (a0 : List (BitVec 8)) : Coded.Statement (.evBadFrame a0) := fun _ h => nomatch h
theorem Coded.evCoreCycle (a0 : Nat) : Coded.Statement (.evCoreCycle a0) := fun _ h => nomatch h
theorem Coded.evModuleReset : Coded.Statement .evModuleReset := fun _ h => nomatch h

end Sys2Proof.Laws
end

