-- ==== Sys2Proof/Tests/Slice0.lean ====
section
/-! SUPPORT. Tests: a word of every encoded row, written out from the encodings of the spec, decodes to its instruction; an ill-formed term for every check; single steps; for every statement with hypotheses, and for each of its clauses, a state and operands that meet them. -/

namespace Sys2Proof.Tests

open Sys2Proof Sys2Proof.Machine Sys2Proof.Claim

set_option maxRecDepth 20000
set_option Elab.async false

/-! ### Fixtures -/

/-- A module with one wave (number 4) of workgroup 3 on core 0, whose gigabyte of addresses from 0 stands in translation buffers with every permission. -/
def dev0 : Device :=
  let d := Device.placeLine State.reset.dev [] (fun w => w)
  { d with tlbs := [0, 256, 288].map (fun u => (u, ⟨0, 0, 30, 0x39⟩)) }

/-- The machine as words of that wave find it in a turn. -/
def at_ (d : Device) : State :=
  { State.reset with
    dev := d, pre := d, base := d
    ctx := { Ctx.idle with wave := 4, lanes := BitVec.allOnes 64, chainPc := 96, wordPc := 96, nextPc := 100 } }

/-- The fixture with its wave changed. -/
def onWave (f : Wave → Wave) : Device := Device.setWave dev0 4 (f (Device.wave dev0 4))

/-- Scalars of the wave. -/
def scal (l : List (Nat × Word)) (w : Wave) : Wave := l.foldl (fun w e => Wave.setSc w e.1 ⟨e.2, false⟩) w

/-- The machine with the wave changed. -/
def W (f : Wave → Wave) : State := at_ (onWave f)

/-- The machine with scalars set. -/
def S (l : List (Nat × Word)) : State := W (scal l)

/-- The machine with the module changed. -/
def M (f : Device → Device) : State := at_ (f dev0)

/-- A module with a second wave, number 5, of the same workgroup, that stands in no active slot and is ready. -/
def dev2 (f : Wave → Wave) : Device :=
  let d := onWave f
  let d := Device.setWg d 3 { Device.wg d 3 with waves := [4, 5] }
  Device.setWave d 5 { Device.wave d 4 with wid := 1, active := none, stalls := [.ready] }

/-- A queue that is enabled, whose ring lies at 0x10000 and holds one entry. -/
def queue1 : Queue := { Queue.reset with en := true, rbase := 0x10000, rsz := 4, wr := 1, stat := 1, tbase := 0x20000 }

/-- An unfinished word of the wave, for lane 0, with a base address. -/
def rep (w0 : Word) (base : DWord) : Replay :=
  { w0 := w0, w1 := 0, w2 := 0, valid := true, nlit := 0, cls := 1, faulted := false, fcode := 0, mask := 1, subset := 1, pc := 96, wb := 0,
    base := base, offset := 0, sdata := [], faddr := 0, ops := List.replicate 5 (List.replicate 64 0) }

/-- A vector register whose lane 0 is live. -/
def reg0 : VReg := { VReg.blank with live := 1 }

/-- Window and frame items of a state, in view of no lane unless the base is 0. -/
def slot (st : SlotSt) : Slot := ⟨st, reg0, 0⟩
def frame (st : SlotSt) : Frame := ⟨st, false, 1, List.replicate 64 0⟩

/-- What a result holds. -/
def okOr (a : α) (r : Except ε α) : α :=
  match r with
  | .ok x => x
  | .error _ => a

/-- The wave's view begins at position 100 in every lane; an item stands below it. -/
def below (st : SlotSt) (w : Wave) : Wave :=
  { w with wbs := List.replicate 64 100, win := [(3, slot st)], frames := [(2, frame st)], stalls := [.room] }

/-- The wave's view begins at position 0; an item stands in it. -/
def inView (st : SlotSt) (w : Wave) : Wave := { w with win := [(3, slot st)], frames := [(0, frame st)] }

/-- The wave's view holds a position, or a frame, in a state. -/
def posIs (st : SlotSt) (w : Wave) : Wave := { w with win := [(3, slot st)] }
def frameIs (st : SlotSt) (w : Wave) : Wave := { w with frames := [(0, frame st)] }

/-- The wave leaves fewer than 4,096 units of its core free. -/
def crowded (w : Wave) : Wave := { below .resident w with vfix := List.replicate 3900 (1, reg0), stalls := [] }

/-- No address of the spill area has a translation. -/
def lost (w : Wave) : Wave := { w with wsp := 2 ^ 40 }

/-- The wave's view holds a position that is refilling and that held nothing. -/
def bareView (w : Wave) : Wave := { w with win := [(3, ⟨.refilling, VReg.blank, 0⟩)] }

/-- An operation of the wave for a unit, with nothing captured. -/
def op0 (kind : EngKind) (cls : Nat) : EngOp :=
  { id := 9, wave := 4, wg := 3, core := 0, launch := 1, asid := 0, kind := kind, cls := cls, mask := 1, helpers := 0, scal := [], rows := [],
    reg := 0, ctl := 0, dests := [], wb := 0, desc := [], lines := [], sites := [], wrote := [], dstWgs := [], bar := none, ins := [], outs := [], entries := [], fmt := 0,
    shape := 0, snap := none, tlay := none, tcode := none, phase := 0, aux := [], err := none, fired := false, void := false, last := true }

/-- The machine with an operation at the units. -/
def O (o : EngOp) : State := at_ { dev0 with ops := [o] }

/-- The machine with an operation at the head of pair 0. -/
def P (o : EngOp) : State := at_ (Device.setPair { dev0 with ops := [o] } 0 { Device.pair dev0 0 with stream := [9] })

/-- The machine with an operation in core 0's queue. -/
def Q (o : EngOp) : State := at_ (Device.setCore dev0 0 { Device.core dev0 0 with queue := [o] })

/-- A ray slot of operation 9. -/
def ray0 : Ray :=
  { st := .running, op := 9, lay := ⟨0, zeros 512⟩, code := ⟨0, zeros 4096⟩, mpc := 0, lim := true, budget := 0, rf := none, stamp := false,
    qerr := false, slost := false, h := false, inInst := false, xd := 0, stack := [], regs := List.replicate 16 0, org := [0, 0, 0], dir := [0, 0, 0],
    tmin := 0, tmax := 0, inb := 0, ipb := 0, iorg := [0, 0, 0], idir := [0, 0, 0], ihnd := 0, iid := 0, cand := RHit.none, hit := RHit.none,
    node := [], nodeClass := 0, nodeAddr := 0, todo := [], rsb := 0x30000, res := 0, detail := 0, rmpc := 0 }

/-- What an option holds. -/
def okSome (a : α) (o : Option α) : α := o.getD a

/-- A Peloton program of rank 0 in a group of one die, at its first step, which is a word. -/
def prog0 (word : Nat) : PProg :=
  { op := 9, wave := 4, asid := 0, addr := 0x8000, started := true, rank := 0, n := 1, gbase := 0, tag := 0, len := 2,
    image := zeros 256 ++ leBytes 8 word ++ zeros 8, pc := 0, toR := 0, fromR := 0, ch := 0, cs := [0, 0, 0, 0],
    ls := [none, none, none, none], key := 0, cover := none, hop := 0, taken := none }

/-- Operands of a Peloton data step: one flit of binary32 at base 0. -/
def pd : PData := ⟨0, 0, 0, 0, 0, 1, 0, 0⟩

/-- The module with a Peloton program running on die 0, and with a message waiting there. -/
def pelP (p : PProg) : Device := Device.setPel dev0 0 { Device.pel dev0 0 with running := some p }
def pel0 (word : Nat) : Device := pelP (prog0 word)
def pelM (word : Nat) : Device := Device.setPel (pel0 word) 0 { Device.pel (pel0 word) 0 with msgs := [⟨0, 0, 1, 0, zeros 16⟩] }
def GP (p : PProg) : State := at_ (pelP p)
def G (word : Nat) : State := at_ (pel0 word)
def GM (word : Nat) : State := at_ (pelM word)

/-- Bytes stored into main memory. -/
def put (d : Device) (a : Nat) (bs : List Byte) : Device := { d with mem := Memory.writeN d.mem a bs }

/-- The record of a launch of one gang with one wave, at 96. -/
def rec0 : List Byte :=
  leBytes 8 96 ++ zeros 8 ++ leBytes 4 1 ++ leBytes 4 1 ++ leBytes 4 1 ++ zeros 4 ++ [1, 1, 0, 0, 0, 0] ++ leBytes 2 64 ++ leBytes 2 16 ++ zeros 214

/-- Queue 0 with an entry that launches the record at 0x30000. -/
def qRec (r : List Byte) : Device :=
  Device.setQueue (put (put dev0 0x10000 (leBytes 8 1 ++ leBytes 8 0x30000)) 0x30000 r) 0 queue1

/-- Queue 0 with launch 7 at its head. -/
def qLaunch (l : Launch) : Device := Device.setQueue (Device.setLaunch dev0 7 l) 0 { queue1 with head := .launch 7 }
def qWait (l : Launch) : Device := Device.setQueue (Device.setLaunch dev0 7 l) 0 { queue1 with head := .launch 7, stat := 2 }

/-- A gang with one workgroup of one wave that has been saved in save slot 0 of die 0. -/
def saved1 : Saved :=
  { gang := 8, die := 0, slots := [(9, 0)], order := 0, off := false, wgs := [(9, { Workgroup.blank with gang := 8, waves := [10] })],
    waves := [(10, { Wave.blank with wg := 9, ended := true, quota := 16 })], pairs := [], rings := [], queue := [], ops := [], progs := [], absent := [], spois := [] }
def back1 : Device :=
  let d := Device.setGang (Device.setLaunch dev0 7 { Launch.blank with lrec := LRec.of rec0 }) 8 { Gang.blank with launch := 7, wgs := [9], size := 1, st := .saved }
  { d with saved := [saved1] }

/-- A ring of the workgroup in bank 1 of cluster 0. -/
def ring0 : Ring :=
  { owner := 3, base := 131072, esz := 3, cap := 128, pres := 4, pcom := 2, cres := 2, crel := 1, prods := [⟨4, false, 2, false⟩], cons := [⟨4, false, 1, false⟩] }

/-- The fixture with a 4 KiB allocation at local address 0, a ring, a gang of two cores whose pair holds a burst, FMT for f16. -/
def dev3 (f : Wave → Wave) (r : Ring) : Device :=
  let d := onWave (fun w => f { w with fmt := 0x11 })
  let d := Device.setWg d 3 { Device.wg d 3 with allocs := [⟨0, 1⟩] }
  let d := Device.setGang d 2 { Device.gang d 2 with size := 2 }
  let d := Device.setPair d 0 { Device.pair d 0 with token := true, accept := true }
  Device.setCluster d 0 { Device.cluster d 0 with banks := [.spad, .ring, .ring] ++ List.replicate 61 .cache, rings := [(0, r)] }

/-- The machine with that fixture: with the wave changed; with scalars set. -/
def V (f : Wave → Wave) : State := at_ (dev3 f ring0)
def C (l : List (Nat × Word)) : State := V (scal l)
def Y (r : Ring) (l : List (Nat × Word)) : State := at_ (dev3 (scal l) r)

/-- A tensor record of one dimension of binary32, at 0x40000; one of two dimensions of f16. -/
def box1 : List Byte := leBytes 8 0x40000 ++ zeros 8 ++ leBytes 8 0x10 ++ leBytes 4 16 ++ zeros 108 ++ leBytes 2 16 ++ zeros 118
def box2 : List Byte :=
  leBytes 8 0x40000 ++ zeros 8 ++ leBytes 8 0x21 ++ leBytes 4 16 ++ leBytes 4 16 ++ zeros 40 ++ leBytes 8 32 ++ zeros 56 ++ leBytes 2 16 ++ leBytes 2 16 ++ zeros 116

/-- The fixture with a record in tensor slot 0. -/
def B (bs : List Byte) (l : List (Nat × Word)) : State :=
  let d := dev3 (scal l) ring0
  at_ (Device.setWg d 3 { Device.wg d 3 with descs := [⟨bs, false⟩] })

/-- A bound version of one level. -/
def vers : VBind := ⟨0x30000, 1, zeros 16 ++ leBytes 8 0x80 ++ zeros 16 ++ [1] ++ zeros 215⟩

/-- No run of 256 blocks is free where one block is taken. -/
theorem noRun (b : Nat) : ¬ RunFree (C [(1, 0x100000)]) (((State.sc (C [(1, 0x100000)]) (1#8).toNat).v.toNat + 4095) / 4096) b := by
  have e : ((State.sc (C [(1, 0x100000)]) (1#8).toNat).v.toNat + 4095) / 4096 = 256 := by decide +kernel
  rw [e]
  rintro ⟨h, k⟩
  have : b = 0 := by omega
  subst this
  exact absurd (k 0 (by decide)) (by decide +kernel)

theorem okOr_eq {a : α} {r : Except ε α} (h : r.isOk = true) : r = .ok (okOr a r) := by
  cases r with
  | ok x => rfl
  | error e => cases h

theorem okSome_eq {a : α} {o : Option α} (h : o.isSome = true) : o = some (okSome a o) := by
  cases o with
  | some x => rfl
  | none => cases h

theorem pairEta (p : α × β) : p = (p.1, p.2) := rfl

theorem pairNone {p : α × Option β} (h : p.2.isNone = true) : p = (p.1, none) := by
  rcases p with ⟨a, _ | b⟩
  · rfl
  · cases h

theorem pairSome {p : α × Option (β × γ)} (x : β × γ) (h : p.2.isSome = true) : p = (p.1, some ((p.2.getD x).1, (p.2.getD x).2)) := by
  rcases p with ⟨a, _ | b⟩
  · cases h
  · rfl

/-- The error that a result holds. -/
def errOr (a : ε) (r : Except ε α) : ε :=
  match r with
  | .ok _ => a
  | .error e => e

theorem errOr_eq {a : ε} {r : Except ε α} (h : r.isOk = false) : r = .error (errOr a r) := by
  cases r with
  | ok x => cases h
  | error e => rfl

/-- A layout whose node of 32 bytes holds six binary32 bounds. -/
def lay1 : List Byte :=
  zeros 16 ++ leBytes 2 32 ++ zeros 6 ++ [0x10, 0x32, 0x54] ++ zeros 5
    ++ (List.range 6).flatMap (fun j => leBytes 8 (32 * j + 32 * 2 ^ 16 + 3 * 2 ^ 36)) ++ zeros 48

/-- A ray with that layout and a node. -/
def ray1 : Ray := { ray0 with lay := ⟨0, lay1⟩, lim := false, dir := [0x3F800000, 0x3F800000, 0x3F800000], tmax := 0x3F800000, node := zeros 32 }
def ray2 : Ray := { ray1 with stamp := true }

/-- The machine with a ray in lane 0. -/
def R (r : Ray) : State := W (fun w => { w with rays := [(0, r)] })
def RM (r : Ray) : State := at_ (put (onWave (fun w => { w with rays := [(0, r)] })) 0x30000
  (leBytes 4 0x3F800000 ++ zeros 16 ++ leBytes 4 0x3F800000 ++ zeros 16 ++ leBytes 4 0x3F800000 ++ zeros 36))

/-! ### Words -/

theorem test_decode_major_01 :
    decodeWord 0x02CFDA9B = .ok (.bra ⟨0, 3, 0, 1039003⟩) := by decide +kernel

theorem test_decode_major_02 :
    decodeWord 0x85984B9E = .ok (.call ⟨1, 6, 1592222⟩) := by decide +kernel

theorem test_decode_major_03 :
    decodeWord 0x06000000 = .ok (.ret ⟨0⟩)
    ∧ decodeWord 0x0600B061 = .ok (.calliS ⟨0, 22, 3⟩)
    ∧ decodeWord 0x868801A1 = .ok (.calliV ⟨1, 17, 5⟩)
    ∧ decodeWord 0x86007002 = .ok (.jmpS ⟨1, 14⟩)
    ∧ decodeWord 0x07D00022 = .ok (.jmpV ⟨0, 58⟩)
    ∧ decodeWord 0x06000003 = .ok (.exitW ⟨0⟩)
    ∧ decodeWord 0x86052023 = .ok (.exitS ⟨1, 164⟩)
    ∧ decodeWord 0x86000004 = .ok (.yield ⟨1⟩)
    ∧ decodeWord 0x8605D025 = .ok (.elect ⟨1, 186, 1⟩)
    ∧ decodeWord 0x86000006 = .ok (.sync ⟨1⟩)
    ∧ decodeWord 0x86046007 = .ok (.syncm ⟨1, 140⟩)
    ∧ decodeWord 0x06000008 = .ok (.nop ⟨0⟩)
    ∧ decodeWord 0x86000009 = .ok (.wflush ⟨1⟩)
    ∧ decodeWord 0x0604E00A = .ok (.quota ⟨0, 156⟩) := by decide +kernel

theorem test_decode_major_04 :
    decodeWord 0x094DFC40 = .ok (.shfl ⟨0, 41, 47, 56, 1, 0⟩)
    ∧ decodeWord 0x890EDDA1 = .ok (.shflx ⟨1, 33, 54, 59, 0, 1⟩)
    ∧ decodeWord 0x89BFB0C2 = .ok (.shflup ⟨1, 55, 61, 33, 1, 0⟩)
    ∧ decodeWord 0x09868D43 = .ok (.shfldn ⟨0, 48, 52, 26, 1, 0⟩)
    ∧ decodeWord 0x8833A004 = .ok (.qswapH ⟨1, 6, 29, 0⟩)
    ∧ decodeWord 0x88C40005 = .ok (.qswapV ⟨1, 24, 32, 0⟩)
    ∧ decodeWord 0x08A5C046 = .ok (.qswapD ⟨0, 20, 46, 1⟩)
    ∧ decodeWord 0x0909FF87 = .ok (.qbcast ⟨0, 33, 15, 63, 0, 0⟩)
    ∧ decodeWord 0x890AE048 = .ok (.scanAddI32 ⟨1, 33, 23, 1⟩)
    ∧ decodeWord 0x895C8009 = .ok (.scanAddF32 ⟨1, 43, 36, 0⟩)
    ∧ decodeWord 0x0916400A = .ok (.scanMaxI32 ⟨0, 34, 50, 0⟩)
    ∧ decodeWord 0x08FF004B = .ok (.scanMinI32 ⟨0, 31, 56, 1⟩)
    ∧ decodeWord 0x8906A04C = .ok (.xscanAddI32 ⟨1, 32, 53, 1⟩) := by decide +kernel

theorem test_decode_major_05 :
    decodeWord 0x8A0008A0 = .ok (.voteAny ⟨1, 1, 5⟩)
    ∧ decodeWord 0x8A04D021 = .ok (.voteAll ⟨1, 154, 1⟩)
    ∧ decodeWord 0x0A02F082 = .ok (.ballot ⟨0, 94, 4⟩)
    ∧ decodeWord 0x0BA47023 = .ok (.redwAddI32 ⟨0, 52, 142, 1⟩)
    ∧ decodeWord 0x0A36F804 = .ok (.redwMinI32 ⟨0, 6, 223, 0⟩)
    ∧ decodeWord 0x0B8E1025 = .ok (.redwMaxI32 ⟨0, 49, 194, 1⟩)
    ∧ decodeWord 0x8A466806 = .ok (.redwMinN32 ⟨1, 8, 205, 0⟩)
    ∧ decodeWord 0x8A295807 = .ok (.redwMaxN32 ⟨1, 5, 43, 0⟩)
    ∧ decodeWord 0x0B5A3028 = .ok (.redwAnd ⟨0, 43, 70, 1⟩)
    ∧ decodeWord 0x8B03D009 = .ok (.redwOr ⟨1, 32, 122, 0⟩)
    ∧ decodeWord 0x8ACAC02A = .ok (.redwXor ⟨1, 25, 88, 1⟩)
    ∧ decodeWord 0x8A3A080B = .ok (.redwAddF32 ⟨1, 7, 65, 0⟩)
    ∧ decodeWord 0x0A78282C = .ok (.redwMinF32 ⟨0, 15, 5, 1⟩)
    ∧ decodeWord 0x0B7FB00D = .ok (.redwMaxF32 ⟨0, 47, 246, 0⟩) := by decide +kernel

theorem test_decode_major_06 :
    decodeWord 0x8D1807E0 = .ok (.mov ⟨1, 35, 0, 63⟩)
    ∧ decodeWord 0x0D153801 = .ok (.movs ⟨0, 34, 167⟩)
    ∧ decodeWord 0x8D64A682 = .ok (.rdl ⟨1, 44, 148, 52⟩)
    ∧ decodeWord 0x8C25EA83 = .ok (.wrl ⟨1, 4, 189, 20⟩)
    ∧ decodeWord 0x0DC80084 = .ok (.lid ⟨0, 57, 4⟩)
    ∧ decodeWord 0x0DB80025 = .ok (.movp ⟨0, 55, 1⟩)
    ∧ decodeWord 0x8D800086 = .ok (.pmov ⟨1, 48, 0, 4⟩)
    ∧ decodeWord 0x0C080007 = .ok (.movi ⟨0, 1⟩) := by decide +kernel

theorem test_decode_major_07 :
    decodeWord 0x0F620000 = .ok (.pand ⟨0, 5, 4, 2⟩)
    ∧ decodeWord 0x8E990001 = .ok (.por ⟨1, 2, 3, 1⟩)
    ∧ decodeWord 0x8F540002 = .ok (.pxor ⟨1, 5, 2, 4⟩)
    ∧ decodeWord 0x8EEC0003 = .ok (.pandn ⟨1, 3, 5, 4⟩)
    ∧ decodeWord 0x8F780004 = .ok (.pnot ⟨1, 5, 7⟩)
    ∧ decodeWord 0x8E400005 = .ok (.pset ⟨1, 1⟩)
    ∧ decodeWord 0x0FC00006 = .ok (.pclr ⟨0, 7⟩) := by decide +kernel

theorem test_decode_major_08_part_a :
    decodeWord 0x10B38740 = .ok (.addI32 ⟨0, 22, 28, 14, 1, 0⟩)
    ∧ decodeWord 0x11786301 = .ok (.subI32 ⟨0, 47, 3, 6, 0, 0⟩)
    ∧ decodeWord 0x90B109A2 = .ok (.mulI32 ⟨1, 22, 8, 19, 0, 1⟩)
    ∧ decodeWord 0x11B12B23 = .ok (.mulhI32 ⟨0, 54, 9, 22, 0, 1⟩)
    ∧ decodeWord 0x912C7E24 = .ok (.mulhN32 ⟨1, 37, 35, 60, 0, 1⟩)
    ∧ decodeWord 0x10336405 = .ok (.mulwI32 ⟨0, 6, 27, 8, 0, 0⟩)
    ∧ decodeWord 0x1186E3E6 = .ok (.mulwN32 ⟨0, 48, 55, 7, 1, 1⟩)
    ∧ decodeWord 0x901840E7 = .ok (.madI32 ⟨1, 3, 2, 1, 1, 1⟩)
    ∧ decodeWord 0x10C773C8 = .ok (.minI32 ⟨0, 24, 59, 39, 1, 0⟩)
    ∧ decodeWord 0x9036A929 = .ok (.maxI32 ⟨1, 6, 53, 18, 0, 1⟩)
    ∧ decodeWord 0x90D53C0A = .ok (.minN32 ⟨1, 26, 41, 56, 0, 0⟩)
    ∧ decodeWord 0x1016884B = .ok (.maxN32 ⟨0, 2, 52, 16, 1, 0⟩)
    ∧ decodeWord 0x9103E00C = .ok (.absI32 ⟨1, 32, 31, 0⟩)
    ∧ decodeWord 0x1056BC6D = .ok (.addsI32 ⟨0, 10, 53, 56, 1, 1⟩)
    ∧ decodeWord 0x91AF540E = .ok (.subsI32 ⟨1, 53, 58, 40, 0, 0⟩)
    ∧ decodeWord 0x1167CEEF = .ok (.addsN32 ⟨0, 44, 62, 29, 1, 1⟩) := by decide +kernel

theorem test_decode_major_08_part_b :
    decodeWord 0x910059D0 = .ok (.subsN32 ⟨1, 32, 2, 51, 1, 0⟩)
    ∧ decodeWord 0x11025E71 = .ok (.addI64 ⟨0, 32, 18, 60, 1, 1⟩)
    ∧ decodeWord 0x91E59492 = .ok (.subI64 ⟨1, 60, 44, 41, 0, 0⟩)
    ∧ decodeWord 0x91251DD3 = .ok (.addI16x2 ⟨1, 36, 40, 59, 1, 0⟩)
    ∧ decodeWord 0x10A296F4 = .ok (.subI16x2 ⟨0, 20, 20, 45, 1, 1⟩)
    ∧ decodeWord 0x10522E15 = .ok (.dp4I8 ⟨0, 10, 17, 28, 0, 0⟩)
    ∧ decodeWord 0x1117E356 = .ok (.dp4N8 ⟨0, 34, 63, 6, 1, 0⟩)
    ∧ decodeWord 0x11FEECF7 = .ok (.vAnd ⟨0, 63, 55, 25, 1, 1⟩)
    ∧ decodeWord 0x10E4F1D8 = .ok (.vOr ⟨0, 28, 39, 35, 1, 0⟩)
    ∧ decodeWord 0x91304139 = .ok (.vXor ⟨1, 38, 2, 2, 0, 1⟩)
    ∧ decodeWord 0x913628DA = .ok (.vAndn ⟨1, 38, 49, 17, 1, 0⟩)
    ∧ decodeWord 0x109E839B = .ok (.shl ⟨0, 19, 52, 7, 0, 0⟩)
    ∧ decodeWord 0x912E8A7C = .ok (.shr ⟨1, 37, 52, 20, 1, 1⟩)
    ∧ decodeWord 0x911B4B5D = .ok (.sar ⟨1, 35, 26, 22, 1, 0⟩)
    ∧ decodeWord 0x913ED17E = .ok (.rotl ⟨1, 39, 54, 34, 1, 1⟩) := by decide +kernel

theorem test_decode_major_09_part_a :
    decodeWord 0x93DF3B40 = .ok (.addI32S ⟨1, 59, 57, 54, 1⟩)
    ∧ decodeWord 0x12962B41 = .ok (.subI32S ⟨0, 18, 49, 22, 1⟩)
    ∧ decodeWord 0x12A86D82 = .ok (.mulI32S ⟨0, 21, 3, 27, 0⟩)
    ∧ decodeWord 0x928C8783 = .ok (.mulhI32S ⟨1, 17, 36, 15, 0⟩)
    ∧ decodeWord 0x13987AC4 = .ok (.mulhN32S ⟨0, 51, 3, 53, 1⟩)
    ∧ decodeWord 0x92590E85 = .ok (.mulwI32S ⟨1, 11, 8, 29, 0⟩)
    ∧ decodeWord 0x9373EA86 = .ok (.mulwN32S ⟨1, 46, 31, 21, 0⟩)
    ∧ decodeWord 0x92AB4287 = .ok (.madI32S ⟨1, 21, 26, 5, 0⟩)
    ∧ decodeWord 0x928C8788 = .ok (.minI32S ⟨1, 17, 36, 15, 0⟩)
    ∧ decodeWord 0x93E9ECC9 = .ok (.maxI32S ⟨1, 61, 15, 25, 1⟩)
    ∧ decodeWord 0x9380358A = .ok (.minN32S ⟨1, 48, 1, 43, 0⟩)
    ∧ decodeWord 0x1378A10B = .ok (.maxN32S ⟨0, 47, 5, 2, 0⟩)
    ∧ decodeWord 0x922C200C = .ok (.absI32S ⟨1, 5, 33, 0⟩)
    ∧ decodeWord 0x924F470D = .ok (.addsI32S ⟨1, 9, 58, 14, 0⟩)
    ∧ decodeWord 0x9319620E = .ok (.subsI32S ⟨1, 35, 11, 4, 0⟩)
    ∧ decodeWord 0x920B5B4F = .ok (.addsN32S ⟨1, 1, 26, 54, 1⟩) := by decide +kernel

theorem test_decode_major_09_part_b :
    decodeWord 0x93313310 = .ok (.subsN32S ⟨1, 38, 9, 38, 0⟩)
    ∧ decodeWord 0x13582151 = .ok (.addI64S ⟨0, 43, 1, 2, 1⟩)
    ∧ decodeWord 0x93F58E52 = .ok (.subI64S ⟨1, 62, 44, 28, 1⟩)
    ∧ decodeWord 0x138C3553 = .ok (.addI16x2S ⟨0, 49, 33, 42, 1⟩)
    ∧ decodeWord 0x9338DB94 = .ok (.subI16x2S ⟨1, 39, 6, 55, 0⟩)
    ∧ decodeWord 0x93752BD5 = .ok (.dp4I8S ⟨1, 46, 41, 23, 1⟩)
    ∧ decodeWord 0x13F7E496 = .ok (.dp4N8S ⟨0, 62, 63, 9, 0⟩)
    ∧ decodeWord 0x92E93457 = .ok (.vAndS ⟨1, 29, 9, 40, 1⟩)
    ∧ decodeWord 0x92833818 = .ok (.vOrS ⟨1, 16, 25, 48, 0⟩)
    ∧ decodeWord 0x12995199 = .ok (.vXorS ⟨0, 19, 10, 35, 0⟩)
    ∧ decodeWord 0x92DEE41A = .ok (.vAndnS ⟨1, 27, 55, 8, 0⟩)
    ∧ decodeWord 0x93F5989B = .ok (.shlS ⟨1, 62, 44, 49, 0⟩)
    ∧ decodeWord 0x1243B75C = .ok (.shrS ⟨0, 8, 29, 46, 1⟩)
    ∧ decodeWord 0x927480DD = .ok (.sarS ⟨1, 14, 36, 1, 1⟩)
    ∧ decodeWord 0x9345711E = .ok (.rotlS ⟨1, 40, 43, 34, 0⟩) := by decide +kernel

theorem test_decode_major_0A :
    decodeWord 0x15633360 = .ok (.bfxI32 ⟨0, 44, 25, 38, 1, 1⟩)
    ∧ decodeWord 0x15060841 = .ok (.bfxN32 ⟨0, 32, 48, 16, 1, 0⟩)
    ∧ decodeWord 0x154E5E62 = .ok (.bfi ⟨0, 41, 50, 60, 1, 1⟩)
    ∧ decodeWord 0x15AE53A3 = .ok (.perm ⟨0, 53, 50, 39, 0, 1⟩)
    ∧ decodeWord 0x95C58044 = .ok (.popc ⟨1, 56, 44, 1⟩)
    ∧ decodeWord 0x95B22045 = .ok (.clz ⟨1, 54, 17, 1⟩)
    ∧ decodeWord 0x95086046 = .ok (.ctz ⟨1, 33, 3, 1⟩)
    ∧ decodeWord 0x942AE007 = .ok (.brev ⟨1, 5, 23, 0⟩)
    ∧ decodeWord 0x145C3708 = .ok (.fshl ⟨0, 11, 33, 46, 0, 0⟩)
    ∧ decodeWord 0x953A8709 = .ok (.fshr ⟨1, 39, 20, 14, 0, 0⟩)
    ∧ decodeWord 0x9428A04A = .ok (.sext8 ⟨1, 5, 5, 1⟩)
    ∧ decodeWord 0x145A804B = .ok (.sext16 ⟨0, 11, 20, 1⟩) := by decide +kernel

theorem test_decode_major_0B :
    decodeWord 0x96902200 = .ok (.icmp ⟨1, 2, 2, 1, 4, 0, 0, 0⟩) := by decide +kernel

theorem test_decode_major_0C :
    decodeWord 0x18580041 = .ok (.icmpS ⟨0, 1, 3, 0, 0, 1, 1⟩) := by decide +kernel

theorem test_decode_major_0D :
    decodeWord 0x9BE39E28 = .ok (.sel ⟨1, 60, 28, 60, 0, 1, 2, 0⟩) := by decide +kernel

theorem test_decode_major_0E_part_a :
    decodeWord 0x9D377E20 = .ok (.faddF32 ⟨1, 38, 59, 60, 0, 1⟩)
    ∧ decodeWord 0x9D8B4801 = .ok (.fsubF32 ⟨1, 49, 26, 16, 0, 0⟩)
    ∧ decodeWord 0x1DF18182 = .ok (.fmulF32 ⟨0, 62, 12, 3, 0, 0⟩)
    ∧ decodeWord 0x9C451683 = .ok (.fmaF32 ⟨1, 8, 40, 45, 0, 0⟩)
    ∧ decodeWord 0x1C86A9E4 = .ok (.fnmaF32 ⟨0, 16, 53, 19, 1, 1⟩)
    ∧ decodeWord 0x1C3060A5 = .ok (.fminF32 ⟨0, 6, 3, 1, 0, 1⟩)
    ∧ decodeWord 0x1DCEB886 = .ok (.fmaxF32 ⟨0, 57, 53, 49, 0, 0⟩)
    ∧ decodeWord 0x9C48C047 = .ok (.fabsF32 ⟨1, 9, 6, 1⟩)
    ∧ decodeWord 0x1DE24008 = .ok (.fnegF32 ⟨0, 60, 18, 0⟩)
    ∧ decodeWord 0x9D66A009 = .ok (.fsignF32 ⟨1, 44, 53, 0⟩)
    ∧ decodeWord 0x1C80932A = .ok (.fldexpF32 ⟨0, 16, 4, 38, 0, 1⟩)
    ∧ decodeWord 0x9DDD600B = .ok (.ffracF32 ⟨1, 59, 43, 0⟩)
    ∧ decodeWord 0x1DD9C04C = .ok (.fclassF32 ⟨0, 59, 14, 1⟩)
    ∧ decodeWord 0x1CA864AD = .ok (.faddF16x2 ⟨0, 21, 3, 9, 0, 1⟩)
    ∧ decodeWord 0x9C323A4E = .ok (.fmulF16x2 ⟨1, 6, 17, 52, 1, 0⟩)
    ∧ decodeWord 0x1C8E6CAF = .ok (.fmaF16x2 ⟨0, 17, 51, 25, 0, 1⟩) := by decide +kernel

theorem test_decode_major_0E_part_b :
    decodeWord 0x9D0E6D50 = .ok (.fminF16x2 ⟨1, 33, 51, 26, 1, 0⟩)
    ∧ decodeWord 0x1C6B0CD1 = .ok (.fmaxF16x2 ⟨0, 13, 24, 25, 1, 0⟩)
    ∧ decodeWord 0x9CDA8AF2 = .ok (.faddBf16x2 ⟨1, 27, 20, 21, 1, 1⟩)
    ∧ decodeWord 0x9D28AEF3 = .ok (.fmulBf16x2 ⟨1, 37, 5, 29, 1, 1⟩)
    ∧ decodeWord 0x1C489174 = .ok (.fmaBf16x2 ⟨0, 9, 4, 34, 1, 1⟩)
    ∧ decodeWord 0x9CF4FFD5 = .ok (.fminBf16x2 ⟨1, 30, 39, 63, 1, 0⟩)
    ∧ decodeWord 0x1D937E96 = .ok (.fmaxBf16x2 ⟨0, 50, 27, 61, 0, 0⟩)
    ∧ decodeWord 0x1D56C657 = .ok (.fdot2Bf16 ⟨0, 42, 54, 12, 1, 0⟩)
    ∧ decodeWord 0x9DC75D38 = .ok (.fdot2F16 ⟨1, 56, 58, 58, 0, 1⟩)
    ∧ decodeWord 0x1DAEDFF9 = .ok (.flerpF32 ⟨0, 53, 54, 63, 1, 1⟩) := by decide +kernel

theorem test_decode_major_0F_part_a :
    decodeWord 0x1E4E44C0 = .ok (.faddF32S ⟨0, 9, 50, 9, 1⟩)
    ∧ decodeWord 0x1E39ED41 = .ok (.fsubF32S ⟨0, 7, 15, 26, 1⟩)
    ∧ decodeWord 0x1F05D142 = .ok (.fmulF32S ⟨0, 32, 46, 34, 1⟩)
    ∧ decodeWord 0x9E7C0EC3 = .ok (.fmaF32S ⟨1, 15, 32, 29, 1⟩)
    ∧ decodeWord 0x9F722B44 = .ok (.fnmaF32S ⟨1, 46, 17, 22, 1⟩)
    ∧ decodeWord 0x9FBCC985 = .ok (.fminF32S ⟨1, 55, 38, 19, 0⟩)
    ∧ decodeWord 0x9E573586 = .ok (.fmaxF32S ⟨1, 10, 57, 43, 0⟩)
    ∧ decodeWord 0x1E1C6007 = .ok (.fabsF32S ⟨0, 3, 35, 0⟩)
    ∧ decodeWord 0x1E684048 = .ok (.fnegF32S ⟨0, 13, 2, 1⟩)
    ∧ decodeWord 0x9EB52049 = .ok (.fsignF32S ⟨1, 22, 41, 1⟩)
    ∧ decodeWord 0x1FD2F24A = .ok (.fldexpF32S ⟨0, 58, 23, 36, 1⟩)
    ∧ decodeWord 0x1E89800B = .ok (.ffracF32S ⟨0, 17, 12, 0⟩)
    ∧ decodeWord 0x1F48C04C = .ok (.fclassF32S ⟨0, 41, 6, 1⟩)
    ∧ decodeWord 0x1FDEA68D = .ok (.faddF16x2S ⟨0, 59, 53, 13, 0⟩)
    ∧ decodeWord 0x1FC3224E = .ok (.fmulF16x2S ⟨0, 56, 25, 4, 1⟩)
    ∧ decodeWord 0x9FB2108F = .ok (.fmaF16x2S ⟨1, 54, 16, 33, 0⟩) := by decide +kernel

theorem test_decode_major_0F_part_b :
    decodeWord 0x9F149790 = .ok (.fminF16x2S ⟨1, 34, 36, 47, 0⟩)
    ∧ decodeWord 0x9E4CA291 = .ok (.fmaxF16x2S ⟨1, 9, 37, 5, 0⟩)
    ∧ decodeWord 0x1F110552 = .ok (.faddBf16x2S ⟨0, 34, 8, 10, 1⟩)
    ∧ decodeWord 0x9FE61FD3 = .ok (.fmulBf16x2S ⟨1, 60, 48, 63, 1⟩)
    ∧ decodeWord 0x9EC7BA54 = .ok (.fmaBf16x2S ⟨1, 24, 61, 52, 1⟩)
    ∧ decodeWord 0x1E8D8795 = .ok (.fminBf16x2S ⟨0, 17, 44, 15, 0⟩)
    ∧ decodeWord 0x1E722296 = .ok (.fmaxBf16x2S ⟨0, 14, 17, 5, 0⟩)
    ∧ decodeWord 0x9F768997 = .ok (.fdot2Bf16S ⟨1, 46, 52, 19, 0⟩)
    ∧ decodeWord 0x1E94C798 = .ok (.fdot2F16S ⟨0, 18, 38, 15, 0⟩)
    ∧ decodeWord 0x1F847959 = .ok (.flerpF32S ⟨0, 48, 35, 50, 1⟩) := by decide +kernel

theorem test_decode_major_10 :
    decodeWord 0x210B0140 = .ok (.fcmp ⟨0, 4, 1, 24, 2, 1, 0, 0⟩) := by decide +kernel

theorem test_decode_major_11 :
    decodeWord 0xA2518080 = .ok (.fcmpS ⟨1, 1, 2, 12, 1, 0, 0⟩) := by decide +kernel

theorem test_decode_major_12 :
    decodeWord 0xA5D142B2 = .ok (.fcvt ⟨1, 58, 10, 1, 5, 4, 1, 0⟩)
    ∧ decodeWord 0xA4EA800A = .ok (.frnd ⟨1, 29, 20, 2, 1, 0⟩) := by decide +kernel

theorem test_decode_major_13 :
    decodeWord 0xA7482040 = .ok (.frcp ⟨1, 41, 1, 1⟩)
    ∧ decodeWord 0xA6DB4041 = .ok (.frsq ⟨1, 27, 26, 1⟩)
    ∧ decodeWord 0x27E0C002 = .ok (.fsqrt ⟨0, 60, 6, 0⟩)
    ∧ decodeWord 0xA6F24043 = .ok (.fexp2 ⟨1, 30, 18, 1⟩)
    ∧ decodeWord 0xA6CBC004 = .ok (.flog2 ⟨1, 25, 30, 0⟩)
    ∧ decodeWord 0xA6536005 = .ok (.fsinp ⟨1, 10, 27, 0⟩)
    ∧ decodeWord 0x27AA2046 = .ok (.fcosp ⟨0, 53, 17, 1⟩)
    ∧ decodeWord 0xA7EB6047 = .ok (.ftanh ⟨1, 61, 27, 1⟩)
    ∧ decodeWord 0xA76A4E68 = .ok (.fdiv ⟨1, 45, 18, 28, 1, 1⟩) := by decide +kernel

theorem test_decode_major_14 :
    decodeWord 0xA9EFCB40 = .ok (.mxqF8e4 ⟨1, 61, 249, 26⟩)
    ∧ decodeWord 0x282911C1 = .ok (.mxqF8e5 ⟨0, 5, 34, 14⟩)
    ∧ decodeWord 0x297838E2 = .ok (.mxqF4 ⟨0, 47, 7, 7⟩)
    ∧ decodeWord 0x28FE3FA3 = .ok (.mxdqF8e4 ⟨0, 31, 199, 61⟩)
    ∧ decodeWord 0xA955D184 = .ok (.mxdqF8e5 ⟨1, 42, 186, 12⟩)
    ∧ decodeWord 0x28E4EFC5 = .ok (.mxdqF4 ⟨0, 28, 157, 62⟩) := by decide +kernel

theorem test_decode_major_18 :
    decodeWord 0x3112DAB8 = .ok (.sadd ⟨0, 137, 109, 23⟩)
    ∧ decodeWord 0x317B1D61 = .ok (.ssub ⟨0, 189, 142, 44⟩)
    ∧ decodeWord 0x31FE8962 = .ok (.smul ⟨0, 255, 68, 44⟩)
    ∧ decodeWord 0x30F79F9B = .ok (.sand ⟨0, 123, 207, 51⟩)
    ∧ decodeWord 0x315D4A34 = .ok (.sor ⟨0, 174, 165, 6⟩)
    ∧ decodeWord 0x3158E69D = .ok (.sxor ⟨0, 172, 115, 19⟩)
    ∧ decodeWord 0xB03D39BE = .ok (.sshl ⟨1, 30, 156, 55⟩)
    ∧ decodeWord 0x304EC747 = .ok (.sshr ⟨0, 39, 99, 40⟩) := by decide +kernel

theorem test_decode_major_19 :
    decodeWord 0x330C84D8 = .ok (.ssar ⟨0, 134, 66, 27⟩)
    ∧ decodeWord 0xB347CDA1 = .ok (.smin ⟨1, 163, 230, 52⟩)
    ∧ decodeWord 0xB3BAFA3A = .ok (.smax ⟨1, 221, 125, 7⟩)
    ∧ decodeWord 0xB3DDC7F3 = .ok (.sminn ⟨1, 238, 227, 62⟩)
    ∧ decodeWord 0x331742EC = .ok (.smaxn ⟨0, 139, 161, 29⟩)
    ∧ decodeWord 0x32770695 = .ok (.smulh ⟨0, 59, 131, 18⟩)
    ∧ decodeWord 0x329829F6 = .ok (.sadd64 ⟨0, 76, 20, 62⟩)
    ∧ decodeWord 0x32D3214F = .ok (.ssel ⟨0, 105, 144, 41⟩) := by decide +kernel

theorem test_decode_major_1A :
    decodeWord 0xB5944FF8 = .ok (.scmp ⟨1, 3, 1, 1, 39, 63⟩) := by decide +kernel

theorem test_decode_major_1B :
    decodeWord 0xB71FEBA8 = .ok (.sbr ⟨1, 2, 0, 2091944⟩) := by decide +kernel

theorem test_decode_major_1C :
    decodeWord 0xB8000018 = .ok (.sldW ⟨1, 0, 0, 3⟩)
    ∧ decodeWord 0x38283939 = .ok (.sldD ⟨0, 20, 28, 39⟩)
    ∧ decodeWord 0xB80001E2 = .ok (.sldQ ⟨1, 0, 0, 60⟩)
    ∧ decodeWord 0xB802000B = .ok (.sstW ⟨1, 1, 0, 1⟩)
    ∧ decodeWord 0xB9EC7434 = .ok (.sstD ⟨1, 246, 58, 6⟩)
    ∧ decodeWord 0xB8006005 = .ok (.sstQ ⟨1, 0, 48, 0⟩) := by decide +kernel

theorem test_decode_major_1D :
    decodeWord 0xBA020000 = .ok (.mfs ⟨1, 1, 0⟩)
    ∧ decodeWord 0x3A040401 = .ok (.mts ⟨0, 2, 2⟩)
    ∧ decodeWord 0xBAA80002 = .ok (.cinvI ⟨1, 84⟩)
    ∧ decodeWord 0xBA880022 = .ok (.cinvD ⟨1, 68⟩)
    ∧ decodeWord 0x3A2C0003 = .ok (.cwbL1 ⟨0, 22⟩)
    ∧ decodeWord 0x3B680023 = .ok (.cwbL2 ⟨0, 180⟩)
    ∧ decodeWord 0xBB340004 = .ok (.tlbinvPage ⟨1, 154⟩)
    ∧ decodeWord 0x3A400024 = .ok (.tlbinvRange ⟨0, 32⟩)
    ∧ decodeWord 0xBA000044 = .ok (.tlbinvAsid ⟨1⟩)
    ∧ decodeWord 0x3A000064 = .ok (.tlbinvAll ⟨0⟩)
    ∧ decodeWord 0x3B5E0005 = .ok (.brk ⟨0, 175⟩)
    ∧ decodeWord 0xBA280006 = .ok (.trapW ⟨1, 20⟩)
    ∧ decodeWord 0x3A000007 = .ok (.rte ⟨0⟩)
    ∧ decodeWord 0xBA000088 = .ok (.rqr ⟨1, 4⟩)
    ∧ decodeWord 0x3A0000A9 = .ok (.rqw ⟨0, 5⟩)
    ∧ decodeWord 0x3A00006A = .ok (.rqd ⟨0, 3⟩) := by decide +kernel

theorem test_decode_major_20 :
    decodeWord 0xC00C848D = .ok (.ld ⟨1, 1, 36, 36, 3, 0, 1⟩) := by decide +kernel

theorem test_decode_major_21 :
    decodeWord 0xC20C3C8C = .ok (.st ⟨1, 1, 33, 228, 3, 0⟩) := by decide +kernel

theorem test_decode_major_22 :
    decodeWord 0xC4180003 = .ok (.atom ⟨1, 3, 0, 0, 1, 1⟩) := by decide +kernel

theorem test_decode_major_23 :
    decodeWord 0xC72B715F = .ok (.red ⟨1, 37, 27, 138, 15, 1⟩) := by decide +kernel

theorem test_decode_major_24 :
    decodeWord 0xC81F4001 = .ok (.dopen ⟨1, 3, 58, 0, 1⟩)
    ∧ decodeWord 0x48620705 = .ok (.dadd ⟨0, 12, 16, 56, 1⟩)
    ∧ decodeWord 0x488C68C9 = .ok (.dclose ⟨0, 17, 35, 70, 1⟩) := by decide +kernel

theorem test_decode_major_25 :
    decodeWord 0x4A000060 = .ok (.fence ⟨0, 3⟩)
    ∧ decodeWord 0xCA0008A0 = .ok (.fenceAcq ⟨1, 5⟩)
    ∧ decodeWord 0x4A001040 = .ok (.fenceRel ⟨0, 2⟩)
    ∧ decodeWord 0x4A0080E1 = .ok (.waitk ⟨0, 16, 7⟩)
    ∧ decodeWord 0x4A080042 = .ok (.pf ⟨0, 1, 0, 2⟩)
    ∧ decodeWord 0xCBB000E3 = .ok (.pchkV ⟨1, 54, 7⟩)
    ∧ decodeWord 0xCA072163 = .ok (.pchkS ⟨1, 228, 3⟩)
    ∧ decodeWord 0xCA0001A4 = .ok (.mwait ⟨1, 0, 3, 1⟩)
    ∧ decodeWord 0xCA400005 = .ok (.pclrV ⟨1, 8⟩)
    ∧ decodeWord 0xCA026025 = .ok (.pclrS ⟨1, 76⟩) := by decide +kernel

theorem test_decode_major_26 :
    decodeWord 0xCDC86008 = .ok (.ldl ⟨1, 57, 3, 0, 2, 0, 0⟩) := by decide +kernel

theorem test_decode_major_27 :
    decodeWord 0xCE002040 = .ok (.stl ⟨1, 0, 1, 2, 0, 0⟩) := by decide +kernel

theorem test_decode_major_28 :
    decodeWord 0xD0DB5390 = .ok (.atoml ⟨1, 27, 26, 156, 8, 0⟩) := by decide +kernel

theorem test_decode_major_29 :
    decodeWord 0xD2064000 = .ok (.salloc ⟨1, 200⟩)
    ∧ decodeWord 0x52068001 = .ok (.sfree ⟨0, 208⟩)
    ∧ decodeWord 0x5204B822 = .ok (.bmode ⟨0, 151, 1⟩)
    ∧ decodeWord 0xD2064803 = .ok (.join ⟨1, 201⟩)
    ∧ decodeWord 0xD2000004 = .ok (.leave ⟨1⟩)
    ∧ decodeWord 0x5200E005 = .ok (.rinit ⟨0, 28⟩)
    ∧ decodeWord 0x5200F025 = .ok (.rinitFree ⟨0, 30⟩)
    ∧ decodeWord 0x52076086 = .ok (.rpushRes ⟨0, 236, 4⟩)
    ∧ decodeWord 0x52002486 = .ok (.rpushCmt ⟨0, 4, 4⟩)
    ∧ decodeWord 0x52028227 = .ok (.rpopRes ⟨0, 80, 17⟩)
    ∧ decodeWord 0xD2061767 = .ok (.rpopRel ⟨1, 194, 27⟩)
    ∧ decodeWord 0xD201F168 = .ok (.rlen ⟨1, 62, 11⟩)
    ∧ decodeWord 0xD2001009 = .ok (.presGet ⟨1, 2⟩)
    ∧ decodeWord 0x5206C029 = .ok (.presSet ⟨0, 216⟩) := by decide +kernel

theorem test_decode_major_2A :
    decodeWord 0xD40728C0 = .ok (.binit ⟨1, 229, 6⟩)
    ∧ decodeWord 0x54000101 = .ok (.barr ⟨0, 8⟩)
    ∧ decodeWord 0xD40511C2 = .ok (.barx ⟨1, 162, 14⟩)
    ∧ decodeWord 0xD4000043 = .ok (.barw ⟨1, 0, 2⟩)
    ∧ decodeWord 0xD407D763 = .ok (.barwS ⟨1, 250, 1, 11⟩)
    ∧ decodeWord 0xD40032C4 = .ok (.bart ⟨1, 6, 1, 6⟩) := by decide +kernel

theorem test_decode_major_2B :
    decodeWord 0xD620DD20 = .ok (.cpl ⟨1, 16, 27, 41⟩)
    ∧ decodeWord 0xD6980021 = .ok (.cpls ⟨1, 76, 0, 1⟩)
    ∧ decodeWord 0x56080002 = .ok (.cpt ⟨0, 4⟩)
    ∧ decodeWord 0xD6380003 = .ok (.cpts ⟨1, 28⟩)
    ∧ decodeWord 0x56080004 = .ok (.tdesc ⟨0, 4⟩) := by decide +kernel

theorem test_decode_major_2C :
    decodeWord 0xD98A0000 = .ok (.fmt ⟨1, 197⟩)
    ∧ decodeWord 0xD9D60001 = .ok (.mshape ⟨1, 235⟩)
    ∧ decodeWord 0xD8000022 = .ok (.mload ⟨1, 0, 1⟩)
    ∧ decodeWord 0xD86400C3 = .ok (.mmul ⟨1, 50, 0, 1, 2⟩)
    ∧ decodeWord 0xD8007A63 = .ok (.mmulReg ⟨1, 15, 0, 0, 3⟩)
    ∧ decodeWord 0xD9548064 = .ok (.mdrainF32 ⟨1, 170, 16, 0, 3⟩)
    ∧ decodeWord 0x584034E4 = .ok (.mdrainBf16 ⟨0, 32, 6, 1, 3⟩)
    ∧ decodeWord 0x59640124 = .ok (.mdrainTile ⟨0, 178, 0, 1⟩)
    ∧ decodeWord 0x588005C4 = .ok (.mdrainRing ⟨0, 64, 1, 2⟩)
    ∧ decodeWord 0x58C80264 = .ok (.mdrainPort ⟨0, 100, 0, 3⟩)
    ∧ decodeWord 0xD8000025 = .ok (.mclr ⟨1, 1⟩)
    ∧ decodeWord 0x580C0026 = .ok (.mstat ⟨0, 6, 1⟩) := by decide +kernel

theorem test_decode_major_2D :
    decodeWord 0xDB740000 = .ok (.hxcfg ⟨1, 186⟩)
    ∧ decodeWord 0x5B324C81 = .ok (.hxq ⟨0, 153, 9, 36⟩)
    ∧ decodeWord 0xDBFD0801 = .ok (.hxqRing ⟨1, 254, 33⟩)
    ∧ decodeWord 0x5B66D5A2 = .ok (.hxg ⟨0, 179, 26, 45⟩)
    ∧ decodeWord 0x5B740003 = .ok (.vpub ⟨0, 186⟩)
    ∧ decodeWord 0xDBDC0004 = .ok (.vbind ⟨1, 238⟩) := by decide +kernel

theorem test_decode_major_2E :
    decodeWord 0xDD240000 = .ok (.tlayout ⟨1, 146⟩)
    ∧ decodeWord 0x5D900001 = .ok (.tcode ⟨0, 200⟩)
    ∧ decodeWord 0x5C001002 = .ok (.trace ⟨0, 0, 2⟩)
    ∧ decodeWord 0xDC008803 = .ok (.tget ⟨1, 17⟩)
    ∧ decodeWord 0xDCB1A004 = .ok (.tresume ⟨1, 88, 52⟩)
    ∧ decodeWord 0x5C000005 = .ok (.tabort ⟨0⟩)
    ∧ decodeWord 0x5D811006 = .ok (.tstamp ⟨0, 192, 34⟩) := by decide +kernel

theorem test_decode_major_2F :
    decodeWord 0xDE000000 = .ok (.coll ⟨1, 0⟩)
    ∧ decodeWord 0xDF700001 = .ok (.launchW ⟨1, 184⟩)
    ∧ decodeWord 0x5F1C0002 = .ok (.tapeW ⟨0, 142⟩) := by decide +kernel

theorem test_decode_major_3F :
    decodeWord 0xFF6C4D5C = .ok (.lit ⟨1, 23874908⟩) := by decide +kernel

theorem test_decode_micro_part_a :
    decodeMicro 0x00000000 = some .miNop
    ∧ decodeMicro 0x08200001 = some (.miFetch ⟨4, 1⟩)
    ∧ decodeMicro 0x15F80002 = some (.miField ⟨11, 15, 2⟩)
    ∧ decodeMicro 0x19E80000 = some (.miBox ⟨3, 13⟩)
    ∧ decodeMicro 0x25880001 = some (.miSort ⟨11, 1, 1⟩)
    ∧ decodeMicro 0x29886000 = some (.miSelect ⟨3, 1, 0, 3, 0⟩)
    ∧ decodeMicro 0x30180000 = some (.miPush ⟨3⟩)
    ∧ decodeMicro 0x3D000000 = some (.miPop ⟨10⟩)
    ∧ decodeMicro 0x40500000 = some (.miTri ⟨10⟩)
    ∧ decodeMicro 0x48180000 = some (.miCaps ⟨3⟩)
    ∧ decodeMicro 0x50580000 = some (.miCurve ⟨11⟩)
    ∧ decodeMicro 0x5CC80000 = some (.miXform ⟨9, 9⟩)
    ∧ decodeMicro 0x60000000 = some .miPopx
    ∧ decodeMicro 0x68000000 = some .miAccept
    ∧ decodeMicro 0x70000000 = some .miTerm
    ∧ decodeMicro 0x797A0D9A = some (.miBr ⟨2, 15, 4, 3482⟩) := by decide +kernel

theorem test_decode_micro_part_b :
    decodeMicro 0x8038023C = some (.miLoop ⟨7, 572⟩)
    ∧ decodeMicro 0x88200006 = some (.miSetb ⟨4, 1, 2⟩)
    ∧ decodeMicro 0x90600001 = some (.miStb ⟨12, 1⟩)
    ∧ decodeMicro 0x9800005C = some (.miYield ⟨92⟩) := by decide +kernel

/-! ### Ill-formed words, one for each check -/

theorem test_wf_predicates : Instr.wf (.bra ⟨0, 0, 1, 0⟩) = false ∧ Instr.wf (.elect ⟨0, 1, 0⟩) = false ∧ Instr.wf (.pmov ⟨0, 1, 0, 0⟩) = false
    ∧ Instr.wf (.pand ⟨0, 0, 1, 2⟩) = false ∧ Instr.wf (.por ⟨0, 0, 1, 2⟩) = false ∧ Instr.wf (.pxor ⟨0, 0, 1, 2⟩) = false
    ∧ Instr.wf (.pandn ⟨0, 0, 1, 2⟩) = false ∧ Instr.wf (.pnot ⟨0, 0, 1⟩) = false ∧ Instr.wf (.pset ⟨0, 0⟩) = false ∧ Instr.wf (.pclr ⟨0, 0⟩) = false
    ∧ Instr.wf (.icmp ⟨0, 0, 0, 1, 2, 0, 0, 0⟩) = false ∧ Instr.wf (.icmpS ⟨0, 0, 0, 1, 2, 0, 0⟩) = false ∧ Instr.wf (.fcmp ⟨0, 0, 0, 1, 2, 0, 0, 0⟩) = false
    ∧ Instr.wf (.fcmpS ⟨0, 0, 0, 1, 2, 0, 0⟩) = false ∧ Instr.wf (.pchkV ⟨0, 1, 0⟩) = false ∧ Instr.wf (.pchkS ⟨0, 1, 0⟩) = false
    ∧ Instr.wf (.bart ⟨0, 0, 0, 1⟩) = false := by decide +kernel

theorem test_wf_codes : Instr.wf (.call ⟨0, 0, 0⟩) = false ∧ Instr.wf (.call ⟨0, 7, 0⟩) = false ∧ Instr.wf (.calliS ⟨0, 2, 7⟩) = false
    ∧ Instr.wf (.calliV ⟨0, 2, 0⟩) = false ∧ Instr.wf (.lid ⟨0, 1, 7⟩) = false ∧ Instr.wf (.icmp ⟨0, 1, 6, 1, 2, 0, 0, 0⟩) = false
    ∧ Instr.wf (.icmp ⟨0, 1, 0, 1, 2, 0, 0, 4⟩) = false ∧ Instr.wf (.fcmp ⟨0, 1, 0, 1, 2, 0, 0, 3⟩) = false ∧ Instr.wf (.scmp ⟨0, 0, 6, 0, 2, 2⟩) = false
    ∧ Instr.wf (.fcvt ⟨0, 1, 2, 0, 0, 0, 0, 0⟩) = false ∧ Instr.wf (.fcvt ⟨0, 1, 2, 6, 7, 0, 0, 0⟩) = false ∧ Instr.wf (.fcvt ⟨0, 1, 2, 1, 0, 7, 0, 0⟩) = false
    ∧ Instr.wf (.frnd ⟨0, 1, 2, 7, 0, 0⟩) = false ∧ Instr.wf (.mfs ⟨0, 1, 0x09⟩) = false ∧ Instr.wf (.mts ⟨0, 0x40, 1⟩) = false
    ∧ Instr.wf (.red ⟨0, 1, 2, 4, 8, 0⟩) = false ∧ Instr.wf (.red ⟨0, 1, 2, 4, 14, 0⟩) = false ∧ Instr.wf (.fence ⟨0, 6⟩) = false
    ∧ Instr.wf (.fenceAcq ⟨0, 6⟩) = false ∧ Instr.wf (.fenceRel ⟨0, 63⟩) = false ∧ Instr.wf (.waitk ⟨0, 0, 8⟩) = false ∧ Instr.wf (.pf ⟨0, 1, 2, 3⟩) = false
    ∧ Instr.wf (.mwait ⟨0, 4, 6, 0⟩) = false ∧ Instr.wf (.mwait ⟨0, 4, 0, 3⟩) = false ∧ Instr.wf (.bmode ⟨0, 1, 3⟩) = false ∧ Instr.wf (.mclr ⟨0, 0⟩) = false
    ∧ Instr.wf (.rqr ⟨0, 6⟩) = false ∧ Instr.wf (.rqw ⟨0, 6⟩) = false ∧ Instr.wf (.rqd ⟨0, 15⟩) = false := by decide +kernel

theorem test_wf_scalars : Instr.wf (.jmpS ⟨0, 1⟩) = false ∧ Instr.wf (.exitS ⟨0, 3⟩) = false ∧ Instr.wf (.syncm ⟨0, 1⟩) = false
    ∧ Instr.wf (.quota ⟨0, 1⟩) = false ∧ Instr.wf (.ballot ⟨0, 1, 1⟩) = false ∧ Instr.wf (.calliS ⟨0, 1, 1⟩) = false ∧ Instr.wf (.sadd64 ⟨0, 2, 4, 7⟩) = false
    ∧ Instr.wf (.scmp ⟨0, 0, 0, 2, 3, 2⟩) = false ∧ Instr.wf (.sldW ⟨0, 0, 1, 0⟩) = false ∧ Instr.wf (.sldD ⟨0, 1, 2, 0⟩) = false ∧ Instr.wf (.sldQ ⟨0, 2, 2, 0⟩) = false
    ∧ Instr.wf (.sstW ⟨0, 0, 1, 0⟩) = false ∧ Instr.wf (.sstD ⟨0, 1, 2, 0⟩) = false ∧ Instr.wf (.sstQ ⟨0, 2, 2, 0⟩) = false ∧ Instr.wf (.cinvI ⟨0, 254⟩) = false
    ∧ Instr.wf (.cwbL1 ⟨0, 1⟩) = false ∧ Instr.wf (.ld ⟨0, 1, 2, 3, 0, 0, 0⟩) = false ∧ Instr.wf (.st ⟨0, 1, 2, 3, 0, 0⟩) = false
    ∧ Instr.wf (.atom ⟨0, 1, 2, 3, 0, 0⟩) = false ∧ Instr.wf (.dopen ⟨0, 1, 2, 3, 0⟩) = false ∧ Instr.wf (.mwait ⟨0, 2, 0, 0⟩) = false
    ∧ Instr.wf (.rpushRes ⟨0, 1, 0⟩) = false ∧ Instr.wf (.presGet ⟨0, 1⟩) = false ∧ Instr.wf (.cpl ⟨0, 2, 1, 2⟩) = false
    ∧ Instr.wf (.tdesc ⟨0, 254⟩) = false ∧ Instr.wf (.mload ⟨0, 1, 0⟩) = false ∧ Instr.wf (.mdrainF32 ⟨0, 1, 2, 0, 0⟩) = false
    ∧ Instr.wf (.mdrainTile ⟨0, 254, 0, 0⟩) = false ∧ Instr.wf (.mdrainPort ⟨0, 252, 0, 0⟩) = false ∧ Instr.wf (.vbind ⟨0, 252⟩) = false
    ∧ Instr.wf (.trace ⟨0, 2, 1⟩) = false ∧ Instr.wf (.tstamp ⟨0, 2, 1⟩) = false ∧ Instr.wf (.coll ⟨0, 255⟩) = false := by decide +kernel

theorem test_wf_vectors : Instr.wf (.calliV ⟨0, 63, 1⟩) = false ∧ Instr.wf (.jmpV ⟨0, 63⟩) = false ∧ Instr.wf (.mulwI32 ⟨0, 63, 1, 2, 0, 0⟩) = false
    ∧ Instr.wf (.addI64 ⟨0, 1, 63, 2, 0, 0⟩) = false ∧ Instr.wf (.addI64S ⟨0, 1, 2, 5, 0⟩) = false ∧ Instr.wf (.addI32S ⟨0, 1, 2, 56, 0⟩) = false
    ∧ Instr.wf (.ld ⟨0, 61, 2, 2, 4, 0, 0⟩) = false ∧ Instr.wf (.ld ⟨0, 1, 2, 2, 5, 0, 0⟩) = false ∧ Instr.wf (.ld ⟨0, 1, 2, 2, 2, 1, 0⟩) = false
    ∧ Instr.wf (.st ⟨0, 63, 2, 2, 3, 0⟩) = false ∧ Instr.wf (.atom ⟨0, 61, 2, 2, 14, 0⟩) = false ∧ Instr.wf (.dclose ⟨0, 63, 2, 2, 0⟩) = false
    ∧ Instr.wf (.ldl ⟨0, 1, 2, 2, 6, 0, 0⟩) = false ∧ Instr.wf (.stl ⟨0, 62, 2, 2, 4, 0⟩) = false ∧ Instr.wf (.atoml ⟨0, 63, 2, 2, 9, 0⟩) = false
    ∧ Instr.wf (.mmulReg ⟨0, 33, 0, 0, 0⟩) = false ∧ Instr.wf (.hxq ⟨0, 0, 62, 1⟩) = false ∧ Instr.wf (.hxq ⟨0, 0, 1, 0⟩) = false
    ∧ Instr.wf (.hxqRing ⟨0, 0, 62⟩) = false ∧ Instr.wf (.hxg ⟨0, 0, 62, 1⟩) = false ∧ Instr.wf (.trace ⟨0, 0, 55⟩) = false ∧ Instr.wf (.tget ⟨0, 57⟩) = false
    ∧ Instr.wf (.tresume ⟨0, 0, 58⟩) = false ∧ Instr.wf (.tstamp ⟨0, 0, 63⟩) = false := by decide +kernel

theorem test_wf_micro : Instr.wf (.miField ⟨1, 0, 12⟩) = false ∧ Instr.wf (.miSort ⟨15, 0, 1⟩) = false ∧ Instr.wf (.miSort ⟨0, 0, 0⟩) = false
    ∧ Instr.wf (.miSort ⟨0, 9, 8⟩) = false ∧ Instr.wf (.miXform ⟨15, 0⟩) = false
    ∧ Instr.wf (.miBr ⟨7, 1, 0, 0⟩) = false ∧ Instr.wf (.miSetb ⟨0, 0, 3⟩) = false ∧ Instr.wf (.miSetb ⟨0, 3, 0⟩) = false := by decide +kernel

/-! ### Words with a reserved major, function or field -/

theorem test_decode_refuses : decodeWord 0x0600001F = .error .illegalFunction ∧ decodeWord 0x06000028 = .error .illegalOperand
    ∧ decodeWord 0x00000000 = .error .illegalInstruction ∧ faultCode .illegalInstruction = 0x01 ∧ faultCode .illegalFunction = 0x02
    ∧ faultCode .illegalOperand = 0x03 ∧ decodeMicro 0xA0000000 = none ∧ decodeMicro 0x00000001 = none := by decide +kernel

/-! ### Encoding and step -/

theorem wit_reservedMajor : (0 : Word).extractLsb' 25 6 = 0 := by decide +kernel

theorem wit_decodeEncode : Instr.isMicro (.bra ⟨1, 7, 1, 0x100000⟩) = false ∧ encode (.bra ⟨1, 7, 1, 0x100000⟩) = some 0x83F00000 ∧ Instr.wf (.bra ⟨1, 7, 1, 0x100000⟩) = true := by
  decide +kernel

theorem wit_decodeEncodeMicro : Instr.isMicro (.miPush ⟨15⟩) = true ∧ encode (.miPush ⟨15⟩) = some 0x30780000 ∧ Instr.wf (.miPush ⟨15⟩) = true := by
  decide +kernel

theorem wit_encodeDecode : decodeWord 0x06000008 = .ok (.nop ⟨0⟩) ∧ decodeMicro 0x30780000 = some (.miPush ⟨15⟩) := by decide +kernel

/-- The fixture with words in core 0's instruction line where its wave stands, in core 0's turn. -/
def line (xs : List Word) (f : Wave → Wave) : State := { at_ (Device.placeLine State.reset.dev xs f) with agenda := [.turn 0 false] }
def line0 (x : Word) : State := line [x] (fun w => w)
def wave0 (s : State) : Wave := Device.wave s.dev 4
def key0 : Key := ⟨96, 0, BitVec.allOnes 64⟩

/-- The state that an outcome answers. -/
def nx (s : State) (r : Host.Outcome State Fault Refusal) : State :=
  match r with
  | .next t => t
  | _ => s
def goes (r : Host.Outcome State Fault Refusal) : Bool :=
  match r with
  | .next _ => true
  | _ => false
theorem nx_eq (s : State) {r : Host.Outcome State Fault Refusal} (h : goes r = true) : r = .next (nx s r) := by
  cases r <;> first | rfl | cases h

/-- The fixture's key is the one that its turn finds. -/
def Found (s : State) (k : Key) : Bool :=
  s.dev.inbox == [] && s.agenda == [.turn 0 false] && !s.dev.sys.held && Device.wavesOn s.dev 0 == [(4, wave0 s)] && Tbl.get? s.dev.waves 4 == some (wave0 s)
    && (wave0 s).active == some 1 && !(wave0 s).fresh && !(wave0 s).preempt && (Wave.duePending (wave0 s)).isNone && Wave.keys (wave0 s) == [k]

theorem oneKey {s : State} {k : Key} (h : Found s k = true) : OneKey s 0 false [] 4 1 (wave0 s) k := by
  simp only [Found, Bool.and_eq_true, beq_iff_eq, Bool.not_eq_true', Option.isNone_iff_eq_none] at h
  exact ⟨h.1.1.1.1.1.1.1.1.1, h.1.1.1.1.1.1.1.1.2, h.1.1.1.1.1.1.1.2, ⟨h.1.1.1.1.1.1.2, h.1.1.1.1.1.2⟩, ⟨h.1.1.1.1.2, by omega, h.1.1.1.2, h.1.1.2⟩, h.1.2, h.2⟩

theorem fetched {s : State} {k : Key} {xs : List Word} (h : xs ≠ [] ∧ k.pc.toNat % 12 / 4 + xs.length ≤ 3
    ∧ (∀ j < xs.length, Device.fetchWord s.dev 0 (Device.asidOf s.dev (wave0 s)) (wordAt k.pc j) = .ok (xs.getD j 0)
      ∧ (xs.getD j 0).getLsbD 31 = decide (j + 1 < xs.length))) : Fetched s 0 (wave0 s) k xs := by
  have g : ∀ {j : Nat} {x : Word}, xs[j]? = some x → j < xs.length ∧ xs.getD j 0 = x := by
    intro j x e
    have := (List.getElem?_eq_some_iff.1 e)
    exact ⟨this.1, by simp [List.getD, e]⟩
  exact ⟨h.1, h.2.1, fun j x e => (g e).2 ▸ (h.2.2 j (g e).1).1, fun j x e => (g e).2 ▸ (h.2.2 j (g e).1).2⟩

/-- What a chain's words need to be ready. -/
def ready (s : State) (k : Key) (cs : List CWord) : Bool :=
  cs.all (fun c => !isSoftTrap c.raw) && (k.lanes &&& (wave0 s).blocked == 0)
  && cs.all (fun c => ((Instr.uses s.dev (wave0 s) k.wb c.inst).1 ++ (Instr.uses s.dev (wave0 s) k.wb c.inst).2).all (fun id =>
      !(Wave.writing (wave0 s) id) && (Wave.outItem (wave0 s) id).isNone)) && ((wave0 s).handler || (wave0 s).wdog == 0)

theorem chainReady {s : State} {k : Key} {cs : List CWord} (h : ready s k cs = true) : ChainReady s (wave0 s) k cs := by
  simp only [ready, Bool.and_eq_true, List.all_eq_true, Bool.not_eq_true', beq_iff_eq, Bool.or_eq_true, Option.isNone_iff_eq_none] at h
  exact ⟨h.1.1.1, h.1.1.2, h.1.2, h.2.elim .inl (fun e => .inr (.inl e))⟩

/-- A chain of one word that has no LIT. -/
theorem oneWord {a : DWord} {x : Word} {i : Instr} (d : decodeWord x = .ok i) (n : x.extractLsb' 25 6 ≠ 0x3F) (c : litCountOk x 0 = true) :
    ChainOf a [x] [⟨a, x, i, [], []⟩] :=
  .word a x i [] [] [] d n nofun nofun c (.none _)


theorem wit_stepRunsWord :
    OneKey (line0 0x06000008) 0 false [] 4 1 (wave0 (line0 0x06000008)) key0 ∧ Fetched (line0 0x06000008) 0 (wave0 (line0 0x06000008)) key0 [0x06000008]
    ∧ ChainOf key0.pc [0x06000008] [⟨key0.pc, 0x06000008, .nop ⟨0⟩, [], []⟩]
    ∧ ChainReady (line0 0x06000008) (wave0 (line0 0x06000008)) key0 [⟨key0.pc, 0x06000008, .nop ⟨0⟩, [], []⟩]
    ∧ exec (.nop ⟨0⟩) (asIssued (line0 0x06000008) [] 0 false 4 key0 0x06000008 (.nop ⟨0⟩))
      = .next (asIssued (line0 0x06000008) [] 0 false 4 key0 0x06000008 (.nop ⟨0⟩))
    ∧ (asIssued (line0 0x06000008) [] 0 false 4 key0 0x06000008 (.nop ⟨0⟩)).ctx.status = .ok
    ∧ FitsQuota 4 (wave0 (line0 0x06000008)) (asIssued (line0 0x06000008) [] 0 false 4 key0 0x06000008 (.nop ⟨0⟩))
      (asIssued (line0 0x06000008) [] 0 false 4 key0 0x06000008 (.nop ⟨0⟩)) :=
  ⟨oneKey (by decide +kernel), fetched (by decide +kernel), oneWord (by decide +kernel) (by decide +kernel) (by decide +kernel),
    chainReady (by decide +kernel), by rfl, by decide +kernel, by unfold FitsQuota; decide +kernel⟩

/-- A chain of `movi` with its LIT and a branch. -/
def xs3 : List Word := [0x8C800007, 0xFE000007, 0x02000001]
def line3 : State := line xs3 (fun w => w)
def c3a : CWord := ⟨96, 0x8C800007, .movi ⟨1, 16⟩, [7], [0xFE000007]⟩
def c3b : CWord := ⟨104, 0x02000001, .bra ⟨0, 0, 0, 1⟩, [], []⟩
def cs3 : List CWord := [c3a, c3b]
noncomputable def in3 (m : Nat) : State := entered (noted line3 [] 0) false 4 (notedWave line3 [] 0 4) key0 3 m

theorem chain3 : ChainOf key0.pc xs3 cs3 :=
  .word _ 0x8C800007 (.movi ⟨1, 16⟩) [0xFE000007] [0x02000001] _ (by decide +kernel) (by decide +kernel)
    (by intro y h; rw [List.mem_singleton.1 h]; exact ⟨by decide +kernel, .lit ⟨1, 7⟩, by decide +kernel⟩)
    (by intro y h; cases h; decide +kernel) (by decide +kernel) (oneWord (by decide +kernel) (by decide +kernel) (by decide +kernel))

noncomputable def at3 : State := State.lastReads (in3 2) cs3
noncomputable def mid3 : State := nx at3 (exec c3a.inst (atWord at3 c3a))
noncomputable def end3 : State := nx at3 (exec c3b.inst (atWord mid3 c3b))

theorem runs3 : RunsAll at3 [c3a] mid3 ∧ RunsAll mid3 [c3b] end3 := by
  have a : goes (exec c3a.inst (atWord at3 c3a)) = true ∧ mid3.ctx.status = .ok := by decide +kernel
  have b : goes (exec c3b.inst (atWord mid3 c3b)) = true ∧ end3.ctx.status = .ok := by decide +kernel
  exact ⟨.word _ _ _ _ _ (nx_eq _ a.1) a.2 (.none _), .word _ _ _ _ _ (nx_eq _ b.1) b.2 (.none _)⟩

theorem issues3 : ChainIssues (noted line3 [] 0) false 4 (notedWave line3 [] 0 4) key0 xs3 cs3 end3 := by
  have a : goes (exec c3a.inst (atWord (in3 0) c3a)) = true ∧ (nx at3 (exec c3a.inst (atWord (in3 0) c3a))).ctx.status = .ok := by decide +kernel
  have b : goes (exec c3b.inst (atWord (in3 0) c3b)) = true ∧ (nx at3 (exec c3b.inst (atWord (in3 0) c3b))).ctx.status = .ok := by decide +kernel
  have f : cs3.filter (fun c => !isTransfer c.raw) = [c3a] ∧ cs3.filter (fun c => isTransfer c.raw) = [c3b] := by decide +kernel
  refine ⟨by decide +kernel, by decide +kernel, ?_, mid3, f.1 ▸ runs3.1, f.2 ▸ runs3.2, by decide +kernel, by decide +kernel⟩
  intro c h
  rcases List.mem_cons.1 h with rfl | h
  · exact ⟨_, nx_eq _ a.1, a.2⟩
  · rw [List.mem_singleton.1 h]
    exact ⟨_, nx_eq _ b.1, b.2⟩

theorem wit_stepRunsChain : OneKey line3 0 false [] 4 1 (wave0 line3) key0 ∧ Fetched line3 0 (wave0 line3) key0 xs3 ∧ ChainOf key0.pc xs3 cs3
    ∧ ChainReady line3 (wave0 line3) key0 cs3 ∧ ChainIssues (noted line3 [] 0) false 4 (notedWave line3 [] 0 4) key0 xs3 cs3 end3 :=
  ⟨oneKey (by decide +kernel), fetched (by decide +kernel), chain3, chainReady (by decide +kernel), issues3⟩

theorem wit_stepRunsEvent : ({ S [] with agenda := [.event .evResync] } : State).dev.inbox = [] ∧ encodeNat .evResync = none
    ∧ ({ S [] with agenda := [.event .evResync] } : State).dev.sys.held = false := by decide +kernel

/-- A ray whose snapshot holds one NOP, from a code address; the machine with it, memory changed at that word. -/
def rayN (a : DWord) : Ray := { ray1 with code := ⟨a, leBytes 2 1 ++ zeros 18⟩ }
def RN (a : DWord) (x : Nat) : State := { at_ (put (onWave (fun w => { w with rays := [(0, rayN a)] })) 16 (leBytes 4 x)) with agenda := [.ray 4 0] }
def codeRd (a : DWord) (x : Nat) : RdRes :=
  Device.rayRead (begun (RN a x) []).dev (Device.wave (RN a x).dev 4) ((rayN a).code.addr + BitVec.ofNat 64 (16 + 4 * (rayN a).mpc)) 4 1

def rdOk (r : RdRes) : Bool :=
  match r with
  | .ok _ => true
  | _ => false

theorem wit_stepRunsMicro (a : DWord) (x : Nat) (h : (a, x) ∈ [((0 : DWord), 0), (2 ^ 40, 0), (0, 0x7FFFFFFF), (0, 0x30780000)]) :
    (RN a x).dev.inbox = [] ∧ (RN a x).agenda = [.ray 4 0] ∧ (RN a x).dev.sys.held = false ∧ Tbl.get? (Device.wave (RN a x).dev 4).rays 0 = some (rayN a)
    ∧ (rayN a).st = .running ∧ (rayN a).rf = none ∧ (rayN a).mpc < codeLen (rayN a).code.image
    ∧ ∃ d w i, MicroWord (begun (RN a x) []).dev (Device.wave (RN a x).dev 4) (rayN a) d w ∧ decodeMicro (BitVec.ofNat 32 w) = some i := by
  have g : ∀ e ∈ [((0 : DWord), 0), (2 ^ 40, 0), (0, 0x7FFFFFFF), (0, 0x30780000)],
      (RN e.1 e.2).dev.inbox = [] ∧ (RN e.1 e.2).agenda = [.ray 4 0] ∧ (RN e.1 e.2).dev.sys.held = false
      ∧ Tbl.get? (Device.wave (RN e.1 e.2).dev 4).rays 0 = some (rayN e.1)
      ∧ (rayN e.1).st = .running ∧ (rayN e.1).rf = none ∧ (rayN e.1).mpc < codeLen (rayN e.1).code.image := by decide +kernel
  obtain ⟨h1, h2, h3, h4, h5, h6, h7⟩ := g (a, x) h
  refine ⟨h1, h2, h3, h4, h5, h6, h7, ?_⟩
  have n : decodeMicro (BitVec.ofNat 32 (codeWord (rayN 0).code.image (rayN 0).mpc)) = some .miNop := by decide +kernel
  have n' : decodeMicro (BitVec.ofNat 32 (codeWord (rayN (2 ^ 40)).code.image (rayN (2 ^ 40)).mpc)) = some .miNop := by decide +kernel
  simp only [List.mem_cons, List.mem_nil_iff, or_false, Prod.mk.injEq] at h
  rcases h with ⟨rfl, rfl⟩ | ⟨rfl, rfl⟩ | ⟨rfl, rfl⟩ | ⟨rfl, rfl⟩
  · exact ⟨_, _, _, .same (leBytes 4 0) (by decide +kernel) (by decide +kernel), n⟩
  · refine ⟨_, _, _, .unread ?_, n'⟩
    have e : rdOk (codeRd (2 ^ 40) 0) = false := by decide +kernel
    intro bs hb
    rw [show codeRd (2 ^ 40) 0 = .ok bs from hb] at e
    cases e
  · exact ⟨_, _, _, .illegal (leBytes 4 0x7FFFFFFF) (by decide +kernel) (by decide +kernel), n⟩
  · refine ⟨_, _, if (Config.freeByte (begun (RN 0 0x30780000) []).dev.freeCtr).getLsbD 0 = true then .miPush ⟨15⟩ else .miNop,
      .either (leBytes 4 0x30780000) (by decide +kernel) (by decide +kernel) (by decide +kernel), ?_⟩
    split
    · decide +kernel
    · exact n

/-- The words that the fixture's fetch takes. -/
theorem taken {s : State} {k : Key} {xs : List Word} (h : xs ≠ [] ∧ k.pc.toNat % 12 / 4 + xs.length ≤ 3
    ∧ (∀ j < xs.length, Device.fetchWord s.dev 0 (Device.asidOf s.dev (wave0 s)) (wordAt k.pc j) = .ok (xs.getD j 0)
      ∧ (j + 1 < xs.length → (xs.getD j 0).getLsbD 31 = true))
    ∧ ((xs.getD (xs.length - 1) 0).getLsbD 31 = false ∨ k.pc.toNat % 12 / 4 + xs.length = 3)) : Taken s 0 (wave0 s) k xs := by
  have g : ∀ {j : Nat} {x : Word}, xs[j]? = some x → j < xs.length ∧ xs.getD j 0 = x := by
    intro j x e
    have := (List.getElem?_eq_some_iff.1 e)
    exact ⟨this.1, by simp [List.getD, e]⟩
  refine ⟨h.1, fun j x e => (g e).2 ▸ (h.2.2.1 j (g e).1).1, fun j x e l => (g e).2 ▸ (h.2.2.1 j (g e).1).2 l, h.2.2.2.imp (fun e => ⟨_, ?_, e⟩) id, h.2.1⟩
  cases xs with
  | nil => exact absurd rfl h.1
  | cons a l => simp [List.getLast?_eq_getElem?, List.getD]

theorem wit_stepTrapsBadWord : OneKey (line0 0) 0 false [] 4 1 (wave0 (line0 0)) key0 ∧ Taken (line0 0) 0 (wave0 (line0 0)) key0 [0]
    ∧ decodeWord 0 = .error .illegalInstruction ∧ key0.pc.toNat % 12 / 4 ≠ 2 ∧ (0 : Word).extractLsb' 25 6 ≠ 0x3F :=
  ⟨oneKey (by decide +kernel), taken (by decide +kernel), by decide +kernel, by decide +kernel, by decide +kernel⟩

/-- The fixture with its lanes at another PC; the line with the word at its third slot. -/
def lineAt (xs : List Word) (pc : DWord) : State := line xs (fun w => { w with pcs := List.replicate 64 pc })
def keyAt (pc : DWord) : Key := ⟨pc, 0, BitVec.allOnes 64⟩

/-- A bad first word, of a chain that is one word. -/
theorem firstBad {s : State} {k : Key} {x : Word} {ls : List Word} {c : BitVec 8} (t : Taken s 0 (wave0 s) k (x :: ls))
    (f : WordFaults 0 (wordAt k.pc 0) x (ls.takeWhile isLit).length c) : ChainFaults s 0 (wave0 s) k c 0 :=
  .word (x :: ls) 0 x c t rfl (fun j h => absurd h (Nat.not_lt_zero j)) f

theorem wit_chainFaults :
    (OneKey (lineAt [] (2 ^ 40)) 0 false [] 4 1 (wave0 (lineAt [] (2 ^ 40))) (keyAt (2 ^ 40))
      ∧ ∃ c, ChainFaults (lineAt [] (2 ^ 40)) 0 (wave0 (lineAt [] (2 ^ 40))) (keyAt (2 ^ 40)) c (2 ^ 40))
    ∧ (OneKey (lineAt [0, 0, 0x86000008] 104) 0 false [] 4 1 (wave0 (lineAt [0, 0, 0x86000008] 104)) (keyAt 104)
      ∧ ChainFaults (lineAt [0, 0, 0x86000008] 104) 0 (wave0 (lineAt [0, 0, 0x86000008] 104)) (keyAt 104) 0x01 0)
    ∧ (OneKey (line0 0x7E000007) 0 false [] 4 1 (wave0 (line0 0x7E000007)) key0
      ∧ ChainFaults (line0 0x7E000007) 0 (wave0 (line0 0x7E000007)) key0 0x01 0)
    ∧ (OneKey (line0 0x06000028) 0 false [] 4 1 (wave0 (line0 0x06000028)) key0
      ∧ ChainFaults (line0 0x06000028) 0 (wave0 (line0 0x06000028)) key0 0x03 0)
    ∧ (OneKey (line0 0x0C800007) 0 false [] 4 1 (wave0 (line0 0x0C800007)) key0
      ∧ ChainFaults (line0 0x0C800007) 0 (wave0 (line0 0x0C800007)) key0 0x03 0) := by
  refine ⟨⟨oneKey (by decide +kernel), 6, .fetch 0 6 (by decide +kernel) (fun j h => absurd h (Nat.not_lt_zero j)) (by decide +kernel)⟩,
    ⟨oneKey (by decide +kernel), firstBad (x := 0x86000008) (ls := []) (taken (by decide +kernel)) (.slot (by decide +kernel))⟩,
    ⟨oneKey (by decide +kernel), firstBad (x := 0x7E000007) (ls := []) (taken (by decide +kernel)) (.leads (by decide +kernel))⟩,
    ⟨oneKey (by decide +kernel), firstBad (x := 0x06000028) (ls := []) (taken (by decide +kernel)) (.bad .illegalOperand (by decide +kernel) (by decide +kernel) (by decide +kernel))⟩,
    ⟨oneKey (by decide +kernel), firstBad (x := 0x0C800007) (ls := []) (taken (by decide +kernel)) (.lits (.movi ⟨0, 16⟩) (by decide +kernel) (by decide +kernel) (by decide +kernel) (by decide +kernel))⟩⟩

/-- Two words that go to one pipe. -/
def line2 : State := line [0x86000008, 0x06000008] (fun w => w)

theorem wit_chainConflict : OneKey line2 0 false [] 4 1 (wave0 line2) key0 ∧ ChainFaults line2 0 (wave0 line2) key0 0x04 0 :=
  ⟨oneKey (by decide +kernel), .conflict [0x86000008, 0x06000008] [⟨96, 0x86000008, .nop ⟨1⟩, [], []⟩, ⟨100, 0x06000008, .nop ⟨0⟩, [], []⟩]
    (fetched (by decide +kernel))
    (.word _ 0x86000008 (.nop ⟨1⟩) [] [0x06000008] _ (by decide +kernel) (by decide +kernel) nofun (by intro y h; cases h; decide +kernel) (by decide +kernel)
      (oneWord (by decide +kernel) (by decide +kernel) (by decide +kernel)))
    (by decide +kernel)⟩

/-- The fixture with a word that its key cannot issue, as the turn issues it and as the word leaves it: one that traps at issue; one that a class counter holds; one that needs a position beyond a QUOTA of 0. -/
noncomputable def issued (s : State) (x : Word) (i : Instr) : State := asIssued s [] 0 false 4 key0 x i
noncomputable def left (s : State) (x : Word) (i : Instr) : State := nx s (exec i (issued s x i))

/-- What the third part of the statement asks of a state. -/
def Alone (s : State) (x : Word) (i : Instr) : Prop :=
  OneKey s 0 false [] 4 1 (wave0 s) key0 ∧ Fetched s 0 (wave0 s) key0 [x] ∧ ChainOf key0.pc [x] [⟨key0.pc, x, i, [], []⟩]
    ∧ ChainReady s (wave0 s) key0 [⟨key0.pc, x, i, [], []⟩] ∧ exec i (issued s x i) = .next (left s x i)

def trapping : State := line [0x3A000064] (fun w => w)
def waiting : State := line [0x4A000001] (fun w => { w with outs := [⟨9, 0, false, [], []⟩] })
def narrow : State := line [0x0CC80004] (fun w => { w with quota := 0 })

theorem wit_stepLeaves :
    (Alone trapping 0x3A000064 (.tlbinvAll ⟨0⟩) ∧ (left trapping 0x3A000064 (.tlbinvAll ⟨0⟩)).ctx.status = .trapped)
    ∧ (Alone waiting 0x4A000001 (.waitk ⟨0, 0, 0⟩) ∧ (left waiting 0x4A000001 (.waitk ⟨0, 0, 0⟩)).ctx.status = .held .long)
    ∧ (Alone narrow 0x0CC80004 (.lid ⟨0, 25, 0⟩) ∧ (left narrow 0x0CC80004 (.lid ⟨0, 25, 0⟩)).ctx.status = .ok
      ∧ Wave.canSpill (notedWave narrow [] 0 4) = false ∧ isTransfer 0x0CC80004 = false
      ∧ (wave0 narrow).quota < Wave.heldUnits (Device.wave (left narrow 0x0CC80004 (.lid ⟨0, 25, 0⟩)).dev 4)) := by
  refine ⟨⟨⟨oneKey (by decide +kernel), fetched (by decide +kernel), oneWord (by decide +kernel) (by decide +kernel) (by decide +kernel),
      chainReady (by decide +kernel), nx_eq _ (by decide +kernel)⟩, by decide +kernel⟩,
    ⟨⟨oneKey (by decide +kernel), fetched (by decide +kernel), oneWord (by decide +kernel) (by decide +kernel) (by decide +kernel),
      chainReady (by decide +kernel), nx_eq _ (by decide +kernel)⟩, by decide +kernel⟩,
    ⟨oneKey (by decide +kernel), fetched (by decide +kernel), oneWord (by decide +kernel) (by decide +kernel) (by decide +kernel),
      chainReady (by decide +kernel), nx_eq _ (by decide +kernel)⟩, by decide +kernel, by decide +kernel, by decide +kernel, by decide +kernel⟩

theorem wit_memoryStays : State.Ok (line0 0x06000008) := by unfold State.Ok; decide +kernel

/-! ### Vector and scalar words -/

theorem wit_compares : (⟨0, 1, 0, 0, 0, 0, 0, 2⟩ : VP).ty.toNat < 3 ∧ (⟨0, 1, 0, 0, 0, 0, 2⟩ : VPS).ty.toNat < 3 := by decide +kernel

theorem wit_moves : (∃ c, Moves (S []) (.mov ⟨0, 1, 0, 2⟩) c) ∧ (∃ c, Moves (S []) (.movs ⟨0, 1, 2⟩) c) ∧ (∃ c, Moves (S []) (.movi ⟨0, 1⟩) c)
    ∧ (∃ c, Moves (S []) (.rdl ⟨0, 1, 2, 63⟩) c) ∧ (∃ c, Moves (S []) (.movp ⟨0, 1, 2⟩) c) ∧ (∃ c, Moves (S []) (.pmov ⟨0, 1, 0, 7⟩) c)
    ∧ (∃ c, Moves (S []) (.sel ⟨0, 1, 2, 3, 0, 0, 1, 0⟩) c) ∧ (∃ c, Moves (S []) (.pchkV ⟨0, 1, 2⟩) c) ∧ (∃ c, Moves (S []) (.pchkS ⟨0, 1, 2⟩) c)
    ∧ ∃ c, Moves (S []) (.pclrS ⟨0, 1⟩) c :=
  ⟨⟨_, .mov _⟩, ⟨_, .movs _⟩, ⟨_, .movi _⟩, ⟨_, .rdl _⟩, ⟨_, .movp _⟩, ⟨_, .pmov _⟩, ⟨_, .sel _⟩, ⟨_, .pchkV _⟩, ⟨_, .pchkS _⟩, _, .pclrS _⟩

/-- The wave with a poisoned element in lane 0 of v15. -/
def poisoned : State := W (fun w => { w with vfix := [(15, { reg0 with pois := 1 })] })

theorem wit_laneWords : (∃ c, LaneWords (S []) (.wrl ⟨0, 1, 2, 63⟩) c) ∧ (∃ c, LaneWords (S []) (.lid ⟨0, 1, 6⟩) c)
    ∧ (∃ c, LaneWords (S []) (.pclrV ⟨0, 15⟩) c) ∧ ∃ c, LaneWords poisoned (.pclrV ⟨0, 15⟩) c :=
  ⟨⟨_, .wrl _⟩, ⟨_, .lid _ (by decide +kernel)⟩, ⟨_, .pclrVClean _ (by decide +kernel)⟩, _, .pclrV _ (by decide +kernel)⟩

theorem wit_predWords : (∃ c, PredWords (S []) (.pand ⟨0, 1, 2, 3⟩) c) ∧ (∃ c, PredWords (S []) (.por ⟨0, 1, 2, 3⟩) c)
    ∧ (∃ c, PredWords (S []) (.pxor ⟨0, 1, 2, 3⟩) c) ∧ (∃ c, PredWords (S []) (.pandn ⟨0, 1, 2, 3⟩) c) ∧ (∃ c, PredWords (S []) (.pnot ⟨0, 1, 2⟩) c)
    ∧ (∃ c, PredWords (S []) (.pset ⟨0, 1⟩) c) ∧ ∃ c, PredWords (S []) (.pclr ⟨0, 7⟩) c :=
  ⟨⟨_, .pand _⟩, ⟨_, .por _⟩, ⟨_, .pxor _⟩, ⟨_, .pandn _⟩, ⟨_, .pnot _⟩, ⟨_, .pset _⟩, _, .pclr _⟩

theorem wit_votes : (∃ c, Votes (S []) (.voteAny ⟨0, 1, 2⟩) c) ∧ (∃ c, Votes (S []) (.voteAll ⟨0, 1, 2⟩) c) ∧ (∃ c, Votes (S []) (.ballot ⟨0, 1, 2⟩) c)
    ∧ ∃ c, Votes (S []) (.elect ⟨0, 1, 2⟩) c :=
  ⟨⟨_, .any _⟩, ⟨_, .all _⟩, ⟨_, .ballot _⟩, _, .elect _ 0 ⟨.inl (by decide +kernel), by omega⟩⟩

theorem wit_elects : contributes (S []) 0 = true ∧ (∀ l < 64, contributes (W (fun w => { w with helper := BitVec.allOnes 64 })) l = false)
    ∧ (0x06014005 : Word).extractLsb' 25 6 = 3 ∧ (0x06014005 : Word).extractLsb' 0 5 = 5 ∧ (0x06014005 : Word).extractLsb' 5 3 = 0 := by
  decide +kernel

theorem wit_deadElement : (∀ r, Wave.reg? (Device.wave dev0 4) (.fixed 15) = some r → r.live.getLsbD 63 = false)
    ∧ (1#64).getLsbD 0 = true ∧ ∀ p x, RegId.fixed 15 = .pos p → Tbl.get? (Device.wave dev0 4).win p = some x → x.st = .resident ∨ x.st = .spilling := by
  have e : Wave.reg? (Device.wave dev0 4) (.fixed 15) = none := by decide +kernel
  rw [e]
  exact ⟨nofun, by decide +kernel, nofun⟩

theorem wit_conversions : Instr.wf (.fcvt ⟨0, 1, 2, 1, 0, 0, 0, 0⟩) = true ∧ Instr.wf (.frnd ⟨0, 1, 2, 0, 0, 0⟩) = true := by decide +kernel

/-! ### Control flow -/

/-- A state whose chain has lane 0 only. -/
def one (s : State) : State := { s with ctx := { s.ctx with lanes := 1 } }

theorem lane0 {P : Nat → Prop} (h : P 0) : ∀ l < 64, (1#64).getLsbD l = true → P l := by
  intro l hl hb
  have : l = 0 := by
    have : ∀ k < 64, (1#64).getLsbD k = true → k = 0 := by decide +kernel
    exact this l hl hb
  exact this ▸ h

theorem wit_branches : TargetsPass (S []) (BitVec.allOnes 64) (fun _ => 192) ∧ targetTest (S []) ((S []).ctx.wordPc + 4 * (1#21).signExtend 64) = none
    ∧ targetTest (S []) ((S []).ctx.wordPc + 4 * (1#22).signExtend 64) = none ∧ (State.flag (S []) 0).p = false
    ∧ (State.flag (S []) 0).v ≠ ((1 : BitVec 1) == 1) := by
  unfold TargetsPass targetTest; decide +kernel

/-- Scalars and vectors hold 192. -/
def K192 : State := W (fun w => scal [(12, 192)] { w with vfix := [(12, ⟨BitVec.allOnes 64, 0, false, List.replicate 64 192⟩)] })

theorem fits192 (sl : BitVec 3) (h : 48 + 8 * sl.toNat ≤ (State.src K192).wlim) : CallFits K192 sl :=
  ⟨by decide +kernel, by
    have e : K192.ctx.wb = 0 := by decide +kernel
    unfold callFrame
    omega, by
    intro x hx
    have e : (State.src K192).frames = [] := by decide +kernel
    rw [e] at hx
    cases hx⟩

theorem wit_calls : TargetsPass K192 K192.ctx.lanes (fun _ => 192) ∧ CallFits K192 6 ∧ CallFits K192 1 ∧ targetTest K192 192 = none
    ∧ (pairScalar K192 12) = (192, false) ∧ (∀ l < 64, K192.ctx.lanes.getLsbD l = true → (pairElem K192 12 l) = (192, false)) :=
  ⟨by unfold TargetsPass targetTest; decide +kernel, fits192 6 (by decide +kernel), fits192 1 (by decide +kernel), by unfold targetTest; decide +kernel,
    by decide +kernel, by decide +kernel⟩

/-- Lane 0 stands at base 8 with an entry to return to 96 by a slide of 8. -/
def callee : State :=
  one (W (fun w => { w with wbs := putAt w.wbs 0 8 0, frames := [(8, ⟨.resident, false, 1, putAt (List.replicate 64 0) 0 (callEntry 1 96) 0⟩)] }))

theorem wit_returns : State.cur callee = State.src callee ∧ ∀ l < 64, callee.ctx.lanes.getLsbD l = true → RetGood callee l :=
  ⟨by decide +kernel, lane0 ⟨⟨⟨.resident, false, 1, putAt (List.replicate 64 0) 0 (callEntry 1 96) 0⟩, by decide +kernel⟩, by decide +kernel,
    by decide +kernel, by decide +kernel, by decide +kernel, by decide +kernel, by unfold targetTest; decide +kernel⟩⟩

theorem wit_exitSome : Claim.Exits (one (S [])) (.exitW ⟨0⟩) .stop ∧ State.cur (one (S [])) = State.src (one (S []))
    ∧ (one (S [])).pre.wgs = (one (S [])).dev.wgs ∧ succOf (one (S [])) = .unset ∧ (State.src (one (S []))).handler = false
    ∧ ∃ l < 64, (State.src (one (S []))).exited.getLsbD l = false ∧ (one (S [])).ctx.lanes.getLsbD l = false :=
  ⟨.exitW _, by decide +kernel⟩

theorem wit_exitLast : State.cur (S []) = State.src (S []) ∧ (S []).pre.wgs = (S []).dev.wgs ∧ succOf (S []) = .unset
    ∧ (State.src (S [])).exited ||| (S []).ctx.lanes = BitVec.allOnes 64 := by decide +kernel

theorem wit_synchronises : (State.cur (S [])).handler = false ∧ State.cur (S []) = State.src (S [])
    ∧ episode (S []) (BitVec.allOnes 64) = BitVec.allOnes 64 ∧ (S []).ctx.lanes &&& ~~~(BitVec.allOnes 64) = 0 ∧ (S []).ctx.lanes ≠ 0 := by
  decide +kernel

theorem wit_nopReserved : (0x06000028 : Word).extractLsb' 25 6 = 3 ∧ (0x06000028 : Word).extractLsb' 0 5 = 8 ∧ (0x06000028 : Word).extractLsb' 5 20 ≠ 0 := by
  decide +kernel

theorem wit_idle : Idle (.nop ⟨0⟩) ∧ Idle (.lit ⟨0, 1⟩) ∧ Idle (.pf ⟨0, 1, 2, 2⟩) := ⟨.nop _, .lit _, .pf _⟩

/-! ### Memory -/

theorem wit_localStore : (⟨0, 1, 2, 0, 4, 0⟩ : MS).sz.toNat ≤ 4 ∧ LocalPass (C []) 0 2 (storers (C [])) 16
    ∧ DataClean (C []) 1 4 (storers (C [])) ∧ HasRoom (C []) 1 ∧ State.localWaits (C []) (localAt (C []) 0 2) (storers (C [])) 16 true = false :=
  ⟨by decide +kernel, by unfold LocalPass; decide +kernel, by unfold DataClean; decide +kernel, by unfold HasRoom; decide +kernel, by decide +kernel⟩

theorem wit_localAtomic : LocalPass (C []) 0 2 (storers (C [])) 8 ∧ DataClean (C []) 1 4 (storers (C []))
    ∧ LinesPresent (C []) 0 2 (storers (C [])) 8 ∧ HasRoom (C []) 0 ∧ State.localWaits (C []) (localAt (C []) 0 2) (storers (C [])) 8 true = false :=
  ⟨by unfold LocalPass; decide +kernel, by unfold DataClean; decide +kernel, by unfold LinesPresent; decide +kernel,
    by unfold HasRoom; decide +kernel, by decide +kernel⟩

theorem wit_ringBooks : RingBooks ring0 := by unfold RingBooks; decide +kernel

/-- Lane 0 accesses address 0x30000. -/
def G1 : State := one (S [(1, 0x30000)])

theorem wit_prompt : Prompt G1 0 ∧ Prompt G1 1 :=
  ⟨⟨by unfold HasRoom; decide +kernel, by decide +kernel, by decide +kernel, .inl rfl, by decide +kernel, by decide +kernel, by decide +kernel⟩,
    ⟨by unfold HasRoom; decide +kernel, by decide +kernel, by decide +kernel, .inl rfl, by decide +kernel, by decide +kernel, by decide +kernel⟩⟩

theorem allOk {r : Except ε α} {P : α → Prop} (a : α) (h : r.isOk = true) (hp : P (okOr a r)) : ∀ t, r = .ok t → P t := by
  cases r with
  | ok x => intro t ht; cases ht; exact hp
  | error e => cases h

theorem wit_globalLoad : GlobalPass G1 1 2 G1.ctx.lanes 16 ∧ G1.ctx.lanes ≠ 0
    ∧ ∀ l < 64, G1.ctx.lanes.getLsbD l = true → MemoryOnly G1 .r 16 (globalAt G1 1 2 l) :=
  ⟨by unfold GlobalPass; decide +kernel, by decide +kernel,
    lane0 (allOk (r := leafOf G1 .r (globalAt G1 1 2 0) 16) ⟨0, 0, 0, 0⟩ (by decide +kernel) (by decide +kernel))⟩

/-- The translation of lane 0's access. -/
def leaf1 (k : Need) (z : Nat) : Tr := okOr ⟨0, 0, 0, 0⟩ (leafOf G1 k 0x30000 z)

theorem wit_writable (k : Need) (z : Nat) (h : (k, z) ∈ [(.w, 16), (.w, 8), (.w, 4), (.rw, 8), (.rw, 4)]) : Writable G1 k z 0x30000 (leaf1 k z) := by
  have e : ∀ x ∈ ([(.w, 16), (.w, 8), (.w, 4), (.rw, 8), (.rw, 4)] : List (Need × Nat)), (leafOf G1 x.1 0x30000 x.2).isOk = true
      ∧ (leaf1 x.1 x.2).pa + x.2 ≤ 2 ^ 52 ∧ (leaf1 x.1 x.2).attr ≠ 1 ∧ (leaf1 x.1 x.2).attr ≠ 2 := by decide +kernel
  have g := e (k, z) h
  exact ⟨okOr_eq g.1, g.2.1, g.2.2⟩

/-- Lane 0 alone stores, at 0x30000. -/
theorem storers1 : storers G1 = 1#64 := by decide +kernel
theorem at1 : globalAt G1 1 2 0 = 0x30000 := by decide +kernel

/-- The machine whose lane 0 stores at 0x30000 through a leaf with more bits: a replicated page, a mirrored one, a page of device registers; with an address-space record that turns mirroring on; with a copy that has written there. -/
def GP1 (bits : Nat) (mirror : Bool) (raced : List Nat) : State :=
  let d := (if mirror then put else fun d _ _ => d) (onWave (scal [(1, 0x30000)])) 16 (leBytes 8 (2 ^ 47) ++ leBytes 8 0x10000)
  one (at_ { d with
    tlbs := [0, 256, 288].map (fun u => (u, ⟨0, 0, 30, BitVec.ofNat 64 (0x39 + bits)⟩))
    ops := if raced = [] then [] else [{ op0 .cpt 2 with wrote := raced }]
    sys.errbase := 0x50000 })
def leafP (s : State) (z : Nat) : Tr := okOr ⟨0, 0, 0, 0⟩ (leafOf s .w 0x30000 z)

/-- What the store statements ask, of lane 0 alone. -/
theorem stores {s : State} {z : Nat} (h : (leafOf s .w (globalAt s 1 2 0) z).isOk = true ∧ leafOf s .w (globalAt s 1 2 0) z = leafOf s .w 0x30000 z
    ∧ (leafP s z).pa + z ≤ 2 ^ 52
    ∧ (∀ p ∈ landings s (leafP s z), p + z ≤ Device.asRecord s.dev (asidNow s) + 16 ∨ Device.asRecord s.dev (asidNow s) + 32 ≤ p)
    ∧ Device.asRecord s.dev (asidNow s) + 32 ≤ s.dev.sys.errbase.toNat) : Storable s z (globalAt s 1 2 0) (leafP s z) :=
  ⟨h.2.1 ▸ okOr_eq (h.2.1 ▸ h.1), h.2.2.1, h.2.2.2.1, fun _ x _ b c => by have := c.1; omega⟩

/-- The forms of a store's page. -/
def pages : List State := [GP1 0 false [], GP1 (2 ^ 58) false [], GP1 (2 ^ 59) true [], GP1 (2 ^ 59) false [], GP1 (2 ^ 49 + 2 ^ 57) false [], GP1 0 false [0x30001]]

theorem wit_globalStore : ∀ s ∈ pages, GlobalPass s 1 2 (storers s) 4 ∧ DataClean s 3 1 (storers s) ∧ storers s ≠ 0 ∧ Prompt s 1
    ∧ ∀ l < 64, (storers s).getLsbD l = true → Storable s 4 (globalAt s 1 2 l) (leafP s 4) := by
  have e : ∀ s ∈ pages, storers s = 1#64 := by decide +kernel
  have g : ∀ s ∈ pages, (leafOf s .w (globalAt s 1 2 0) 4).isOk = true ∧ leafOf s .w (globalAt s 1 2 0) 4 = leafOf s .w 0x30000 4
    ∧ (leafP s 4).pa + 4 ≤ 2 ^ 52
    ∧ (∀ p ∈ landings s (leafP s 4), p + 4 ≤ Device.asRecord s.dev (asidNow s) + 16 ∨ Device.asRecord s.dev (asidNow s) + 32 ≤ p)
    ∧ Device.asRecord s.dev (asidNow s) + 32 ≤ s.dev.sys.errbase.toNat := by decide +kernel
  have h : ∀ s ∈ pages, GlobalPass s 1 2 1#64 4 ∧ DataClean s 3 1 1#64 := by unfold GlobalPass DataClean; decide +kernel
  have p : ∀ s ∈ pages, HasRoom s 1 ∧ (State.cur s).pend = [] ∧ Device.bindsBefore s.dev s.ctx.wave s.dev.uid = false ∧ s.ctx.defer = false
      ∧ (State.cur s).ended = false ∧ s.ctx.lanes &&& ~~~(Wave.live (State.cur s)) = 0 ∧ Wave.helpers (State.cur s) = Wave.helpers (State.src s) := by
    unfold HasRoom; decide +kernel
  intro s hs
  rw [e s hs]
  let q := p s hs
  exact ⟨(h s hs).1, (h s hs).2, by decide, ⟨q.1, q.2.1, q.2.2.1, .inl q.2.2.2.1, q.2.2.2.2.1, q.2.2.2.2.2.1, q.2.2.2.2.2.2⟩, lane0 (stores (g s hs))⟩

theorem wit_globalAtomic : AtomPlain G1 ⟨0, 3, 2, 1, 14, 0⟩ (fun _ => leaf1 .rw 8) ∧ AtomPlain G1 ⟨0, 3, 2, 1, 14, 0⟩ (fun _ => leaf1 .w 8) := by
  refine ⟨⟨by unfold GlobalPass; decide +kernel, by unfold DataClean; decide +kernel, ?_, by decide +kernel, by decide +kernel⟩,
    ⟨by unfold GlobalPass; decide +kernel, by unfold DataClean; decide +kernel, ?_, by decide +kernel, by decide +kernel⟩⟩
  all_goals rw [storers1]
  all_goals exact lane0 ⟨by decide +kernel, by unfold atomReaches; decide +kernel, by decide +kernel, by decide +kernel⟩

theorem wit_globalAtomicPage : (∀ l < 64, (storers G1).getLsbD l = true → Writable G1 .rw 8 (globalAt G1 1 2 l) (leaf1 .rw 8))
    ∧ ∀ l < 64, (storers G1).getLsbD l = true → Writable G1 .w 8 (globalAt G1 1 2 l) (leaf1 .w 8) := by
  rw [storers1]
  refine ⟨lane0 ?_, lane0 ?_⟩
  all_goals rw [at1]
  · exact wit_writable .rw 8 (by simp)
  · exact wit_writable .w 8 (by simp)

theorem wit_exact : storers G1 ≠ 0 ∧ ExactPass G1 ⟨0, 3, 2, 1, 0⟩ .rw (fun _ => leaf1 .rw 4) ∧ ExactPass G1 ⟨0, 3, 2, 1, 0⟩ .w (fun _ => leaf1 .w 4)
    ∧ DataClean G1 3 1 (storers G1) ∧ Device.holding G1.dev (State.cur G1).core < 16 := by
  refine ⟨by decide +kernel, ⟨by unfold GlobalPass; decide +kernel, ?_⟩, ⟨by unfold GlobalPass; decide +kernel, ?_⟩, by unfold DataClean; decide +kernel,
    by decide +kernel⟩
  all_goals rw [storers1]
  all_goals refine lane0 ⟨?_, by decide +kernel⟩
  · show Writable G1 .rw 4 (globalAt G1 1 2 0) (leaf1 .rw 4)
    rw [at1]
    exact wit_writable .rw 4 (by simp)
  · show Writable G1 .w 4 (globalAt G1 1 2 0) (leaf1 .w 4)
    rw [at1]
    exact wit_writable .w 4 (by simp)

theorem wit_scalarLoad : SmemPass G1 ⟨0, 2, 1, 0⟩ 16 ∧ MemoryOnly G1 .r 16 (smemAt G1 ⟨0, 2, 1, 0⟩) :=
  ⟨by unfold SmemPass; decide +kernel,
    allOk (r := leafOf G1 .r (smemAt G1 ⟨0, 2, 1, 0⟩) 16) ⟨0, 0, 0, 0⟩ (by decide +kernel) (by decide +kernel)⟩

theorem wit_scalarStore : ∀ s ∈ pages, SmemPass s ⟨0, 4, 1, 0⟩ 4 ∧ (∀ i < 1, (State.sc s (4 + i)).p = false) ∧ Prompt s 1 ∧ storers s ≠ 0
    ∧ Storable s 4 (smemAt s ⟨0, 4, 1, 0⟩) (leafP s 4) := by
  have g : ∀ s ∈ pages, SmemPass s ⟨0, 4, 1, 0⟩ 4 ∧ (∀ i < 1, (State.sc s (4 + i)).p = false) ∧ smemAt s ⟨0, 4, 1, 0⟩ = globalAt s 1 2 0
    ∧ (storers s).getLsbD 0 = true := by
    unfold SmemPass; decide +kernel
  intro s hs
  obtain ⟨-, -, h, p, q⟩ := wit_globalStore s hs
  exact ⟨(g s hs).1, (g s hs).2.1, p, h, (g s hs).2.2.1 ▸ q 0 (by decide) (g s hs).2.2.2⟩

/-! ### Engines and traps -/

theorem wit_mayQueue : MayQueue (C []) { opOf (C []) .mclr 3 with ctl := 15 } false := by unfold MayQueue HasRoom; decide +kernel

theorem wit_tget : Device.slotBusy (S []).dev (S []).ctx.wave (S []).ctx.lanes = false := by decide +kernel

/-- The module whose wave has a handler at 96 and a frame at 0x100000. -/
def handled (f : Wave → Wave) : Device := onWave (fun w => f { w with tbas := 96, tfrm := 0x100000 })

/-- The translation of its frame. -/
def leafF (d : Device) : Tr :=
  okOr ⟨0, 0, 0, 0⟩ (Device.translate d (Device.wave d 4).core (Device.asidOf d (Device.wave d 4)) .w (Device.wave d 4).tfrm 16384)

theorem wit_trapEntry : CanEnter (handled (fun w => w)) 4 0x100000 ∧ (Device.wave (handled (fun w => w)) 4).held = []
    ∧ (entriesOf (Device.wave (handled (fun w => { w with pend := [.word 3 (rep 0x40000004 5)] })) 4))[0]? = some (rep 0x40000004 5)
    ∧ CanEnter (handled (fun w => { w with pend := [.word 3 (rep 0x40000004 5)] })) 4 0x100000 :=
  ⟨⟨by decide +kernel, by decide +kernel, ⟨leafF (handled (fun w => w)), by decide +kernel, by decide +kernel, by decide +kernel,
    okOr_eq (by decide +kernel)⟩, by decide +kernel, by decide +kernel⟩, by decide +kernel, by decide +kernel,
    ⟨by decide +kernel, by decide +kernel, ⟨leafF (handled (fun w => w)), by decide +kernel, by decide +kernel, by decide +kernel,
    okOr_eq (by decide +kernel)⟩, by decide +kernel, by decide +kernel⟩⟩

/-- That module, whose frame holds a memory error. -/
def badFrame : Device := { handled (fun w => w) with memErr := [0x20000] }

theorem wit_doubleFault : Doubles (handled (fun w => { w with handler := true })) 4 ∧ Doubles dev0 4
    ∧ Doubles (handled (fun w => { w with tfrm := 2 ^ 40 })) 4 ∧ Doubles badFrame 4
    ∧ Tbl.get? dev0.wgs (Device.wave dev0 4).wg = some (Device.wg dev0 3)
    ∧ Tbl.get? dev0.launches (Device.gang dev0 (Device.wg dev0 3).gang).launch = some (Device.launch dev0 1) :=
  ⟨.handler (by decide +kernel), .base (by decide +kernel), .page 6 (by decide +kernel),
    .memory (leafF badFrame) (okOr_eq (by decide +kernel)) (by decide +kernel), by decide +kernel, by decide +kernel⟩

theorem wit_softTraps : Claim.SoftTraps (.brk ⟨0, 255⟩) 0x10 255 ∧ Claim.SoftTraps (.trapW ⟨0, 5⟩) 0x11 5 := ⟨.brk _, .trap _⟩

/-- The machine in its handler, whose frame is all zero. -/
def H : State := at_ (handled (fun w => { w with handler := true }))

theorem wit_rte : FrameRead H (zeros 1) (zeros 8) (zeros 64) (zeros 2) (zeros 512) ∧ Claim.Returns H (zeros 8) (zeros 512) :=
  ⟨⟨by unfold frameBytes; decide +kernel, by unfold frameBytes; decide +kernel, by unfold frameBytes; decide +kernel, by unfold frameBytes; decide +kernel,
    by unfold frameBytes; decide +kernel⟩,
    by constructor <;> decide +kernel⟩

/-- A test that lane 0 alone is asked for, and fails. -/
theorem fails {f : Nat → Bool} {before : List (Nat → Bool)} (b : before.all (fun g => !(g 0)) = true) (h : f 0 = true) : Fails 1#64 before f 1 0 := by
  refine ⟨fun g hg k hk hb => ?_, ?_, by decide, by decide, fun k hk => absurd hk (Nat.not_lt_zero k)⟩
  · have : k = 0 := lane0 (P := fun k => k = 0) rfl k hk hb
    subst this
    simpa using List.all_eq_true.1 b g hg
  · intro k hk
    by_cases e : (1#64).getLsbD k = true
    · have : k = 0 := lane0 (P := fun k => k = 0) rfl k hk e
      subst this
      simp [h]
    · simp [e]

/-- Lane 0 with a base address; with a poisoned base; with poisoned data in v3; on the fixture with cluster SRAM. -/
def At (a : Word) : State := one (S [(1, a)])
def PB : State := one (W (fun w => Wave.setSc w 1 ⟨0, true⟩))
def PD (s : State) : State := let d := Device.setWave s.dev 4 { Device.wave s.dev 4 with vfix := [(3, { reg0 with pois := 1 })] }; { s with dev := d, pre := d, base := d }
def PL (a : Word) : State := one (C [(1, a)])

theorem wit_addressTraps : OperandTraps PB (.ld ⟨0, 3, 2, 1, 2, 0, 0⟩) 1 0x05 0
    ∧ OperandTraps (one (S [(2, 0x1000000)])) (.ld ⟨0, 3, 3, 1, 2, 0, 0⟩) 1 0x07 (globalAt (one (S [(2, 0x1000000)])) 1 3 0)
    ∧ OperandTraps (At 0x30001) (.dopen ⟨0, 3, 2, 1, 0⟩) 1 0x08 (globalAt (At 0x30001) 1 2 0)
    ∧ OperandTraps (PD (At 0x30000)) (.st ⟨0, 3, 2, 1, 2, 0⟩) 1 0x05 (globalAt (PD (At 0x30000)) 1 2 0)
    ∧ OperandTraps (PD (At 0x30000)) (.atom ⟨0, 3, 2, 1, 0, 0⟩) 1 0x05 (globalAt (PD (At 0x30000)) 1 2 0)
    ∧ OperandTraps (PD (At 0x30000)) (.red ⟨0, 3, 2, 1, 0, 0⟩) 1 0x05 (globalAt (PD (At 0x30000)) 1 2 0)
    ∧ OperandTraps (PD (At 0x30000)) (.dadd ⟨0, 3, 2, 1, 0⟩) 1 0x05 (globalAt (PD (At 0x30000)) 1 2 0)
    ∧ OperandTraps (At 0x30001) (.dclose ⟨0, 3, 2, 1, 0⟩) 1 0x08 (globalAt (At 0x30001) 1 2 0) := by
  have e : ∀ s ∈ [PB, one (S [(2, 0x1000000)]), At 0x30001, PD (At 0x30000)], storers s = 1#64 := by decide +kernel
  have a (s : State) (h : storers s = 1#64) : actors s true = 1#64 := h
  refine ⟨.poison _ _ _ _ _ _ _ _ _ _ _ (.ld _ (by decide)) (fails rfl (by decide +kernel)),
    .canonical _ _ _ _ _ _ _ _ _ _ _ (.ld _ (by decide)) (fails (by decide +kernel) (by decide +kernel)),
    .aligned _ _ _ _ _ _ _ _ _ _ _ (.dopen _) ?_, .data _ _ _ _ _ _ _ _ _ _ _ (.st _ (by decide)) ?_, .data _ _ _ _ _ _ _ _ _ _ _ (.atom _) ?_,
    .data _ _ _ _ _ _ _ _ _ _ _ (.red _) ?_, .data _ _ _ _ _ _ _ _ _ _ _ (.dadd _) ?_, .aligned _ _ _ _ _ _ _ _ _ _ _ (.dclose _) ?_⟩
  all_goals rw [a _ (e _ (by simp))]
  all_goals exact fails (by decide +kernel) (by decide +kernel)

theorem wit_scalarAddressTraps : OperandTraps PB (.sldD ⟨0, 4, 1, 0⟩) 1 0x05 0
    ∧ OperandTraps (one (S [(2, 0x1000000)])) (.sldQ ⟨0, 4, 1, 0⟩) 1 0x07 (smemAt (one (S [(2, 0x1000000)])) ⟨0, 4, 1, 0⟩)
    ∧ OperandTraps (At 0x30002) (.sstW ⟨0, 4, 1, 0⟩) 1 0x08 (smemAt (At 0x30002) ⟨0, 4, 1, 0⟩)
    ∧ OperandTraps (one (W (fun w => Wave.setSc (scal [(1, 0x30000)] w) 5 ⟨0, true⟩))) (.sstD ⟨0, 4, 1, 0⟩) 1 0x05
      (smemAt (one (W (fun w => Wave.setSc (scal [(1, 0x30000)] w) 5 ⟨0, true⟩))) ⟨0, 4, 1, 0⟩) :=
  ⟨.smemPoison _ _ _ _ (.ldD _) nofun (by decide +kernel), .smemFar _ _ _ _ (.ldQ _) nofun (by decide +kernel) (by decide +kernel),
    .smemAligned _ _ _ _ (.stW _) (fun _ => by decide +kernel) (by decide +kernel) (by decide +kernel) (by decide +kernel),
    .smemData _ _ _ (.stD _) (by decide +kernel) (by unfold SmemPass; decide +kernel) (by decide +kernel)⟩

theorem wit_localAddressTraps : OperandTraps (PL 0x800000) (.ldl ⟨0, 3, 2, 1, 2, 0, 0⟩) 1 0x07 (localForm64 (PL 0x800000) 1 2 0)
    ∧ OperandTraps (PL 0x700000) (.ldl ⟨0, 3, 2, 1, 2, 0, 0⟩) 1 0x14 (localForm64 (PL 0x700000) 1 2 0)
    ∧ OperandTraps (PL 4096) (.ldl ⟨0, 3, 2, 1, 2, 0, 0⟩) 1 0x07 (localForm64 (PL 4096) 1 2 0)
    ∧ OperandTraps (PL 1) (.stl ⟨0, 3, 2, 1, 2, 0⟩) 1 0x08 (localForm64 (PL 1) 1 2 0)
    ∧ OperandTraps (PD (PL 0)) (.atoml ⟨0, 3, 2, 1, 0, 0⟩) 1 0x05 (localForm64 (PD (PL 0)) 1 2 0) := by
  have e : ∀ s ∈ [PL 1, PD (PL 0)], storers s = 1#64 := by decide +kernel
  refine ⟨.localOut _ _ _ _ _ _ _ _ _ (.ldl _ (by decide)) (fails (by decide +kernel) (by decide +kernel)),
    .localReach _ _ _ _ _ _ _ _ _ (.ldl _ (by decide)) (fails (by decide +kernel) (by decide +kernel)),
    .localHole _ _ _ _ _ _ _ _ _ (.ldl _ (by decide)) (fails (by decide +kernel) (by decide +kernel)),
    .localAligned _ _ _ _ _ _ _ _ _ (.stl _ (by decide)) ?_, .localData _ _ _ _ _ _ _ _ _ (.atoml _) ?_⟩
  all_goals rw [e _ (by simp)]
  all_goals exact fails (by decide +kernel) (by decide +kernel)

/-- Lane 0 returns by an entry that names no slide; by one whose target is not a multiple of 4. -/
def CE (e : DWord) : State :=
  one (W (fun w => { w with wbs := putAt w.wbs 0 8 0, frames := [(8, ⟨.resident, false, 1, putAt (List.replicate 64 0) 0 e 0⟩)] }))

theorem frameHere {s : State} {x : Frame} (h : s.ctx.lanes = 1#64 ∧ Tbl.get? (State.src s).frames (Wave.wbOf (State.src s) 0) = some x ∧ x.st = .resident) :
    FramesHere s := by
  unfold FramesHere
  rw [h.1]
  refine lane0 (fun y hy => ?_)
  rw [h.2.1] at hy
  cases hy
  rw [h.2.2]
  exact ⟨nofun, nofun⟩

theorem targetFails {s : State} {f : Nat → DWord} {c : BitVec 8} {a : DWord} (h : targetTest s (f 0) = some (c, a)) : TargetFails s 1#64 f c 1 a := by
  refine ⟨0, by decide, by decide, h, fun k hk => absurd hk (Nat.not_lt_zero k), fun k hk => ?_⟩
  by_cases e : (1#64).getLsbD k = true
  · have : k = 0 := lane0 (P := fun k => k = 0) rfl k hk e
    subst this
    rw [h]
    by_cases g : c = 8#8 <;> simp [g]
  · simp [e]

/-- Lane 0 with the scalar pair 12 that a jump or call reads; the handler's lane 0. -/
def J (a b : Word) : State := one (S [(12, a), (13, b)])
def HJ : State := one (at_ (handled (fun w => scal [(12, 192)] { w with handler := true })))
def chosen : State := let d := Device.setWg dev0 3 { Device.wg dev0 3 with succ := .stop }; one (at_ (Device.setWave d 4 (scal [(12, 96)] (Device.wave d 4))))

theorem wit_flowTraps : OperandTraps (J 194 0) (.jmpS ⟨0, 12⟩) 1 0x08 194
    ∧ OperandTraps (J 4 0x100) (.jmpS ⟨0, 12⟩) 1 0x06 0x10000000000
    ∧ OperandTraps (J 194 0) (.calliS ⟨0, 12, 1⟩) 1 0x08 194
    ∧ OperandTraps HJ (.calliS ⟨0, 12, 1⟩) 1 0x09 0
    ∧ OperandTraps (one (W (fun w => scal [(12, 192)] { w with wlim := 48 }))) (.calliS ⟨0, 12, 1⟩) 1 0x09 0
    ∧ OperandTraps (CE 96) (.ret ⟨0⟩) 1 0x03 0
    ∧ OperandTraps (CE (callEntry 1 0x10000000004)) (.ret ⟨0⟩) 1 0x06 0x10000000000
    ∧ OperandTraps (one (W (fun w => scal [(12, 1)] { w with waiting := 2, epmask := 3 }))) (.syncm ⟨0, 12⟩) 1 0x0D 0
    ∧ OperandTraps (J 2 0) (.syncm ⟨0, 12⟩) 1 0x0D 0
    ∧ OperandTraps chosen (.exitS ⟨0, 12⟩) 1 0x13 0
    ∧ OperandTraps (J 97 0) (.exitS ⟨0, 12⟩) 1 0x08 (pairScalar (J 97 0) 12).1 := by
  have t192 : ∀ s ∈ [HJ, one (W (fun w => scal [(12, 192)] { w with wlim := 48 }))],
      targetTest s (pairScalar s (BitVec.toNat (12 : BitVec 8))).1 = none ∧ s.ctx.lanes = 1#64 := by unfold targetTest; decide +kernel
  refine ⟨.target _ 1#64 _ (fun _ => (pairScalar (J 194 0) 12).1) _ _ (.jmpS ⟨0, 12⟩ (by decide +kernel)) (targetFails (by unfold targetTest; decide +kernel)),
    .target _ 1#64 _ (fun _ => (pairScalar (J 4 0x100) 12).1) _ _ (.jmpS ⟨0, 12⟩ (by decide +kernel)) (targetFails (by unfold targetTest; decide +kernel)),
    .callTarget _ 1 _ (fun _ => (pairScalar (J 194 0) 12).1) _ _ (.calliS ⟨0, 12, 1⟩ (by decide +kernel)) (targetFails (by unfold targetTest; decide +kernel)),
    .callOver _ 1 (fun _ => (pairScalar HJ 12).1) (.calliS ⟨0, 12, 1⟩ (by decide +kernel)) ?_ (.inl (by decide +kernel)),
    .callOver _ 1 (fun _ => (pairScalar (one (W (fun w => scal [(12, 192)] { w with wlim := 48 }))) 12).1) (.calliS ⟨0, 12, 1⟩ (by decide +kernel)) ?_
      (.inr (by decide +kernel)),
    .retEntry _ _ 0 (frameHere (x := ⟨.resident, false, 1, putAt (List.replicate 64 0) 0 96 0⟩) (by decide +kernel)) (fails rfl (by decide +kernel)),
    .retTarget _ _ _ _ (frameHere (x := ⟨.resident, false, 1, putAt (List.replicate 64 0) 0 (callEntry 1 0x10000000004) 0⟩) (by decide +kernel))
      (lane0 (by decide +kernel)) (targetFails (by unfold targetTest; decide +kernel)),
    .syncMask _ _ (.syncm ⟨0, 12⟩ (by decide +kernel)) (by decide +kernel),
    .syncLane _ _ (.syncm ⟨0, 12⟩ (by decide +kernel)) (by decide +kernel) (by decide +kernel),
    .exitChoice _ _ (.exitS ⟨0, 12⟩ (by decide +kernel) (by decide +kernel)) (by decide +kernel) (by decide +kernel),
    .exitEntry ⟨0, 12⟩ (by decide +kernel) (by decide +kernel)⟩
  · exact fun l hl hb => (t192 HJ (by simp)).1
  · exact fun l hl hb => (t192 _ (by simp)).1

/-- Lane 0 accesses 0x30000 by a word that a pending trap makes wait. -/
def later : State := let s := At 0x30000; { s with ctx := { s.ctx with defer := true } }

theorem wit_deferred : (∃ n z c st, PerLane (.ld ⟨0, 3, 2, 1, 2, 0, 0⟩) 1 2 0 3 n z c st ∧ Waits later (.ld ⟨0, 3, 2, 1, 2, 0, 0⟩) c ∧ GlobalPass later 1 2 (actors later st) z
      ∧ DataClean later 3 n (actors later st) ∧ actors later st ≠ 0)
    ∧ (∃ n z c st, PerLane (.st ⟨0, 3, 2, 1, 2, 0⟩) 1 2 0 3 n z c st ∧ Waits later (.st ⟨0, 3, 2, 1, 2, 0⟩) c ∧ GlobalPass later 1 2 (actors later st) z
      ∧ DataClean later 3 n (actors later st) ∧ actors later st ≠ 0)
    ∧ (∃ n z c st, PerLane (.atom ⟨0, 3, 2, 1, 0, 0⟩) 1 2 0 3 n z c st ∧ Waits later (.atom ⟨0, 3, 2, 1, 0, 0⟩) c)
    ∧ (∃ n z c st, PerLane (.red ⟨0, 3, 2, 1, 0, 0⟩) 1 2 0 3 n z c st ∧ Waits later (.red ⟨0, 3, 2, 1, 0, 0⟩) c)
    ∧ (∃ n z c st, PerLane (.dopen ⟨0, 3, 2, 1, 0⟩) 1 2 0 3 n z c st ∧ Waits later (.dopen ⟨0, 3, 2, 1, 0⟩) c)
    ∧ (∃ n z c st, PerLane (.dadd ⟨0, 3, 2, 1, 0⟩) 1 2 0 3 n z c st ∧ Waits later (.dadd ⟨0, 3, 2, 1, 0⟩) c)
    ∧ ∃ n z c st, PerLane (.dclose ⟨0, 3, 2, 1, 0⟩) 1 2 0 3 n z c st ∧ Waits later (.dclose ⟨0, 3, 2, 1, 0⟩) c := by
  have w (i : Instr) (c : Nat) (h : c < 2) : Waits later i c := by
    refine ⟨?_, by decide +kernel, by decide +kernel, fun _ => by decide +kernel⟩
    have : ∀ c < 2, HasRoom later c := by unfold HasRoom; decide +kernel
    exact this c h
  exact ⟨⟨_, _, _, _, .ld _ (by decide), w _ _ (by decide), by unfold GlobalPass; decide +kernel, by unfold DataClean; decide +kernel, by decide +kernel⟩,
    ⟨_, _, _, _, .st _ (by decide), w _ _ (by decide), by unfold GlobalPass; decide +kernel, by unfold DataClean; decide +kernel, by decide +kernel⟩,
    ⟨_, _, _, _, .atom _, w _ _ (by decide)⟩, ⟨_, _, _, _, .red _, w _ _ (by decide)⟩, ⟨_, _, _, _, .dopen _, w _ _ (by decide)⟩,
    ⟨_, _, _, _, .dadd _, w _ _ (by decide)⟩, ⟨_, _, _, _, .dclose _, w _ _ (by decide)⟩⟩

theorem wit_handlerFlow : Claim.Calls HJ (.calliS ⟨0, 12, 1⟩) 1 (fun _ => (pairScalar HJ 12).1) ∧ TargetsPass HJ HJ.ctx.lanes (fun _ => (pairScalar HJ 12).1)
    ∧ (State.src HJ).handler = true ∧ Claim.Exits HJ (.exitW ⟨0⟩) .stop ∧ State.cur HJ = State.src HJ ∧ HJ.pre.wgs = HJ.dev.wgs ∧ succOf HJ = .unset
    ∧ (State.src HJ).hexit ||| HJ.ctx.lanes ≠ BitVec.allOnes 64 ∧ Syncs HJ (.sync ⟨0⟩) (BitVec.allOnes 64)
    ∧ episode HJ (BitVec.allOnes 64) = BitVec.allOnes 64 ∧ HJ.ctx.lanes &&& ~~~(BitVec.allOnes 64) = 0 ∧ HJ.ctx.lanes ≠ 0 ∧ (State.cur HJ).waiting = 0 :=
  ⟨.calliS ⟨0, 12, 1⟩ (by decide +kernel), by unfold TargetsPass targetTest; decide +kernel, by decide +kernel, .exitW _, by decide +kernel, by decide +kernel,
    by decide +kernel, by decide +kernel, .sync _, by decide +kernel⟩

/-! ### Rays -/

theorem wit_branchTaken : RayRuns (R ray1) ray1 ∧ brCond ray1 0 0 0 = true ∧ reg ray1 1 ≠ 1 := by unfold RayRuns; decide +kernel

theorem wit_stb : RayRuns (R ray2) ray2 ∧ ray2.stamp = true ∧ ray2.node ≠ []
    ∧ (∃ r' rs k, stamped (R ray2) ray2 ⟨0, 0⟩ = some (r', rs, k)
      ∧ ∃ d, Device.rayWrite (R ray2).dev (rayWave (R ray2)) (touched ray2.nodeAddr r'.node rs) = .ok d) := by
  refine ⟨by unfold RayRuns; decide +kernel, by decide +kernel, by decide +kernel, ?_⟩
  have h : (stamped (R ray2) ray2 ⟨0, 0⟩).isSome = true := by decide +kernel
  refine ⟨_, _, _, okSome_eq (a := (ray2, [], 0)) h, _, okOr_eq (a := dev0) (by decide +kernel)⟩

/-- What the translations of a record's 32 units answer. -/
theorem recordFits {d : Device} {r : Ray} {code detail : Nat} (h : ∀ i < 32,
    (Device.rayTr d (Device.wave d 4) (r.slot 0 + BitVec.ofNat 64 (8 * i), ((r.recordBytes code detail).drop (8 * i)).take 8)).isOk = true) :
    RecordFits d 4 0 r code detail := fun i hi => ⟨_, okOr_eq (a := ⟨0, 0, 0, 0⟩) (h i hi)⟩

theorem wit_rayYield : RayRuns (R ray1) ray1 ∧ RecordFits (R ray1).dev 4 0 (ranOn ray1 (ray1.mpc + 1)) 6 255 :=
  ⟨by unfold RayRuns; decide +kernel, recordFits (by decide +kernel)⟩

theorem wit_rayBudget : Tbl.get? (Device.wave (R ray0).dev (R ray0).ctx.wave).rays (R ray0).ctx.lane = some ray0 ∧ ray0.st = .running ∧ ray0.lim = true
    ∧ ray0.budget = 0 ∧ Instr.isMicro .miNop = true ∧ RecordFits (R ray0).dev 4 0 ray0 5 0 :=
  ⟨by decide +kernel, by decide +kernel, by decide +kernel, by decide +kernel, by decide +kernel, recordFits (by decide +kernel)⟩

/-- A ray that has still to write units of its record. -/
def rayS (l : List Nat) : Ray := { ray1 with st := .suspending, res := 6, detail := 255, todo := l }

theorem wit_rayUnits (l : List Nat) (h : l = [31] ∨ l = [7, 0]) : ∃ n rest d', (rayS l).todo = n :: rest ∧
    Device.rayWrite (R (rayS l)).dev (Device.wave (R (rayS l)).dev 4)
      [((rayS l).slot 0 + BitVec.ofNat 64 (8 * n), (((rayS l).recordBytes (rayS l).res (rayS l).detail).drop (8 * n)).take 8)] = .ok d' := by
  rcases h with rfl | rfl
  · exact ⟨_, _, _, rfl, okOr_eq (a := dev0) (by decide +kernel)⟩
  · exact ⟨_, _, _, rfl, okOr_eq (a := dev0) (by decide +kernel)⟩

/-- A node one of whose bounds is NaN. -/
def rayB : Ray := { ray2 with node := leBytes 4 0x7FC00000 ++ zeros 28 }

theorem wit_setbNan : RayRuns (R rayB) rayB ∧ rayB.stamp = true ∧ ([0x7FC00000, 0, 0, 0, 0, 0] : List Word).any nanW = true
    ∧ ∀ j < 6, rayB.field (boxField rayB.lay.image j) (reg rayB 0).toNat = some (([0x7FC00000, 0, 0, 0, 0, 0] : List Word).getD j 0) := by
  unfold RayRuns; decide +kernel

/-! ### Events -/

theorem wit_thermalStop : 0 < 8 ∧
    120 * 8 ≤ (Device.powerOf (M (fun d => Device.setPower d 0 { Device.powerOf d 0 with temps := [120 * 8] })).dev 0).temps.getD 0 0 := by
  decide +kernel

theorem wit_modeSwitch : ∃ x ∈ (Device.cluster (M (fun d => Device.setCluster d 0
    { Device.cluster d 0 with switching := [⟨7, .spad, 4, 1⟩] })).dev 0).switching, x.bank / 8 = 0 % 8 := by
  decide +kernel

/-- A launch record whose last wave has 61 lanes, with or without helpers. -/
def short (hq : Bool) (n : Nat) : LRec := { LRec.blank with waves := 2, flags := n * 1024 + (if hq then 2 else 0) }

theorem wit_startMasks : (short true 61).nlast = 61 ∧ (short true 61).hq = true ∧ (short false 61).hq = false ∧ 1 + 1 = (short true 61).waves
    ∧ 4 * ((61 - 1) / 4) + 4 = 64 ∧ (startMasks (short true 61) 1) = (0xE000000000000000, 0)
    ∧ startMasks (short false 61) 1 = (0, 0xE000000000000000) ∧ startMasks (short true 61) 0 = (0, 0)
    ∧ startMasks (short true 1) 1 = (0xE, 0xFFFFFFFFFFFFFFF0) ∧ startMasks (short true 0) 1 = (0, 0) := by decide +kernel

/-! ### Traps of words -/

theorem wit_forbidden : Forbidden (S []) (.mfs ⟨0, 1, 0x3B⟩) 0x07 ∧ Forbidden (S []) (.mts ⟨0, 0x3E, 1⟩) 0x07 ∧ Forbidden (S []) (.mts ⟨0, 0x10, 1⟩) 0x03
    ∧ Forbidden (S []) (.tlbinvAll ⟨0⟩) 0x07 ∧ Forbidden (S []) (.rte ⟨0⟩) 0x07 ∧ Forbidden (S []) (.rqr ⟨0, 0⟩) 0x07 ∧ Forbidden (S []) (.rqw ⟨0, 0⟩) 0x07
    ∧ Forbidden (S []) (.rqd ⟨0, 0⟩) 0x07 ∧ Forbidden H (.rqr ⟨0, 0⟩) 0x03 ∧ Forbidden H (.rqw ⟨0, 0⟩) 0x03 ∧ Forbidden H (.rqd ⟨0, 0⟩) 0x03
    ∧ Forbidden (S []) (.barr ⟨0, 0⟩) 0x03 ∧ Forbidden (S []) (.barw ⟨0, 0, 0⟩) 0x03 ∧ Forbidden (S []) (.barwS ⟨0, 1, 0, 0⟩) 0x03
    ∧ Forbidden (S []) (.bart ⟨0, 1, 0, 0⟩) 0x03 ∧ Forbidden (S []) (.mclr ⟨0, 1⟩) 0x07 ∧ Forbidden (S []) (.mstat ⟨0, 1, 0⟩) 0x07
    ∧ Forbidden (S []) (.mload ⟨0, 1, 0⟩) 0x07 ∧ Forbidden (S []) (.mmul ⟨0, 1, 0, 0, 0⟩) 0x07 ∧ Forbidden (S []) (.mmulReg ⟨0, 1, 0, 0, 0⟩) 0x07 :=
  ⟨.mfs _ (by unfold privileged; decide +kernel) (by decide +kernel), .mts _ (by unfold privileged; decide +kernel) (by decide +kernel),
    .mtsRead _ (by decide +kernel), .tlbinvAll _ (by decide +kernel), .rte _ (by decide +kernel), .rqr _ (by decide +kernel), .rqw _ (by decide +kernel),
    .rqd _ (by decide +kernel), .rqrEntry _ (by decide +kernel) (by decide +kernel), .rqwEntry _ (by decide +kernel) (by decide +kernel),
    .rqdEntry _ (by decide +kernel) (by decide +kernel), .barr _ (by decide +kernel), .barw _ (by decide +kernel), .barwS _ (by decide +kernel),
    .bart _ (by decide +kernel), .mclr _ (by unfold OwnsPair; decide +kernel), .mstat _ (by unfold OwnsPair; decide +kernel),
    .mload _ (by unfold OwnsPair; decide +kernel), .mmul _ (by unfold OwnsPair; decide +kernel), .mmulReg _ (by unfold OwnsPair; decide +kernel)⟩

/-- The wave with a poisoned scalar. -/
def PS : State := W (fun w => Wave.setSc w 1 ⟨0, true⟩)

theorem wit_poisonRead : PoisonRead PS (.mts ⟨0, 0x16, 1⟩) ∧ PoisonRead PS (.quota ⟨0, 1⟩) ∧ PoisonRead PS (.bmode ⟨0, 1, 0⟩) ∧ PoisonRead PS (.join ⟨0, 1⟩)
    ∧ PoisonRead PS (.salloc ⟨0, 1⟩) ∧ PoisonRead PS (.sfree ⟨0, 1⟩) ∧ PoisonRead PS (.rinit ⟨0, 1⟩) ∧ PoisonRead PS (.presGet ⟨0, 1⟩)
    ∧ PoisonRead PS (.binit ⟨0, 1, 0⟩) ∧ PoisonRead PS (.jmpS ⟨0, 1⟩) ∧ PoisonRead PS (.exitS ⟨0, 1⟩) ∧ PoisonRead PS (.fmt ⟨0, 1⟩)
    ∧ PoisonRead PS (.mshape ⟨0, 1⟩) ∧ PoisonRead PS (.tapeW ⟨0, 1⟩) ∧ PoisonRead PS (.coll ⟨0, 1⟩) :=
  ⟨.mts _ (by decide +kernel) (by decide +kernel), .quota _ (by decide +kernel), .bmode _ (by decide +kernel), .join _ (by decide +kernel),
    .salloc _ (by decide +kernel), .sfree _ (by decide +kernel), .rinit _ (by decide +kernel), .presGet _ (by decide +kernel), .binit _ (by decide +kernel),
    .jmpS _ (by decide +kernel), .exitS _ (by decide +kernel), .fmt _ (by decide +kernel), .mshape _ (by decide +kernel), .tape _ (by decide +kernel),
    .coll _ (by decide +kernel)⟩

/-! ### Single steps; the expected values are worked from the rules by hand -/

/-- Does a step or a word answer a next state of which something holds. -/
def after (r : Host.Outcome State Fault Refusal) (p : State → Bool) : Bool :=
  match r with
  | .next t => p t
  | _ => false

/-- An element of the fixture's wave. -/
def elemAt (t : State) (n l : Nat) : Word := (Wave.elemOf (Device.wave t.dev 4) (Wave.vid (Device.wave t.dev 4) 0 n) l).v

/-- The fixture with two full vector registers v1 and v2. -/
def two (a b : Word) : State :=
  W (fun w => { w with vfix := [(1, ⟨BitVec.allOnes 64, 0, false, List.replicate 64 a⟩), (2, ⟨BitVec.allOnes 64, 0, false, List.replicate 64 b⟩)] })

theorem test_table_word : decodeTableWord 32 0x06000008 = some (.nop ⟨0⟩) := by decide +kernel

theorem test_step_lid : after (step (State.withFetchWord State.reset 32 0x0CB80004)) (fun t => elemAt t 23 5 == 5 && Wave.pcOf (Device.wave t.dev 4) 5 == 100) = true := by
  decide +kernel

theorem test_step_bad : after (step (line0 0x0600001F)) (fun t => (Device.wave t.dev 4).ended && (Device.launch t.dev 1).err) = true := by decide +kernel

theorem test_add_wraps : after (exec (.addI32 ⟨0, 3, 1, 2, 0, 0⟩) (two 0xFFFFFFFF 2)) (fun t => elemAt t 3 63 == 1) = true := by decide +kernel

theorem test_adds_saturates : after (exec (.addsI32 ⟨0, 3, 1, 2, 0, 0⟩) (two 0x7FFFFFFF 2)) (fun t => elemAt t 3 63 == 0x7FFFFFFF) = true := by
  decide +kernel

theorem test_sub_same_register : after (exec (.subI32 ⟨0, 1, 1, 2, 0, 0⟩) (two 3 5)) (fun t => elemAt t 1 0 == 0xFFFFFFFE) = true := by decide +kernel

theorem test_mulw_signs : after (exec (.mulwI32 ⟨0, 3, 1, 2, 0, 0⟩) (two 0xFFFFFFFF 2)) (fun t => elemAt t 3 0 == 0xFFFFFFFE && elemAt t 4 0 == 0xFFFFFFFF) = true := by
  decide +kernel

theorem test_fadd : after (exec (.faddF32 ⟨0, 3, 1, 2, 0, 0⟩) (two 0x3F800000 0x40000000)) (fun t => elemAt t 3 0 == 0x40400000) = true := by decide +kernel

theorem test_helper_does_not_store :
    after (exec (.st ⟨0, 3, 2, 1, 2, 0⟩) (W (fun w => scal [(1, 0x30000)] { w with helper := BitVec.allOnes 64, vfix := [(3, ⟨1, 0, false, List.replicate 64 7⟩)] })))
      (fun t => t.dev.mem.isEmpty) = true := by decide +kernel

theorem test_store_little_endian :
    after (exec (.st ⟨0, 3, 4, 2, 2, 0⟩) (W (fun w => scal [(2, 0x30000)] { w with vfix := [(3, ⟨BitVec.allOnes 64, 0, false, List.replicate 64 0x11223344⟩)] })))
      (fun t => Memory.read t.dev.mem 0x30000 == 0x44 && Memory.read t.dev.mem 0x30003 == 0x11) = true := by decide +kernel

/-- SHA-256 of no bytes, which FIPS 180-4 gives. -/
theorem test_sha : (sha256 []).take 4 = [0xE3, 0xB0, 0xC4, 0x42] := by decide +kernel

/-! ### Witnesses of the statements that name an instruction by its cases -/

theorem wit_cases_transfer :
    (∃ x y, Claim.Transfer (S []) (.bra ⟨0, 1, 0, 1⟩) x y)
    ∧ (∃ x y, Claim.Transfer (S []) (.sbr ⟨0, 3, 1, 0⟩) x y)
    ∧ (∃ x y, Claim.Transfer (S [(12, 200)]) (.jmpS ⟨0, 12⟩) x y)
    ∧ (∃ x y, Claim.Transfer (S []) (.jmpV ⟨0, 62⟩) x y) :=
  ⟨⟨_, _, .bra _ (by decide +kernel)⟩,
    ⟨_, _, .sbr _ (by decide +kernel)⟩,
    ⟨_, _, .jmpS _ (by decide +kernel)⟩,
    ⟨_, _, .jmpV _ (by decide +kernel)⟩⟩

theorem wit_cases_calls :
    (∃ x y, Claim.Calls (S []) (.call ⟨0, 6, 1⟩) x y)
    ∧ (∃ x y, Claim.Calls (S []) (.calliS ⟨0, 12, 1⟩) x y)
    ∧ (∃ x y, Claim.Calls (S []) (.calliV ⟨0, 12, 6⟩) x y) :=
  ⟨⟨_, _, .call _⟩,
    ⟨_, _, .calliS _ (by decide +kernel)⟩,
    ⟨_, _, .calliV _ (by decide +kernel)⟩⟩

theorem wit_cases_exits :
    (∃ x, Claim.Exits (S []) (.exitW ⟨0⟩) x)
    ∧ (∃ x, Claim.Exits (S [(12, 96)]) (.exitS ⟨0, 12⟩) x) :=
  ⟨⟨_, .exitW _⟩,
    ⟨_, .exitS _ (by decide +kernel) (by decide +kernel)⟩⟩

theorem wit_cases_syncs :
    (∃ x, Claim.Syncs (S []) (.sync ⟨0⟩) x)
    ∧ (∃ x, Claim.Syncs (S [(12, 3)]) (.syncm ⟨0, 12⟩) x) :=
  ⟨⟨_, .sync _⟩,
    ⟨_, .syncm _ (by decide +kernel)⟩⟩

theorem wit_cases_waveEvents_1 :
    (∃ x, Claim.WaveEvents (W (fun w => { w with active := none, stalls := [.ready] })) (.evActiveSlotFill 0 7) x)
    ∧ (∃ x, Claim.WaveEvents (at_ (dev2 (fun w => { w with stalls := [.long] }))) (.evWaveSwap 0 1) x)
    ∧ (∃ x, Claim.WaveEvents (W (fun w => { w with wdog := 4 })) (.evWatchdog 3) x)
    ∧ (∃ x, Claim.WaveEvents (W (fun w => { w with wdog := 4 })) (.evWatchdog 4) x)
    ∧ (∃ x, Claim.WaveEvents (S []) (.evTrapEntry 0x10 0 0 0) x)
    ∧ (∃ x, Claim.WaveEvents (W (fun w => { w with pend := [.word 9 (rep 0x42000008 (2 ^ 40))] })) (.evStoreTranslationFault 4 0) x)
    ∧ (∃ x, Claim.WaveEvents (S []) (.evSoftError 4 (.scal 255)) x)
    ∧ (∃ x, Claim.WaveEvents (S []) (.evSoftError 4 (.flag 3)) x)
    ∧ (∃ x, Claim.WaveEvents (S []) (.evSoftError 4 (.pred 7 63)) x)
    ∧ (∃ x, Claim.WaveEvents (W (fun w => { w with win := [(3, slot .resident)] })) (.evSoftError 4 (.pos 3 0)) x)
    ∧ (∃ x, Claim.WaveEvents (W (fun w => { w with vfix := [(15, reg0)] })) (.evSoftError 4 (.vec 15 0)) x)
    ∧ (∃ x, Claim.WaveEvents (S []) (.evSoftError 4 (.laneState 63)) x) :=
  ⟨⟨_, by refine .fill _ _ 4 [] ?_ ?_ ?_ <;> decide +kernel⟩,
    ⟨_, by refine .swap _ _ 4 5 [] ?_ ?_ ?_ ?_ ⟨.long, ?_, .inl rfl⟩ ?_ <;> decide +kernel⟩,
    ⟨_, by refine .counted _ ?_ ?_ ?_ <;> decide +kernel⟩,
    ⟨_, by refine .expired _ ?_ ?_ ?_ ?_ <;> decide +kernel⟩,
    ⟨_, .entry _ _ _ _ (by decide +kernel)⟩,
    ⟨_, by refine .store _ _ 9 (rep 0x42000008 (2 ^ 40)) ⟨.st, 0, 4, 0, false⟩ 0x06 1 (2 ^ 40) ?_ ?_ ?_ ?_ ?_ ?_ ?_ ⟨rep 0x42000008 (2 ^ 40), ?_⟩ <;> decide +kernel⟩,
    ⟨_, .softScalar _ _ (by decide +kernel) (by decide +kernel)⟩,
    ⟨_, .softFlag _ _ (by decide +kernel)⟩,
    ⟨_, .softPred _ _ _ (by decide +kernel) (by decide +kernel)⟩,
    ⟨_, .softPos _ _ _ reg0 (by decide +kernel) (by decide +kernel)⟩,
    ⟨_, by refine .softVec _ _ _ reg0 ?_ ?_ ?_ <;> decide +kernel⟩,
    ⟨_, .softLane _ _ _ (by decide +kernel) rfl⟩⟩

theorem wit_cases_waveEvents_2 :
    ∃ x, Claim.WaveEvents (M (fun _ => let d := onWave (fun w => { w with ended := true }); Device.setWg d 3 { Device.wg d 3 with succ := .entry 192 })) (.evSuccessorRestart 3) x :=
  ⟨_, .successor _ _ 192 (by rfl) rfl (by decide +kernel) (by decide +kernel)⟩

theorem wit_cases_cassetteEvents_1 :
    (∃ x, Claim.CassetteEvents (W (below .resident)) (.evSpill 4 2 true) x)
    ∧ (∃ x, Claim.CassetteEvents (W crowded) (.evSpill 4 2 true) x)
    ∧ (∃ x, Claim.CassetteEvents (W (fun w => lost (below .resident w))) (.evSpill 4 2 true) x)
    ∧ (∃ x, Claim.CassetteEvents (W (below .spilling)) (.evSpillComplete 4 3 false) x)
    ∧ (∃ x, Claim.CassetteEvents (W (below .spilling)) (.evSpillComplete 4 2 true) x)
    ∧ (∃ x, Claim.CassetteEvents (W (inView .spilling)) (.evSpillComplete 4 3 false) x) :=
  ⟨⟨_, .spill _ _ _ (Device.wave (onWave (below .resident)) 4) _ (by unfold SpillsNow; decide +kernel) (pairNone (by decide +kernel))⟩,
    ⟨_, .spillAhead _ _ _ (Device.wave (onWave crowded) 4) _
      (by unfold SpillsAhead; exact ⟨rfl, by decide +kernel, by decide +kernel, by decide +kernel, by decide +kernel, by decide +kernel, by decide +kernel⟩) (pairNone (by decide +kernel))⟩,
    ⟨_, .spillFault _ _ _ (Device.wave (onWave (fun w => lost (below .resident w))) 4) _ _ _ (by unfold SpillsNow; decide +kernel)
      (pairSome (0, 0) (by decide +kernel))⟩,
    ⟨_, by refine .spilled _ _ _ ?_ ⟨slot .spilling, ?_, rfl⟩ ?_ <;> decide +kernel⟩,
    ⟨_, by refine .spilled _ _ _ ?_ ⟨frame .spilling, ?_, rfl⟩ ?_ <;> decide +kernel⟩,
    ⟨_, by refine .back _ _ _ ?_ ⟨slot .spilling, ?_, rfl⟩ ?_ <;> decide +kernel⟩⟩

theorem wit_cases_cassetteEvents_2 :
    (∃ x, Claim.CassetteEvents (at_ { onWave (posIs .spilled) with mem := [(0x1000018, 1)] }) (.evRefill 4 3 false) x)
    ∧ (∃ x, Claim.CassetteEvents (at_ { onWave (frameIs .spilled) with mem := [(0x1100000, 1)] }) (.evRefill 4 0 true) x)
    ∧ (∃ x, Claim.CassetteEvents (W (fun w => lost (posIs .spilled w))) (.evRefill 4 3 false) x)
    ∧ (∃ x, Claim.CassetteEvents (W (posIs .refilling)) (.evRefillComplete 4 3 false) x)
    ∧ (∃ x, Claim.CassetteEvents (W (frameIs .refilling)) (.evRefillComplete 4 0 true) x)
    ∧ (∃ x, Claim.CassetteEvents (W bareView) (.evRefillComplete 4 3 false) x) :=
  ⟨⟨_, .refill _ _ (Device.wave (onWave (posIs .spilled)) 4) (slot .spilled) _ (by decide +kernel) (by unfold FirstOf Due; decide +kernel) (by decide +kernel)
      (okOr_eq (a := VReg.blank) (by decide +kernel))⟩,
    ⟨_, .refillFrame _ _ (Device.wave (onWave (frameIs .spilled)) 4) _ (by decide +kernel) (by unfold FirstOf Due; decide +kernel)
      (okOr_eq (a := frame .spilled) (by decide +kernel))⟩,
    ⟨_, .refillFault _ _ (Device.wave (onWave (fun w => lost (posIs .spilled w))) 4) _ (by decide +kernel) (by unfold FirstOf Due; decide +kernel)
      (errOr_eq (a := 0) (by decide +kernel))⟩,
    ⟨_, by refine .refilled _ _ (Device.wave (onWave (posIs .refilling)) 4) (slot .refilling) { reg0 with unif := true } ?_ (by unfold FirstOf; decide +kernel)
             ?_ ?_ ?_ ?_ ?_ ?_ <;> decide +kernel⟩,
    ⟨_, by refine .refilledFrame _ _ (Device.wave (onWave (frameIs .refilling)) 4) (frame .refilling)
             { frame .refilling with st := .resident, unif := true } ?_ (by unfold FirstOf; decide +kernel) ?_ ?_ ?_ ?_ ?_ ?_ <;> decide +kernel⟩,
    ⟨_, by refine .refillEmpty _ _ (Device.wave (onWave bareView) 4) ⟨.refilling, VReg.blank, 0⟩ ?_ (by unfold FirstOf; decide +kernel) ?_ ?_ <;> decide +kernel⟩⟩

theorem wit_cases_engineEvents_1 :
    (∃ x, Claim.EngineEvents (W (fun w => { w with outs := [{ id := 9, cls := 0, done := false, dests := [], foot := [(0x3000, 4)] }] })) (.evOperationComplete 4 0) x)
    ∧ (∃ x, Claim.EngineEvents (O { op0 .hxq 4 with snap := some ⟨0x30000, 0, zeros 64⟩ }) (.evOperationComplete 4 4) x)
    ∧ (∃ x, Claim.EngineEvents (O { op0 .trace 5 with phase := 1 }) (.evOperationComplete 4 5) x)
    ∧ (∃ x, Claim.EngineEvents (Q (op0 .mclr 3)) (.evEngineDispatch 0 0) x)
    ∧ (∃ x, Claim.EngineEvents (at_ (let d := Device.setCore dev0 0 { Device.core dev0 0 with queue := [{ op0 .mload 3 with ins := [(0, 1)] }] }; Device.setCluster d 0 { Device.cluster d 0 with rings := [(0, { owner := 3, base := 0, esz := 1, cap := 8, pres := 1, pcom := 1, cres := 0, crel := 0, prods := [], cons := [⟨9, true, 1, false⟩] })] })) (.evEngineOpFire 9) x)
    ∧ (∃ x, Claim.EngineEvents (O { op0 .cpl 2 with phase := 1024 }) (.evCopyArrival 9) x)
    ∧ (∃ x, Claim.EngineEvents (O { op0 .tdesc 2 with scal := [0x30000, 0], reg := 5 }) (.evCopyArrival 9) x)
    ∧ (∃ x, Claim.EngineEvents (O { op0 .tdesc 2 with scal := [0, 256] }) (.evCopyArrival 9) x)
    ∧ (∃ x, Claim.EngineEvents (P (op0 .mclr 3)) (.evPairOpStart 0) x) :=
  ⟨⟨_, by refine .complete _ _ ({ id := 9, cls := 0, done := false, dests := [], foot := [(0x3000, 4)] } : OutOp) ?_ ?_ ?_ ?_ <;> decide +kernel⟩,
    ⟨_, by refine .completeHash _ ({ op0 .hxq 4 with snap := some ⟨0x30000, 0, zeros 64⟩ }) ?_ ?_ ?_ ?_ ?_ ?_ <;> decide +kernel⟩,
    ⟨_, by refine .completeRays _ ({ op0 .trace 5 with phase := 1 }) ?_ ?_ ?_ <;> decide +kernel⟩,
    ⟨_, .dispatch _ _ (op0 .mclr 3) (by decide +kernel)⟩,
    ⟨_, by refine .fire _ 0 ({ op0 .mload 3 with ins := [(0, 1)] }) ?_ ?_ ?_ <;> decide +kernel⟩,
    ⟨_, by refine .arrive _ ({ op0 .cpl 2 with phase := 1024 }) ?_ ?_ ?_ ?_ ?_ ?_ <;> decide +kernel⟩,
    ⟨_, by refine .desc _ ({ op0 .tdesc 2 with scal := [0x30000, 0], reg := 5 }) _ ?_ ?_ ?_ ?_ ?_ ?_ ?_ (okOr_eq (a := []) ?_) <;> decide +kernel⟩,
    ⟨_, by refine .descFault _ ({ op0 .tdesc 2 with scal := [0, 256] }) _ ?_ ?_ ?_ ?_ ?_ ?_ ?_ ?_ ?_ (errOr_eq (a := 0) ?_) <;> decide +kernel⟩,
    ⟨_, by refine .start _ (op0 .mclr 3) ?_ ?_ ?_ (.inr ?_) <;> decide +kernel⟩⟩

/-- A multiplication of pair 0 that stands at a row; a clear of bank 0. -/
def mm (k : Nat) : EngOp := { op0 .mmul 3 with phase := k }
def clr0 : EngOp := { op0 .mclr 3 with phase := 1, ctl := 1 }

theorem wit_cases_engineEvents_2 :
    (∃ x, Claim.EngineEvents (P (mm 1)) (.evRowInjection 0) x)
    ∧ (∃ x, Claim.EngineEvents (P (mm 64)) (.evRowInjection 0) x)
    ∧ (∃ x, Claim.EngineEvents (P clr0) (.evPairOpRetire 0) x)
    ∧ (∃ x, Claim.EngineEvents (P { clr0 with void := true }) (.evPairOpRetire 0) x)
    ∧ (∃ x, Claim.EngineEvents (S []) (.evSlotOpen 0 0x3000 1) x)
    ∧ (∃ x, Claim.EngineEvents (M (fun d => { d with xslots := [⟨0, 0x3000, 1, 0, 0, XSlot.empty⟩] })) (.evSlotAddition 0 0x3000 0x3F800000 1) x)
    ∧ (∃ x, Claim.EngineEvents (M (fun d => { d with xslots := [⟨0, 0x3000, 1, 0, 0, XSlot.empty⟩] })) (.evSlotClose 0 0x3000) x) :=
  ⟨⟨_, by refine .row _ (mm 1) _ _ ?_ ?_ ?_ ?_ ?_ ?_ (pairEta _) ?_ ?_ <;> decide +kernel⟩,
    ⟨_, by refine .lastRow _ (mm 64) _ _ ?_ ?_ ?_ ?_ ?_ (pairEta _) ?_ ?_ <;> decide +kernel⟩,
    ⟨_, by refine .retire _ clr0 _ _ ?_ ?_ ?_ ?_ ?_ (pairEta _) ?_ <;> decide +kernel⟩,
    ⟨_, by refine .retireVoid _ { clr0 with void := true } _ _ ?_ ?_ ?_ (pairEta _) ?_ <;> decide +kernel⟩,
    ⟨_, .slotOpen _ _ _ (by decide +kernel) (by decide +kernel)⟩,
    ⟨_, .slotAdd _ _ _ _ ⟨0, 0x3000, 1, 0, 0, XSlot.empty⟩ (by decide +kernel)⟩,
    ⟨_, .slotClose _ _ ⟨0, 0x3000, 1, 0, 0, XSlot.empty⟩ (by decide +kernel)⟩⟩

/-- A word on a version header at 0x30000, and the wave that has bound it. -/
def ver (k : EngKind) : EngOp := { op0 k 4 with scal := [0x30000, 0] }
def bound0 : VBind := ⟨0x30000, 0, zeros 256⟩
def bound : State := at_ { onWave (fun w => { w with vbind := some bound0 }) with ops := [ver .vbind] }

theorem wit_cases_engineEvents_3 :
    (∃ x, Claim.EngineEvents (O (ver .hxcfg)) (.evVersionStep 9) x)
    ∧ (∃ x, Claim.EngineEvents (O (ver .vpub)) (.evVersionStep 9) x)
    ∧ (∃ x, Claim.EngineEvents bound (.evVersionStep 9) x)
    ∧ (∃ x, Claim.EngineEvents (M (fun d => { d with pins := [⟨0x30000, 1, 0, 0, 4, 9, 0⟩] })) (.evBindingRelease 0) x)
    ∧ (∃ x, Claim.EngineEvents (W (fun w => { w with rays := [(0, ray0)] })) (.evBudgetExhausted 4 0) x) :=
  ⟨⟨_, by refine .config _ (ver .hxcfg) _ _ ?_ ?_ ?_ ?_ (pairEta _) <;> decide +kernel⟩,
    ⟨_, by refine .version _ (ver .vpub) _ _ ?_ ?_ ?_ ?_ (pairEta _) <;> decide +kernel⟩,
    ⟨_, by refine .bind _ (ver .vbind) bound0 _ _ ?_ ?_ ?_ ?_ ?_ ?_ ?_ ?_ (pairEta _) <;> decide +kernel⟩,
    ⟨_, .release _ ⟨0x30000, 1, 0, 0, 4, 9, 0⟩ (by decide +kernel) (by decide +kernel)⟩,
    ⟨_, by refine .budget _ _ ray0 ?_ ?_ ?_ ?_ (recordFits ?_) <;> decide +kernel⟩⟩

theorem wit_cases_powerEvents_1 :
    (∃ x, Claim.PowerEvents (M (fun d => Device.setPower d 0 { Device.powerOf d 0 with idle := [6] })) (.evTokenHop 0 0) x)
    ∧ (∃ x, Claim.PowerEvents (M (fun d => Device.setPower d 0 { Device.powerOf d 0 with idle := [7], owed := 1 })) (.evTokenHop 0 0) x)
    ∧ (∃ x, Claim.PowerEvents (at_ (Device.setPower (onWave (fun w => { w with stalls := [.token 0] })) 0 { Device.powerOf dev0 0 with idle := [7], pool := 1 })) (.evTokenHop 0 0) x)
    ∧ (∃ x, Claim.PowerEvents (M (fun d => Device.setPair d 0 { Device.pair d 0 with token := true, accept := true, quiet := 33, age := 33 })) (.evBurstQuietClose 0) x)
    ∧ (∃ x, Claim.PowerEvents (M (fun d => Device.setPair d 0 { Device.pair d 0 with token := true, accept := true, age := 8192 })) (.evBurstTimeLimit 0) x)
    ∧ (∃ x, Claim.PowerEvents (M (fun d => Device.setPair d 0 { Device.pair d 0 with token := true, accept := false })) (.evTokenRelease 0) x)
    ∧ (∃ x, Claim.PowerEvents (M (fun d => Device.setCluster d 0 { Device.cluster d 0 with rampRows := 64, ramp := 8 })) (.evRampStep 0) x)
    ∧ (∃ x, Claim.PowerEvents (M (fun d => Device.setPower d 0 { Device.powerOf d 0 with temps := [115 * 8] })) (.evThermalTripWarning 0 0) x)
    ∧ (∃ x, Claim.PowerEvents (M (fun d => Device.setIsland d 43 (fun _ => islandWord (40 * 2 ^ 22) 600 1000))) (.evMarginMeasurement 43 30) x)
    ∧ (∃ x, Claim.PowerEvents (M (fun d => Device.setIsland d 5 (fun _ => islandWord (40 * 2 ^ 22) 775 1000))) (.evMarginMeasurement 5 30) x)
    ∧ (∃ x, Claim.PowerEvents (M (fun d => Device.setIsland (Device.setPower d 0 { Device.powerOf d 0 with plans := putAt [] 43 { Plan.reset with lift := 20 } Plan.reset }) 43 (fun _ => islandWord (40 * 2 ^ 22) 600 1000))) (.evMarginMeasurement 43 50) x)
    ∧ (∃ x, Claim.PowerEvents (S []) (.evTimingReplay 0) x)
    ∧ (∃ x, Claim.PowerEvents (S []) (.evReplayRateStep 0 true 3) x)
    ∧ (∃ x, Claim.PowerEvents (S []) (.evReplayRateStep 0 false 3) x) :=
  ⟨⟨_, by refine .hop _ _ 6 ?_ ?_ ?_ <;> decide +kernel⟩,
    ⟨_, by refine .withdrawn _ _ 7 ?_ ?_ ?_ <;> decide +kernel⟩,
    ⟨_, by refine .taken _ _ 7 0 ?_ ?_ ?_ <;> decide +kernel⟩,
    ⟨_, by refine .quiet _ ?_ ?_ ?_ ?_ <;> decide +kernel⟩,
    ⟨_, by refine .limit _ ?_ ?_ ?_ <;> decide +kernel⟩,
    ⟨_, by refine .release _ ?_ ?_ ?_ ?_ <;> decide +kernel⟩,
    ⟨_, .ramp _ (by decide +kernel)⟩,
    ⟨_, .warning _ _ (by decide) (by decide +kernel)⟩,
    ⟨_, by refine .shrunk _ 610 1000 _ _ _ _ _ rfl rfl rfl ?_ ?_ ?_ rfl ?_ <;> first | (unfold UnderCeilings; decide +kernel) | decide +kernel⟩,
    ⟨_, by refine .lowered _ 785 999 _ _ _ _ _ rfl rfl rfl ?_ ?_ ?_ rfl ⟨?_, ?_, .inr ⟨5, ?_⟩⟩ <;> decide +kernel⟩,
    ⟨_, .grown _ _ _ _ _ rfl rfl rfl (by decide +kernel) (by decide +kernel)⟩,
    ⟨_, .replay _⟩,
    ⟨_, .rateUp _ _⟩,
    ⟨_, .rateDown _ _⟩⟩

theorem wit_cases_powerEvents_2 :
    (∃ x, Claim.PowerEvents (M (fun d => Device.setIsland d (clockIsland 0) (fun _ => islandWord 0 600 401))) (.evReplayThrottle 0 25) x)
    ∧ (∃ x, Claim.PowerEvents (M (fun d => Device.setIsland d (clockIsland 0) (fun _ => islandWord 0 600 400))) (.evReplayThrottle 0 25) x)
    ∧ (∃ x, Claim.PowerEvents (M (fun d => Device.setPower d 0 { Device.powerOf d 0 with rej := true })) (.evPstatRead 0) x)
    ∧ (∃ x, Claim.PowerEvents (S []) (.evCoreCycle 0) x) :=
  ⟨⟨_, .throttle _ _ (by decide +kernel)⟩,
    ⟨_, .fenced _ _ (by decide +kernel)⟩,
    ⟨_, .pstat _⟩,
    ⟨_, .cycle _⟩⟩

theorem wit_cases_clusterEvents :
    (∃ x, Claim.ClusterEvents (S []) (.evL1LineRefresh 0 96) x)
    ∧ (∃ x, Claim.ClusterEvents (M (fun d => { d with fills := [⟨9, 0, 5, 1, false⟩] })) (.evZeroFill 0) x)
    ∧ (∃ x, Claim.ClusterEvents (M (fun d => { d with fills := [⟨9, 0, 5, 2, false⟩] })) (.evZeroFill 0) x)
    ∧ (∃ x, Claim.ClusterEvents (M (fun d => { d with fills := [⟨9, 0, 5, 1, true⟩] })) (.evZeroFill 0) x)
    ∧ (∃ x, Claim.ClusterEvents (M (fun d => { d with fills := [⟨9, 0, 5, 2, true⟩] })) (.evZeroFill 0) x)
    ∧ (∃ x, Claim.ClusterEvents (S []) (.evPacketArrival 0 0 0) x) :=
  ⟨⟨_, .refresh _ _⟩,
    ⟨_, by refine .zeroLast _ (⟨9, 0, 5, 1, false⟩) ?_ ?_ ?_ <;> decide +kernel⟩,
    ⟨_, by refine .zeroMore _ (⟨9, 0, 5, 2, false⟩) ?_ ?_ ?_ <;> decide +kernel⟩,
    ⟨_, by refine .zeroRing _ (⟨9, 0, 5, 1, true⟩) ?_ ?_ ?_ <;> decide +kernel⟩,
    ⟨_, by refine .zeroRingMore _ (⟨9, 0, 5, 2, true⟩) ?_ ?_ ?_ <;> decide +kernel⟩,
    ⟨_, .packet _ _ _ (okSome [] (Device.lineWords dev0 0 0 0)) (by decide +kernel)⟩⟩

/-- The fixture's message, and the module without it. -/
def msg0 : PMsg := ⟨0, 0, 1, 0, zeros 16⟩
def pelT (word : Nat) : Device := Device.setPel (pelM word) 0 { Device.pel (pelM word) 0 with msgs := [] }
/-- A program that forwards to die 1, where its link is stopped; one that has taken its message. -/
def toDie1 (word : Nat) : PProg := { prog0 word with toR := 1 }
def stopped1 (word : Nat) (ms : List PMsg) : Device := Device.setPel dev0 0 { Device.pel dev0 0 with running := some (toDie1 word), msgs := ms, stops := [1] }
def took (word : Nat) : PProg := { prog0 word with hop := 1, taken := some msg0 }

theorem wit_cases_pelotonEvents_1 :
    (∃ x, Claim.PelotonEvents (M (fun d => Device.setPel d 0 { Device.pel d 0 with queue := [prog0 0] })) 0 (.evProgramStart 0) x)
    ∧ (∃ x, Claim.PelotonEvents (G (PData.word 1 pd)) 0 (.evSend 0 pd) x)
    ∧ (∃ x, Claim.PelotonEvents (GM (PData.word 2 pd)) 0 (.evRecv 0 pd) x)
    ∧ (∃ x, Claim.PelotonEvents (GM (PData.word 3 pd)) 0 (.evRrs 0 pd) x)
    ∧ (∃ x, Claim.PelotonEvents (GP (took (PData.word 3 pd))) 0 (.evRrs 0 pd) x)
    ∧ (∃ x, Claim.PelotonEvents (GM (PData.word 4 pd)) 0 (.evRrw 0 pd) x)
    ∧ (∃ x, Claim.PelotonEvents (G (PData.word 5 pd)) 0 (.evCopy 0 pd) x)
    ∧ (∃ x, Claim.PelotonEvents (G (6 * 2 ^ 58)) 0 (.evWait 0 0 0 0 0) x)
    ∧ (∃ x, Claim.PelotonEvents (G (7 * 2 ^ 58 + 3)) 0 (.evPelotonLoop 0 0 3) x)
    ∧ (∃ x, Claim.PelotonEvents (GP { prog0 (8 * 2 ^ 58) with ls := [some 0, none, none, none], cs := [1, 0, 0, 0] }) 0 (.evEndl 0 0) x)
    ∧ (∃ x, Claim.PelotonEvents (G (9 * 2 ^ 58)) 0 (.evPeer 0 0 0 0 0 0) x)
    ∧ (∃ x, Claim.PelotonEvents (G (10 * 2 ^ 58 + 7)) 0 (.evSrk 0 7) x)
    ∧ (∃ x, Claim.PelotonEvents (G (11 * 2 ^ 58 + 1)) 0 (.evDone 0 0 0 1) x) :=
  ⟨⟨_, .start (prog0 0) [] (by decide +kernel) (by decide +kernel) (by intro o h; cases h)⟩,
    ⟨_, by refine .send _ (prog0 (PData.word 1 pd)) (zeros 16) _ ⟨?_, ?_, ?_, ?_, ?_, ?_⟩ ?_ ?_ (okSome_eq (a := dev0) ?_) <;> decide +kernel⟩,
    ⟨_, by refine .recv _ (prog0 (PData.word 2 pd)) _ msg0 (pelT (PData.word 2 pd)) _ ⟨?_, ?_, ?_, ?_, ?_, ?_⟩ ⟨[], ?_, rfl, ?_, rfl⟩ rfl (pairNone ?_) <;> decide +kernel⟩,
    ⟨_, by refine .rrs _ (prog0 (PData.word 3 pd)) msg0 (pelT (PData.word 3 pd)) _ ⟨?_, ?_, ?_, ?_, ?_, ?_⟩ ?_ ⟨[], ?_, rfl, ?_, rfl⟩ ?_ ?_ ⟨zeros 16, ?_, okSome_eq (a := dev0) ?_⟩ <;> decide +kernel⟩,
    ⟨_, by refine .rrsLater _ (took (PData.word 3 pd)) msg0 _ ⟨?_, ?_, ?_, ?_, ?_, ?_⟩ ?_ ?_ ?_ ⟨zeros 16, ?_, okSome_eq (a := dev0) ?_⟩ <;> decide +kernel⟩,
    ⟨_, by refine .rrw _ (prog0 (PData.word 4 pd)) _ msg0 (pelT (PData.word 4 pd)) _ ⟨?_, ?_, ?_, ?_, ?_, ?_⟩ ⟨[], ?_, rfl, ?_, rfl⟩ ?_ rfl (pairNone ?_) <;> decide +kernel⟩,
    ⟨_, by refine .copy _ (prog0 (PData.word 5 pd)) _ _ ⟨?_, ?_, ?_, ?_, ?_, ?_⟩ rfl (pairNone ?_) <;> decide +kernel⟩,
    ⟨_, by refine .wait _ _ _ _ (prog0 (6 * 2 ^ 58)) (zeros 8) ⟨?_, ?_, ?_, ?_, ?_, ?_⟩ ?_ ?_ <;> decide +kernel⟩,
    ⟨_, by refine .loop _ _ (prog0 (7 * 2 ^ 58 + 3)) ⟨?_, ?_, ?_, ?_, ?_, ?_⟩ ?_ <;> decide +kernel⟩,
    ⟨_, by refine .endl _ { prog0 (8 * 2 ^ 58) with ls := [some 0, none, none, none], cs := [1, 0, 0, 0] } 0 ⟨?_, ?_, ?_, ?_, ?_, ?_⟩ ?_ ?_ <;> decide +kernel⟩,
    ⟨_, by refine .peer _ _ _ _ _ (prog0 (9 * 2 ^ 58)) 0 ⟨?_, ?_, ?_, ?_, ?_, ?_⟩ ?_ <;> decide +kernel⟩,
    ⟨_, by refine .srk _ (prog0 (10 * 2 ^ 58 + 7)) ⟨?_, ?_, ?_, ?_, ?_, ?_⟩ <;> decide +kernel⟩,
    ⟨_, by refine .done _ _ _ (prog0 (11 * 2 ^ 58 + 1)) _ ⟨?_, ?_, ?_, ?_, ?_, ?_⟩ (okOr_eq (a := dev0) ?_) <;> decide +kernel⟩⟩

theorem wit_cases_pelotonEvents_2 :
    (∃ x, Claim.PelotonEvents (GP { prog0 (12 * 2 ^ 58) with cover := some (0, 16) }) 0 (.evStepx 0 0 0) x)
    ∧ (∃ x, Claim.PelotonEvents (S []) 0 (.evMessageArrival 0 ⟨4, 0, 1, 0, zeros 16⟩) x)
    ∧ (∃ x, Claim.PelotonEvents (G (10 * 2 ^ 58)) 0 (.evAbortFlit 0 1) x)
    ∧ (∃ x, Claim.PelotonEvents (G (10 * 2 ^ 58)) 0 (.evAbortFlit 0 0) x)
    ∧ (∃ x, Claim.PelotonEvents (S []) 0 (.evLinkStop 0 5 true) x)
    ∧ (∃ x, Claim.PelotonEvents (M (fun d => Device.setPel d 1 { Device.pel d 1 with aborts := List.replicate 28673 0 })) 0 (.evLinkStop 0 1 true) x)
    ∧ (∃ x, Claim.PelotonEvents (S []) 0 (.evLinkStop 0 7 false) x)
    ∧ (∃ x, Claim.PelotonEvents (S []) 0 (.evLinkStop 0 2 false) x)
    ∧ (∃ x, Claim.PelotonEvents (S []) 0 (.evPflush 0 (2 ^ 63 + 9)) x)
    ∧ (∃ x, Claim.PelotonEvents (S []) 0 (.evPstepWrite 0 7 2) x)
    ∧ (∃ x, Claim.PelotonEvents (at_ (stopped1 (PData.word 3 pd) [msg0])) 0 (.evRrs 0 pd) x) :=
  ⟨⟨_, by refine .stepx _ _ { prog0 (12 * 2 ^ 58) with cover := some (0, 16) } 0 16 (zeros 4) ⟨?_, ?_, ?_, ?_, ?_, ?_⟩ ?_ ?_ ?_ <;> decide +kernel⟩,
    ⟨_, by refine .message _ ?_ ?_ (.inl ?_) <;> decide +kernel⟩,
    ⟨_, .abortWaits _ (by intro p hp _; cases hp; decide +kernel)⟩,
    ⟨_, by refine .abort _ (prog0 (10 * 2 ^ 58)) ?_ ?_ ?_ ?_ <;> decide +kernel⟩,
    ⟨_, .stop _ (.inl (by decide +kernel))⟩,
    ⟨_, .stop _ (.inr (by decide +kernel))⟩,
    ⟨_, .go _ (.inl (by decide +kernel))⟩,
    ⟨_, .go _ (.inr (by decide +kernel))⟩,
    ⟨_, .flush _ (by decide +kernel) (by decide +kernel)⟩,
    ⟨_, .pstep _ _ (by decide +kernel) (by decide +kernel)⟩,
    ⟨_, by refine .rrsHeld _ (toDie1 (PData.word 3 pd)) msg0 (stopped1 (PData.word 3 pd) []) ⟨?_, ?_, ?_, ?_, ?_, ?_⟩ ?_ ⟨[], ?_, rfl, ?_, rfl⟩ ?_ ?_ <;> decide +kernel⟩⟩

theorem wit_cases_queueEvents_1 :
    (∃ x, Claim.QueueEvents (at_ (Device.setQueue (dev0) 0 { queue1 with wr := 0, stat := 0 })) (.evDoorbell 0 16 2) x)
    ∧ (∃ x, Claim.QueueEvents (at_ (Device.setQueue (dev0) 0 { queue1 with wr := 0, stat := 0 })) (.evDoorbell 0 17 2) x)
    ∧ (∃ x, Claim.QueueEvents (at_ (Device.setQueue (dev0) 0 { queue1 with susp := false })) (.evLaunchEntry 0) x)
    ∧ (∃ x, Claim.QueueEvents (at_ (Device.setQueue (dev0) 0 { queue1 with rbase := 2 ^ 40 })) (.evLaunchEntry 0) x)
    ∧ (∃ x, Claim.QueueEvents (at_ (qRec (zeros 256))) (.evLaunchEntry 0) x)
    ∧ (∃ x, Claim.QueueEvents (at_ (qRec rec0)) (.evLaunchEntry 0) x)
    ∧ (∃ x, Claim.QueueEvents (at_ (Device.setQueue (dev0) 0 { queue1 with head := .tape none })) (.evTapeRun 0) x)
    ∧ (∃ x, Claim.QueueEvents (at_ (Device.setQueue (put dev0 0x20000 (leBytes 8 0x30000)) 0 { queue1 with head := .tape none, ttop := 1 })) (.evTapeRun 0) x)
    ∧ (∃ x, Claim.QueueEvents (at_ (Device.setQueue (put dev0 0x10000 (leBytes 8 3 ++ leBytes 8 1)) 0 { queue1 with used := 9 })) (.evFrameMark 0) x)
    ∧ (∃ x, Claim.QueueEvents (at_ (qWait { Launch.blank with lrec := { LRec.of rec0 with cond0 := (0x40000, 0) } })) (.evLaunchConditionsHold 0 0) x)
    ∧ (∃ x, Claim.QueueEvents (at_ (qLaunch { Launch.blank with lrec := LRec.of rec0, c0 := true, c1 := true })) .evPlaceGang x)
    ∧ (∃ x, Claim.QueueEvents (at_ back1) .evPlaceGang x) :=
  ⟨⟨_, by refine .doorbell _ _ _ ?_ ?_ ?_ ?_ ?_ <;> decide +kernel⟩,
    ⟨_, by refine .tooFar _ _ _ ?_ ?_ ?_ ?_ ?_ <;> decide +kernel⟩,
    ⟨_, .badEntry _ (by decide +kernel)⟩,
    ⟨_, .unread _ 0x06 (by decide +kernel)⟩,
    ⟨_, by refine .badRecord _ 0x30000 (zeros 256) ?_ ?_ ?_ <;> decide +kernel⟩,
    ⟨_, by refine .launch _ 0x30000 rec0 ?_ ?_ ?_ <;> decide +kernel⟩,
    ⟨_, by refine .tapeEmpty _ ?_ ?_ ?_ ?_ ?_ <;> decide +kernel⟩,
    ⟨_, by refine .tape _ (leBytes 8 0x30000) ?_ ?_ ?_ ?_ ?_ ?_ ?_ ?_ <;> decide +kernel⟩,
    ⟨_, .mark _ 1 (by decide +kernel)⟩,
    ⟨_, by refine .condition _ 7 (zeros 8) ?_ ?_ ?_ ?_ ?_ ?_ ?_ <;> decide +kernel⟩,
    ⟨_, .placeHead 0 1 _ _ rfl (by decide +kernel) rfl (by decide +kernel)⟩,
    ⟨_, .placeBack saved1 8 _ rfl (by decide +kernel) (by decide +kernel)⟩⟩

/-- The wave has ended while a zero-fill of its workgroup's allocation still runs. -/
def busy : Device :=
  let d := dev3 (fun w => { w with ended := true }) { ring0 with prods := [], cons := [] }
  { d with fills := [⟨9, 0, 5, 1, false⟩] }

theorem wit_cases_queueEvents_2 :
    (∃ x, Claim.QueueEvents (at_ (let d := (qLaunch { Launch.blank with lrec := LRec.of rec0, c0 := true, c1 := true }); Device.setQueue d 0 { Device.queue d 0 with tries := 64 })) (.evClusterDrain 0) x)
    ∧ (∃ x, Claim.QueueEvents (at_ (Device.setQueue dev0 0 { queue1 with tbase := 2 ^ 40, head := .tape none, ttop := 1 })) (.evTapeRun 0) x)
    ∧ (∃ x, Claim.QueueEvents (at_ (Device.setQueue dev0 0 queue1)) (.evDoorbell 0 0 2) x)
    ∧ (∃ x, Claim.QueueEvents (M (fun d => Device.setDie (Device.setGang d 2 { Device.gang d 2 with st := .saving }) 0 { Device.die d 0 with svbase := 0x1000000, svcnt := 1 })) (.evPreemptionComplete 2) x)
    ∧ (∃ x, Claim.QueueEvents (at_ (Device.setQueue (onWave (fun w => { w with launches := [⟨0x30000, 0, 1⟩] })) 0 queue1)) (.evPendingLaunchAppend 4) x)
    ∧ (∃ x, Claim.QueueEvents (at_ (Device.setQueue (dev0) 0 { queue1 with ctl := 2, budget := 5, used := 5 })) (.evBackgroundBudgetReached 0) x)
    ∧ (∃ x, Claim.QueueEvents (W (fun w => { w with ended := true })) (.evWorkgroupRetire 3) x)
    ∧ (∃ x, Claim.QueueEvents (at_ busy) (.evWorkgroupRetire 3) x)
    ∧ (∃ x, Claim.QueueEvents (M (fun d => Device.setLaunch d 7 { Launch.blank with lrec := LRec.of rec0, next := 1, c0 := true, c1 := true })) (.evLaunchRetire 7) x) :=
  ⟨⟨_, by refine .drain _ 1 _ rfl ?_ ?_ ?_ ?_ ?_ <;> decide +kernel⟩,
    ⟨_, by refine .tapeUnread _ 6 ?_ ?_ ?_ ?_ ?_ ?_ <;> decide +kernel⟩,
    ⟨_, by refine .doorbell _ _ _ ?_ ?_ ?_ ?_ ?_ <;> decide +kernel⟩,
    ⟨_, by refine .preempted _ { Device.gang dev0 2 with st := .saving } ?_ ?_ ?_ ?_ <;> decide +kernel⟩,
    ⟨_, by refine .append _ ⟨0x30000, 0, 1⟩ _ queue1 ?_ ?_ ?_ ?_ ?_ (okOr_eq (a := dev0) ?_) ?_ <;> decide +kernel⟩,
    ⟨_, by refine .budget _ ?_ ?_ ?_ <;> decide +kernel⟩,
    ⟨_, by refine .workgroup _ (Device.wg dev0 3) _ ?_ (.inr (by intro e h; cases h)) ?_ ?_ ?_ ?_ ?_ rfl <;> decide +kernel⟩,
    ⟨_, by refine .unbinds _ (Device.wg busy 3) ?_ (.inr (by intro e h; cases h)) ?_ ?_ ?_ ?_ ?_ <;> decide +kernel⟩,
    ⟨_, by refine .launchDone _ { Launch.blank with lrec := LRec.of rec0, next := 1, c0 := true, c1 := true } ?_ ?_ ?_ ?_ ?_ <;> decide +kernel⟩⟩

theorem wit_cases_hostEvents_1 :
    (∃ x, Claim.HostEvents (at_ (let d := (put dev0 0x50000 (leBytes 8 0x10000 ++ [4, 0, 0, 0] ++ zeros 12 ++ leBytes 8 0x20000)); { d with sys := { d.sys with bootst := 6, qtb := 0x50000 } })) (.evQcmdEnable 0 2) x)
    ∧ (∃ x, Claim.HostEvents (at_ (Device.setQueue (dev0) 0 { queue1 with susp := false })) (.evQcmdDisable 0 2) x)
    ∧ (∃ x, Claim.HostEvents (M (fun d => Device.setQueue d 5 queue1)) (.evQcmdSuspend 5 2) x)
    ∧ (∃ x, Claim.HostEvents (at_ (Device.setQueue (dev0) 0 { queue1 with susp := false })) (.evQcmdSuspend 0 2) x)
    ∧ (∃ x, Claim.HostEvents (at_ (Device.setQueue (dev0) 0 { queue1 with susp := false })) (.evQcmdKill 0 2) x)
    ∧ (∃ x, Claim.HostEvents (S []) (.evQcmdKill 0 1) x)
    ∧ (∃ x, Claim.HostEvents (S []) (.evKilll 0 2) x)
    ∧ (∃ x, Claim.HostEvents (S []) (.evKilll 7 2) x)
    ∧ (∃ x, Claim.HostEvents (S []) (.evKeyLoad (2 ^ 63 + 5) 2) x)
    ∧ (∃ x, Claim.HostEvents (S []) (.evRegisterWrite 0 0x008 8 0x40000 2) x)
    ∧ (∃ x, Claim.HostEvents (at_ (let d := dev0; { d with sys := { d.sys with linkst := 2 ^ 16 } })) (.evHostBarAccess 0 0 8 (.wr (zeros 8))) x)
    ∧ (∃ x, Claim.HostEvents (at_ (let d := dev0; { d with sys := { d.sys with linkst := 2 ^ 16 } })) (.evHostBarAccess 0 2 8 (.wr [7])) x) :=
  ⟨⟨_, by refine .enable _ _ ?_ ?_ ?_ ?_ ?_ <;> decide +kernel⟩,
    ⟨_, .disable _ _ (by decide +kernel) (by decide +kernel)⟩,
    ⟨_, by refine .suspend _ _ ?_ ?_ ?_ <;> decide +kernel⟩,
    ⟨_, by refine .noRoom _ _ 0 ?_ ?_ ?_ ?_ <;> decide +kernel⟩,
    ⟨_, .kill _ _ (by decide +kernel) (by decide +kernel)⟩,
    ⟨_, .refused _ _ (by decide +kernel) (by decide +kernel)⟩,
    ⟨_, .killl _ _ 1 (Device.launch dev0 1) (by decide +kernel) (by decide +kernel)⟩,
    ⟨_, .kilnone _ _ (by decide +kernel) (by decide +kernel)⟩,
    ⟨_, by refine .key _ _ ?_ ?_ ?_ ?_ <;> decide +kernel⟩,
    ⟨_, by refine .astb _ _ _ ?_ ?_ ?_ <;> decide +kernel⟩,
    ⟨_, by refine .bar0Write _ _ _ ?_ ?_ ?_ ?_ (.inr ?_) ?_ <;> decide +kernel⟩,
    ⟨_, by refine .bar2Write _ _ _ ?_ ?_ ?_ ?_ ?_ ?_ <;> decide +kernel⟩⟩

/-- A host write to a byte that a copy still outstanding has written. -/
def hostRace : State := at_ { dev0 with ops := [{ op0 .cpt 2 with wrote := [2] }], sys.linkst := 2 ^ 16 }

theorem wit_hostRace : ∃ x, Claim.HostEvents hostRace (.evHostBarAccess 0 2 2 (.wr [7])) x := by
  refine ⟨_, .bar2Raced 0 2 2 [7] [if Device.raced hostRace.dev 0 2 1 = true ∧ (Config.freeByte hostRace.dev.freeCtr).getLsbD 0 = true
    then Device.memByteT hostRace.dev 0 2 else 7] (by decide +kernel) (by decide +kernel) (by decide +kernel) (by decide +kernel) (by decide +kernel)
    (by decide +kernel) (by decide +kernel) rfl ?_⟩
  intro i h
  have : i = 0 := by simpa using h
  subst this
  rfl

theorem wit_cases_hostEvents_2 :
    (∃ x, Claim.HostEvents (at_ (let d := { dev0 with reach := [1] }; { d with sys := { d.sys with bootst := 6, linkst := 1, peeracc := 2 } })) (.evPeerAccess 1 0x3000 (.rd 8)) x)
    ∧ (∃ x, Claim.HostEvents (S []) (.evPeerAccess 1 0x3000 (.rd 8)) x)
    ∧ (∃ x, Claim.HostEvents (S []) (.evLinkStateChange false 15 true) x)
    ∧ (∃ x, Claim.HostEvents (S []) (.evLinkStateChange true 1 false) x)
    ∧ (∃ x, Claim.HostEvents (S []) (.evSplinter 0 (2 ^ 63 + 0x123)) x)
    ∧ (∃ x, Claim.HostEvents (M (fun d => Device.setDie d 0 { Device.die d 0 with splst := 1, splint := some (.fails 3) })) (.evSplinterDone 0) x)
    ∧ (∃ x, Claim.HostEvents (M (fun d => Device.setDie d 0 { Device.die d 0 with splst := 1, splint := some (.work 0x3000 0 0x5000) })) (.evSplinterDone 0) x)
    ∧ (∃ x, Claim.HostEvents (M (fun d => Device.setDie d 0 { Device.die d 0 with splst := 1, splint := some (.work 0x3000 5 0x5000) })) (.evSplinterDone 0) x) :=
  ⟨⟨_, by refine .peerRead _ _ _ ?_ ?_ ?_ ?_ ?_ ?_ <;> decide +kernel⟩,
    ⟨_, .peerRefused _ _ _ (by decide +kernel)⟩,
    ⟨_, .linkUp _ _ (by decide +kernel)⟩,
    ⟨_, .linkDown _ _ (by decide +kernel)⟩,
    ⟨_, by refine .splinter _ _ ?_ ?_ ?_ ?_ <;> decide +kernel⟩,
    ⟨_, .splinterFails _ 3 (by decide +kernel)⟩,
    ⟨_, .splinterDone _ 0x3000 0 0x5000 _ (by decide +kernel) rfl (by decide +kernel)⟩,
    ⟨_, .splinterLate _ 0x3000 5 0x5000 _ (by decide +kernel) rfl (by decide +kernel)⟩⟩

theorem wit_cases_manageEvents_1 :
    (∃ x, Claim.ManageEvents (at_ { dev0 with sys := { dev0.sys with bootst := 6 } }) (.evRead 0 0x110) x)
    ∧ (∃ x, Claim.ManageEvents (at_ { dev0 with sys := { dev0.sys with bootst := 6 } }) (.evWrite 0 8 0x40000) x)
    ∧ (∃ x, Claim.ManageEvents (at_ { dev0 with sys := { dev0.sys with bootst := 1 } }) (.evWrite 0 8 0x40000) x)
    ∧ (∃ x, Claim.ManageEvents (at_ { dev0 with sys := { dev0.sys with bootst := 6 } }) .evResync x)
    ∧ (∃ x, Claim.ManageEvents (at_ { dev0 with sys := { dev0.sys with bootst := 2 } }) (.evQuote 5) x)
    ∧ (∃ x, Claim.ManageEvents (at_ { dev0 with sys := { dev0.sys with bootst := 1 } }) (.evQuote 5) x)
    ∧ (∃ x, Claim.ManageEvents (at_ { dev0 with sys := { dev0.sys with bootst := 1 } }) .evCert x)
    ∧ (∃ x, Claim.ManageEvents (S []) .evColdReset x)
    ∧ (∃ x, Claim.ManageEvents (S []) .evWarmReset x)
    ∧ (∃ x, Claim.ManageEvents (S []) (.evPortRetrain 1) x)
    ∧ (∃ x, Claim.ManageEvents (S []) (.evPortRetrain 2) x)
    ∧ (∃ x, Claim.ManageEvents (at_ { dev0 with sys := { dev0.sys with bootst := 0x90 } }) .evRelease x) :=
  ⟨⟨_, .served _ _ _ (.read _ _) rfl rfl (.read _ _ _ _ (by decide +kernel) (by decide +kernel) (pairEta _))⟩,
    ⟨_, .served _ _ _ (.write _ _ _) rfl rfl (.write _ _ _ (by decide +kernel) (by decide +kernel) (by decide +kernel))⟩,
    ⟨_, .served _ _ _ (.write _ _ _) rfl rfl (.writeNot _ _ _ (by decide +kernel))⟩,
    ⟨_, .served _ _ _ (.resync) rfl rfl (.resync (.inl (by decide +kernel)))⟩,
    ⟨_, .served _ _ _ (.quote _) rfl rfl (.quote _ (.inl (by decide +kernel)))⟩,
    ⟨_, .served _ _ _ (.quote _) rfl rfl (.quoteNot _ (by decide +kernel))⟩,
    ⟨_, .served _ _ _ (.cert) rfl rfl (.cert (.inl (by decide +kernel)))⟩,
    ⟨_, .served _ _ _ (.cold) rfl rfl (.cold)⟩,
    ⟨_, .served _ _ _ (.warm) rfl rfl (.warm)⟩,
    ⟨_, .served _ _ _ (.retrain _) rfl rfl (.retrain _ (by decide +kernel))⟩,
    ⟨_, .served _ _ _ (.retrain _) rfl rfl (.noPort _ (by decide +kernel))⟩,
    ⟨_, .served _ _ _ (.release) rfl rfl (.release (by decide +kernel) (by decide +kernel))⟩⟩

theorem wit_cases_manageEvents_2 :
    (∃ x, Claim.ManageEvents (at_ (let d := Device.setPower dev0 3 { Device.powerOf dev0 3 with temps := [95 * 8] }; { d with sys := { d.sys with bootst := 0x90 } })) .evRelease x)
    ∧ (∃ x, Claim.ManageEvents (at_ { dev0 with sys := { dev0.sys with bootst := 6 } }) (.evKill 0) x)
    ∧ (∃ x, Claim.ManageEvents (at_ { dev0 with sys := { dev0.sys with bootst := 2 } }) (.evExtend 3 9) x)
    ∧ (∃ x, Claim.ManageEvents (at_ { dev0 with sys := { dev0.sys with bootst := 6 } }) (.evExtend 8 9) x)
    ∧ (∃ x, Claim.ManageEvents (at_ { dev0 with sys := { dev0.sys with bootst := 0x81 } }) (.evExtend 3 9) x)
    ∧ (∃ x, Claim.ManageEvents (S []) (.evBadFrame [3, 0, 0, 1, 0]) x)
    ∧ (∃ x, Claim.ManageEvents (S []) (.evBadFrame ([10, 0, 0] ++ leBytes 2 (crc16 [10, 0, 0]))) x)
    ∧ (∃ x, Claim.ManageEvents (at_ { dev0 with sys := { dev0.sys with bootst := 6, resync := some (1, []) } }) .evCert x)
    ∧ (∃ x, Claim.ManageEvents (S []) .evModuleReset x)
    ∧ (∃ x, Claim.ManageEvents (at_ { dev0 with sys := { dev0.sys with bootst := 1 } }) (.evFirmwareVerify [] (Config.imageVersion []) (rsaDigest 0 1) 0 1 0) x)
    ∧ (∃ x, Claim.ManageEvents (at_ { dev0 with sys := { dev0.sys with bootst := 4, modSet := true } }) (.evBringupStep true) x)
    ∧ (∃ x, Claim.ManageEvents (at_ { dev0 with sys := { dev0.sys with bootst := 5 } }) (.evBringupStep true) x)
    ∧ (∃ x, Claim.ManageEvents (at_ { dev0 with sys := { dev0.sys with bootst := 2 } }) (.evBringupStep false) x) :=
  ⟨⟨_, .served _ _ _ (.release) rfl rfl (.hot 3 (95 * 8) (by decide +kernel) (by decide +kernel) (by decide +kernel) (by decide +kernel))⟩,
    ⟨_, .served _ _ _ (.kill _) rfl rfl (.kill _ (by decide +kernel))⟩,
    ⟨_, .served _ _ _ (.extend _ _) rfl rfl (.extend _ _ (by decide +kernel) (by decide +kernel) (by decide +kernel))⟩,
    ⟨_, .served _ _ _ (.extend _ _) rfl rfl (.extendBad _ _ (by decide +kernel) (.inr (by decide +kernel)))⟩,
    ⟨_, .served _ _ _ (.extend _ _) rfl rfl (.extendNot _ _ (.inr (by decide +kernel)))⟩,
    ⟨_, .served _ _ _ (.bad _ (by decide +kernel) (.inl (by decide +kernel))) rfl rfl (.badCrc _ (by decide +kernel) (by decide +kernel))⟩,
    ⟨_, .served _ _ _ (.bad _ (by decide +kernel) (.inr (by decide +kernel))) rfl rfl (.badOpcode _ (by decide +kernel) (by decide +kernel) (by decide +kernel))⟩,
    ⟨_, .waits _ _ (.cert) (.inl (by decide +kernel))⟩,
    ⟨_, .power⟩,
    ⟨_, .unverified _ _ _ _ (by decide +kernel) (fun a => absurd a.signed (by decide +kernel))⟩,
    ⟨_, .step4 (by decide +kernel) (by decide +kernel)⟩,
    ⟨_, .step5 (by decide +kernel)⟩,
    ⟨_, .stepFails (by decide +kernel) (by decide +kernel)⟩⟩

/-- The module whose fuses hold the digest of a key with exponent 1, and the signature of an empty image under that key. -/
def fused : State :=
  at_ { dev0 with sys := { dev0.sys with
    bootst := 1, fuseVer := 0, fuseKey := rsaDigest (2 ^ 3072 - 1) 1 } }
def sig1 : Nat := 0x6bf699d233b24c95e57c8f8ece798965821314ff341706322e9260d3c03c29756d4614c961472faaca6d58f14fe53723ad01af1497680d822f828701fa2fddfcd19a803d31bda7b14adaac840f73a19176ec9ce9e8803127ca31f7e3c3fef037ddb52a96aadf7a7c9378a1df44f54a3496d81e25c967ef073184e37b21c633ec973c0c48ca20700b304843680956a14fcd63ea5f1717024df32899da9bf8e43599fab413d1ea4de121969fb84e0ebbcf571e73e50b208b0ab5304f051cbe8ab8a41ca57d653232d7ce960cd9615ae6d3c37e76f59d5ca5fff33497df05984c85a12fc5facf342e729b5d2fca2e1fd196aaf9bdbdae5dcaa3622c2294371d4076b78adff8f6ef2ecb97c53cf89e1a7595cf59e5d8dada14a0183091d20d6c95eed651a07ed1c044078f86b012062a8b9feec6b7514169a88461c20f69b688843970668f9a59f4ee16ed5e7839ce91d962d02d5bc395c6c20d3ede6c0a8e42bb5e25bcf2924e603ed8b91dc11c2a1d82ab296a72ccaf9af015d952d3da7de073bc

theorem wit_firmware :
    ∃ x, Claim.ManageEvents fused (.evFirmwareVerify [] (Config.imageVersion []) (rsaDigest (2 ^ 3072 - 1) 1) (2 ^ 3072 - 1) 1 sig1) x :=
  ⟨_, .verified _ _ _ _ (by decide +kernel) ⟨by decide +kernel, rfl, Nat.zero_le _⟩⟩

/-- A RESYNC at a field, and requests that wait behind it. -/
def port (n : Nat) (r : Option (Nat × List Byte)) (q : List MReq) : State := at_ { dev0 with sys := { dev0.sys with bootst := n, resync := r, reqs := q } }

theorem wit_portGoes : (∃ t, PortGoes (port 6 (some (0, [])) [.cert]) t) ∧ (∃ t, PortGoes (port 6 (some ((Device.resyncFields dev0).length - 1, [])) []) t)
    ∧ ∃ t, PortGoes (port 6 none [.cert]) t :=
  ⟨⟨_, .field 0 [] rfl (by decide +kernel)⟩, ⟨_, .last _ _ rfl (by decide +kernel)⟩, _, .next _ [] _ rfl rfl (.cert (.inl (by decide +kernel)))⟩

theorem wit_cases_sramActs_1 :
    (∃ x y, Claim.SramActs (C []) (.ldl ⟨0, 1, 2, 0, 2, 0, 0⟩) x y)
    ∧ (∃ x y, Claim.SramActs (at_ (Device.setCluster (onWave (scal [(1, 1)])) 0 { Device.cluster dev0 0 with banks := .spad :: List.replicate 63 .cache })) (.bmode ⟨0, 1, 0⟩) x y)
    ∧ (∃ x y, Claim.SramActs (S [(1, 0xFF)]) (.bmode ⟨0, 1, 1⟩) x y)
    ∧ (∃ x y, Claim.SramActs (S [(1, 7)]) (.join ⟨0, 1⟩) x y)
    ∧ (∃ x y, Claim.SramActs (at_ (let d := onWave (scal [(1, 5)]); Device.setWg d 3 { Device.wg d 3 with group := some 5 })) (.join ⟨0, 1⟩) x y)
    ∧ (∃ x y, Claim.SramActs (S []) (.leave ⟨0⟩) x y)
    ∧ (∃ x y, Claim.SramActs (at_ (let d := onWave (scal [(1, 5)]); Device.setWg d 3 { Device.wg d 3 with group := some 5 })) (.leave ⟨0⟩) x y)
    ∧ (∃ x y, Claim.SramActs (C [(1, 100)]) (.salloc ⟨0, 1⟩) x y)
    ∧ (∃ x y, Claim.SramActs (C [(1, 0x100000)]) (.salloc ⟨0, 1⟩) x y)
    ∧ (∃ x y, Claim.SramActs (C []) (.sfree ⟨0, 1⟩) x y)
    ∧ (∃ x y, Claim.SramActs (C []) (.presGet ⟨0, 1⟩) x y)
    ∧ (∃ x y, Claim.SramActs (C [(1, 128), (2, 3)]) (.presSet ⟨0, 1⟩) x y) :=
  ⟨⟨_, _, .ldl _ (by decide +kernel) (by unfold LocalPass; decide +kernel) (by unfold HasRoom; decide +kernel) (by unfold LinesPresent; decide +kernel) (by decide +kernel)⟩,
    ⟨_, _, .bmodeFast _ (by decide +kernel) (by decide +kernel) (by unfold BankFree; decide +kernel)⟩,
    ⟨_, _, by refine .bmodeSlow _ ?_ ?_ (by unfold BankFree; decide +kernel) ?_ <;> decide +kernel⟩,
    ⟨_, _, by refine .joinNew _ ?_ ?_ ?_ <;> decide +kernel⟩,
    ⟨_, _, by refine .joinSame _ ?_ ?_ ?_ <;> decide +kernel⟩,
    ⟨_, _, .leaveNone _ (by decide +kernel)⟩,
    ⟨_, _, by refine .leave _ 5 ?_ ?_ ?_ <;> decide +kernel⟩,
    ⟨_, _, by refine .salloc _ 1 ?_ ?_ ?_ (by unfold RunFree; decide +kernel) (by unfold RunFree; decide +kernel) <;> decide +kernel⟩,
    ⟨_, _, by refine .sallocNone _ ?_ ?_ ?_ (noRun) <;> decide +kernel⟩,
    ⟨_, _, by refine .sfree _ ⟨0, 1⟩ ?_ ?_ ?_ ?_ ?_ <;> decide +kernel⟩,
    ⟨_, _, by refine .presGet _ 0xFFFFFFFF ?_ ?_ ?_ <;> decide +kernel⟩,
    ⟨_, _, by refine .presSet _ ?_ ?_ ?_ ?_ ?_ ?_ <;> decide +kernel⟩⟩

theorem wit_cases_sramActs_2 :
    (∃ x y, Claim.SramActs (C [(1, 0x1001)]) (.rinit ⟨0, 1⟩) x y)
    ∧ (∃ x y, Claim.SramActs (Y { ring0 with prods := [], cons := [] } []) (.rinitFree ⟨0, 1⟩) x y)
    ∧ (∃ x y, Claim.SramActs (C [(1, 3)]) (.rpushRes ⟨0, 1, 0⟩) x y)
    ∧ (∃ x y, Claim.SramActs (Y { ring0 with cres := 0, crel := 0, cons := [] } [(1, 2)]) (.rpopRes ⟨0, 1, 0⟩) x y)
    ∧ (∃ x y, Claim.SramActs (C [(1, 2)]) (.rpushCmt ⟨0, 1, 0⟩) x y)
    ∧ (∃ x y, Claim.SramActs (C [(1, 1)]) (.rpopRel ⟨0, 1, 0⟩) x y)
    ∧ (∃ x y, Claim.SramActs (C []) (.rlen ⟨0, 1, 0⟩) x y) :=
  ⟨⟨_, _, .rinit _ (by decide +kernel) (by unfold RingFits; decide +kernel)⟩,
    ⟨_, _, by refine .rinitFree _ ({ ring0 with prods := [], cons := [] }) ?_ ?_ ?_ ?_ ?_ ?_ <;> decide +kernel⟩,
    ⟨_, _, .rpushRes _ ring0 (by unfold RingIs; decide +kernel) (by unfold RingCount; decide +kernel) (by decide +kernel)⟩,
    ⟨_, _, .rpopRes _ ({ ring0 with cres := 0, crel := 0, cons := [] }) (by unfold RingIs; decide +kernel) (by unfold RingCount; decide +kernel) (by decide +kernel)⟩,
    ⟨_, _, by refine .rpushCmt _ ring0 (by unfold RingIs; decide +kernel) (by unfold RingCount; decide +kernel) ?_ ?_ ?_ <;> (first | decide +kernel | exact ⟨by decide +kernel, by decide +kernel⟩)⟩,
    ⟨_, _, by refine .rpopRel _ ring0 (by unfold RingIs; decide +kernel) (by unfold RingCount; decide +kernel) ?_ ?_ ?_ <;> (first | decide +kernel | exact ⟨by decide +kernel, by decide +kernel⟩)⟩,
    ⟨_, _, .rlen _ ring0 (by unfold RingIs; decide +kernel)⟩⟩

theorem wit_cases_barActs :
    (∃ x y, Claim.BarActs (S [(1, 65535)]) (.binit ⟨0, 1, 15⟩) x y)
    ∧ (∃ x y, Claim.BarActs (at_ (let d := onWave (scal []); Device.setWg d 3 { Device.wg d 3 with bars := [⟨2, 1, false, false, 0, false, 0⟩] })) (.barr ⟨0, 0⟩) x y)
    ∧ (∃ x y, Claim.BarActs (at_ (let d := onWave (scal [(1, 65535)]); Device.setWg d 3 { Device.wg d 3 with bars := [⟨2, 2, false, false, 0, false, 0⟩] })) (.barx ⟨0, 1, 0⟩) x y)
    ∧ (∃ x y, Claim.BarActs (at_ (let d := onWave (scal []); Device.setWg d 3 { Device.wg d 3 with bars := [⟨2, 2, true, false, 0, false, 0⟩] })) (.barw ⟨0, 0, 0⟩) x y)
    ∧ (∃ x y, Claim.BarActs (at_ (let d := onWave (scal []); Device.setWg d 3 { Device.wg d 3 with bars := [⟨2, 2, true, false, 0, false, 0⟩] })) (.barwS ⟨0, 1, 0, 0⟩) x y)
    ∧ (∃ x y, Claim.BarActs (at_ (let d := onWave (scal []); Device.setWg d 3 { Device.wg d 3 with bars := [⟨2, 2, true, false, 0, false, 0⟩] })) (.bart ⟨0, 7, 1, 0⟩) x y)
    ∧ (∃ x y, Claim.BarActs (W (fun w => { w with helper := BitVec.allOnes 64 })) (.cpl ⟨0, 1, 2, 3⟩) x y)
    ∧ (∃ x y, Claim.BarActs (W (fun w => { w with helper := BitVec.allOnes 64 })) (.cpls ⟨0, 1, 2, 3⟩) x y) :=
  ⟨⟨_, _, .binit _ (by unfold SmallScalar; decide +kernel) (by decide +kernel) (by decide +kernel)⟩,
    ⟨_, _, .barr _ (by decide +kernel) ⟨by decide +kernel, by decide +kernel⟩⟩,
    ⟨_, _, by refine .barx _ (by unfold SmallScalar; decide +kernel) ?_ ?_ ?_ <;> (first | decide +kernel | exact ⟨by decide +kernel, by decide +kernel⟩)⟩,
    ⟨_, _, .barw _ (by decide +kernel) (by decide +kernel)⟩,
    ⟨_, _, .barwS _ (by decide +kernel) (by decide +kernel)⟩,
    ⟨_, _, .bart _ (by decide +kernel)⟩,
    ⟨_, _, .cplNone _ (by decide +kernel) (by unfold HasRoom; decide +kernel)⟩,
    ⟨_, _, .cplsNone _ (by decide +kernel) (by unfold HasRoom; decide +kernel)⟩⟩

theorem wit_cases_engineActs_1 :
    (∃ x y z, Claim.EngineActs (C [(1, 0x40000), (4, 256 + 16)]) (.cpl ⟨0, 1, 2, 3⟩) x y z)
    ∧ (∃ x y z, Claim.EngineActs (C [(1, 0x40000), (4, 256 + 16)]) (.cpls ⟨0, 1, 2, 3⟩) x y z)
    ∧ (∃ x y z, Claim.EngineActs (B box1 []) (.cpt ⟨0, 1⟩) x y z)
    ∧ (∃ x y z, Claim.EngineActs (B box1 []) (.cpts ⟨0, 1⟩) x y z)
    ∧ (∃ x y z, Claim.EngineActs (C [(2, 1 * 2 ^ 18 + 8 * 2 ^ 9 + 2)]) (.mload ⟨0, 1, 0⟩) x y z)
    ∧ (∃ x y z, Claim.EngineActs (C [(2, 2 ^ 29 + 1 * 2 ^ 18 + 8 * 2 ^ 9 + 2)]) (.mload ⟨0, 1, 0⟩) x y z)
    ∧ (∃ x y z, Claim.EngineActs (B box2 [(2, 2 * 2 ^ 29 + 1 * 2 ^ 18 + 8 * 2 ^ 9)]) (.mload ⟨0, 1, 0⟩) x y z)
    ∧ (∃ x y z, Claim.EngineActs (C [(2, 1 * 2 ^ 18 + 8 * 2 ^ 9 + 2)]) (.mmul ⟨0, 1, 0, 0, 0⟩) x y z)
    ∧ (∃ x y z, Claim.EngineActs (C []) (.mmulReg ⟨0, 32, 0, 0, 0⟩) x y z)
    ∧ (∃ x y z, Claim.EngineActs (C [(1, 0x1F00)]) (.mdrainF32 ⟨0, 1, 32, 1, 3⟩) x y z)
    ∧ (∃ x y z, Claim.EngineActs (C [(1, 0x3F40)]) (.mdrainBf16 ⟨0, 1, 32, 0, 3⟩) x y z)
    ∧ (∃ x y z, Claim.EngineActs (C [(1, 0x300), (4, 16)]) (.mdrainTile ⟨0, 1, 0, 0⟩) x y z) :=
  ⟨⟨_, _, _, by refine .cpl _ ⟨?_, ?_, ?_, (by unfold ScalarsClean; decide +kernel), (by unfold copyGlobal copyLocal copyWidth; decide +kernel)⟩ <;> decide +kernel⟩,
    ⟨_, _, _, by refine .cpls _ ⟨?_, ?_, ?_, (by unfold ScalarsClean; decide +kernel), (by unfold copyGlobal copyLocal copyWidth; decide +kernel)⟩ <;> decide +kernel⟩,
    ⟨_, _, _, by refine .cpt _ ⟨?_, ?_, ?_, ?_, ?_, ?_, (by unfold ScalarsClean; decide +kernel), ?_, ?_, ?_⟩ <;> decide +kernel⟩,
    ⟨_, _, _, by refine .cpts _ ⟨?_, ?_, ?_, ?_, ?_, ?_, (by unfold ScalarsClean; decide +kernel), ?_, ?_, ?_⟩ <;> decide +kernel⟩,
    ⟨_, _, _, by refine .mload _ _ _ _ _ (by unfold OperandForm OwnsPair; decide +kernel) (.tile ?_ (by unfold ScalarsClean; decide +kernel) ?_ ?_) <;> decide +kernel⟩,
    ⟨_, _, _, .mload _ _ _ _ _ (by unfold OperandForm OwnsPair; decide +kernel) (.ring ring0 (by decide +kernel) (by unfold ScalarsClean; decide +kernel) (by unfold RingIs; decide +kernel) (by decide +kernel))⟩,
    ⟨_, _, _, by refine .mload _ _ _ _ _ (by unfold OperandForm OwnsPair; decide +kernel) (.tensor (TRec.of box2) ?_ ?_ ?_ ?_ (by unfold ScalarsClean; decide +kernel) ?_ ?_ ?_ ?_) <;> decide +kernel⟩,
    ⟨_, _, _, by refine .mmul _ _ _ _ _ (by unfold OperandForm OwnsPair; decide +kernel) (.tile ?_ (by unfold ScalarsClean; decide +kernel) ?_ ?_) (by unfold BurstOpen; decide +kernel) <;> decide +kernel⟩,
    ⟨_, _, _, by refine .mmulReg _ (by unfold OwnsPair; decide +kernel) ?_ ?_ ?_ (by unfold BurstOpen; decide +kernel) <;> decide +kernel⟩,
    ⟨_, _, _, by refine .mdrainF32 _ ⟨(by unfold OwnsPair; decide +kernel), ?_, ?_, ?_, ?_, ?_, ?_, ?_⟩ ?_ <;> decide +kernel⟩,
    ⟨_, _, _, by refine .mdrainBf16 _ ⟨(by unfold OwnsPair; decide +kernel), ?_, ?_, ?_, ?_, ?_, ?_, ?_⟩ ?_ <;> decide +kernel⟩,
    ⟨_, _, _, by refine .mdrainTile _ (fun i => i == 0 || (i == 1 && (drainCtl (C [(1, 0x300), (4, 16)]) (1#8).toNat).scl) || i == 2 || i == 3) (fun _ => rfl) (by unfold OwnsPair; decide +kernel) ?_ ?_ ?_ ?_ ?_ ?_ <;> decide +kernel⟩⟩

theorem wit_cases_engineActs_2 :
    (∃ x y z, Claim.EngineActs (C [(1, 0x300), (4, 16)]) (.mdrainRing ⟨0, 1, 0, 0⟩) x y z)
    ∧ (∃ x y z, Claim.EngineActs (C [(1, 0x300), (3, 0x40000), (5, 16)]) (.mdrainPort ⟨0, 1, 0, 0⟩) x y z)
    ∧ (∃ x y z, Claim.EngineActs (C []) (.mclr ⟨0, 15⟩) x y z)
    ∧ (∃ x y z, Claim.EngineActs (S [(1, 0x30000)]) (.hxcfg ⟨0, 1⟩) x y z)
    ∧ (∃ x y z, Claim.EngineActs (S [(1, 0x30000)]) (.vpub ⟨0, 1⟩) x y z)
    ∧ (∃ x y z, Claim.EngineActs (S [(1, 0x30000)]) (.vbind ⟨0, 1⟩) x y z)
    ∧ (∃ x y z, Claim.EngineActs (S []) (.vbind ⟨0, 1⟩) x y z)
    ∧ (∃ x y z, Claim.EngineActs (V (fun w => scal [(1, 0)] { w with vbind := some vers })) (.hxq ⟨0, 1, 2, 62⟩) x y z)
    ∧ (∃ x y z, Claim.EngineActs (V (fun w => scal [(1, 0x300)] { w with vbind := some vers })) (.hxqRing ⟨0, 1, 2⟩) x y z)
    ∧ (∃ x y z, Claim.EngineActs (V (fun w => scal [(1, 0x100)] { w with vbind := some vers })) (.hxqRing ⟨0, 1, 2⟩) x y z)
    ∧ (∃ x y z, Claim.EngineActs (V (fun w => scal [(1, 0)] { w with vbind := some vers })) (.hxg ⟨0, 1, 2, 62⟩) x y z)
    ∧ (∃ x y z, Claim.EngineActs (S [(1, 0x30000)]) (.tlayout ⟨0, 1⟩) x y z) :=
  ⟨⟨_, _, _, by refine .mdrainRing _ ring0 (fun i => i == 0 || (i == 1 && (drainCtl (C [(1, 0x300), (4, 16)]) (1#8).toNat).scl) || i == 2 || i == 3) (fun _ => rfl) (by unfold OwnsPair; decide +kernel) ?_ ?_ ?_ ?_ ?_ (by unfold RingIs; decide +kernel) ?_ <;> decide +kernel⟩,
    ⟨_, _, _, by refine .mdrainPort _ (fun i => i == 0 || (i == 1 && (drainCtl (C [(1, 0x300), (3, 0x40000), (5, 16)]) (1#8).toNat).scl) || i == 2 || i == 3 || i == 4 || ((i == 6 || i == 7) && (drainCtl (C [(1, 0x300), (3, 0x40000), (5, 16)]) (1#8).toNat).mxo)) (fun _ => rfl) (by unfold OwnsPair; decide +kernel) ?_ ?_ ?_ ?_ ?_ ?_ ?_ ?_ <;> decide +kernel⟩,
    ⟨_, _, _, .mclr _ (by unfold OwnsPair; decide +kernel)⟩,
    ⟨_, _, _, .hxcfg _ (by unfold HeaderAt ScalarsClean; decide +kernel)⟩,
    ⟨_, _, _, .vpub _ (by unfold HeaderAt ScalarsClean; decide +kernel) ⟨by decide +kernel, by decide +kernel⟩⟩,
    ⟨_, _, _, .vbind _ (.inl (by unfold HeaderAt ScalarsClean; decide +kernel)) ⟨by decide +kernel, by decide +kernel⟩⟩,
    ⟨_, _, _, .vbind _ (.inr (by unfold ScalarsClean; decide +kernel)) ⟨by decide +kernel, by decide +kernel⟩⟩,
    ⟨_, _, _, by refine .hxq _ vers (by unfold Bound; decide +kernel) (by unfold QueryFits; decide +kernel) ?_ ?_ (by unfold RowsClean; decide +kernel) ?_ <;> decide +kernel⟩,
    ⟨_, _, _, by refine .hxqRing _ vers ring0 (by unfold Bound; decide +kernel) (by unfold QueryFits; decide +kernel) ?_ (by unfold RowsClean; decide +kernel) (by unfold RingIs; decide +kernel) ?_ ?_ <;> decide +kernel⟩,
    ⟨_, _, _, .hxqRegs _ vers (by unfold Bound; decide +kernel) (by unfold QueryFits; decide +kernel) (by decide +kernel) (by unfold RowsClean; decide +kernel) (by decide +kernel)⟩,
    ⟨_, _, _, by refine .hxg _ vers (by unfold Bound; decide +kernel) (by unfold QueryFits; decide +kernel) ?_ ?_ ?_ (by unfold RowsClean; decide +kernel) (by unfold RowsClean; decide +kernel) <;> decide +kernel⟩,
    ⟨_, _, _, .tlayout _ (by unfold AddressAt ScalarsClean; decide +kernel) (by decide +kernel)⟩⟩

theorem wit_cases_engineActs_3 :
    (∃ x y z, Claim.EngineActs (S [(1, 0x30000)]) (.tcode ⟨0, 1⟩) x y z)
    ∧ (∃ x y z, Claim.EngineActs (W (fun w => scal [(1, 0x30000)] { w with tlay := some ⟨0, zeros 512⟩, tcode := some ⟨0, zeros 16⟩ })) (.trace ⟨0, 1, 2⟩) x y z)
    ∧ (∃ x y z, Claim.EngineActs (W (fun w => scal [(1, 0x30000)] { w with tlay := some ⟨0, zeros 512⟩, tcode := some ⟨0, zeros 16⟩ })) (.tstamp ⟨0, 1, 2⟩) x y z)
    ∧ (∃ x y z, Claim.EngineActs (S [(1, 0x30000)]) (.tresume ⟨0, 1, 2⟩) x y z)
    ∧ (∃ x y z, Claim.EngineActs (S []) (.tabort ⟨0⟩) x y z)
    ∧ (∃ x y z, Claim.EngineActs (S [(1, 0x30000)]) (.coll ⟨0, 1⟩) x y z) :=
  ⟨⟨_, _, _, .tcode _ (by unfold AddressAt ScalarsClean; decide +kernel) (by decide +kernel)⟩,
    ⟨_, _, _, .trace _ ⟨(by unfold RaysFree; decide +kernel), (by decide +kernel), (by decide +kernel), (by unfold ScalarsClean; decide +kernel), (by unfold RowsClean; decide +kernel), (by unfold AddressAt ScalarsClean; decide +kernel)⟩⟩,
    ⟨_, _, _, .tstamp _ ⟨(by unfold RaysFree; decide +kernel), (by decide +kernel), (by decide +kernel), (by unfold ScalarsClean; decide +kernel), (by unfold RowsClean; decide +kernel), (by unfold AddressAt ScalarsClean; decide +kernel)⟩⟩,
    ⟨_, _, _, by refine .tresume _ ⟨?_, (by unfold ScalarsClean; decide +kernel), (by unfold AddressAt ScalarsClean; decide +kernel), (by unfold RowsClean; decide +kernel), ?_, ?_, ?_⟩ <;> decide +kernel⟩,
    ⟨_, _, _, .tabort _⟩,
    ⟨_, _, _, .coll _ (by unfold AddressAt ScalarsClean; decide +kernel) ⟨by decide +kernel, by decide +kernel⟩⟩⟩

theorem wit_cases_systemActs_1 :
    (∃ x y, Claim.SystemActs (S []) (.mfs ⟨0, 1, 0x42⟩) x y)
    ∧ (∃ x y, Claim.SystemActs (W (fun w => { w with handler := true })) (.mfs ⟨0, 1, 0x3E⟩) x y)
    ∧ (∃ x y, Claim.SystemActs (W (fun w => scal [(1, 65488)] w)) (.mts ⟨0, 0x11, 1⟩) x y)
    ∧ (∃ x y, Claim.SystemActs (W (fun w => scal [(1, 0x30000)] w)) (.mts ⟨0, 0x12, 1⟩) x y)
    ∧ (∃ x y, Claim.SystemActs (W (fun w => scal [(1, 7)] w)) (.mts ⟨0, 0x13, 1⟩) x y)
    ∧ (∃ x y, Claim.SystemActs (W (fun w => scal [(1, 16)] w)) (.mts ⟨0, 0x14, 1⟩) x y)
    ∧ (∃ x y, Claim.SystemActs (W (fun w => scal [(1, 7)] w)) (.mts ⟨0, 0x16, 1⟩) x y)
    ∧ (∃ x y, Claim.SystemActs (W (fun w => scal [(1, 0xFFFFFFE5)] w)) (.mts ⟨0, 0x17, 1⟩) x y)
    ∧ (∃ x y, Claim.SystemActs (W (fun w => scal [(1, 0x11)] w)) (.mts ⟨0, 0x20, 1⟩) x y)
    ∧ (∃ x y, Claim.SystemActs (W (fun w => scal [(1, 0x11)] w)) (.mts ⟨0, 0x21, 1⟩) x y)
    ∧ (∃ x y, Claim.SystemActs (W (fun w => scal [(1, 96)] { w with handler := true })) (.mts ⟨0, 0x3B, 1⟩) x y)
    ∧ (∃ x y, Claim.SystemActs (W (fun w => scal [(1, 0)] { { w with tbasLo := some 96, tfrm := 0x4000 } with handler := true })) (.mts ⟨0, 0x3C, 1⟩) x y) :=
  ⟨⟨_, _, .mfs _ (by decide +kernel) (by unfold privileged; decide +kernel)⟩,
    ⟨_, _, .mfs _ (by decide +kernel) (by unfold privileged; decide +kernel)⟩,
    ⟨_, _, by refine .mts _ _ ?_ (by unfold privileged; decide +kernel) (.wlim ?_ ?_ ?_ ?_) <;> decide +kernel⟩,
    ⟨_, _, by refine .mts _ _ ?_ (by unfold privileged; decide +kernel) (.wspLow ?_ ?_ ?_) <;> decide +kernel⟩,
    ⟨_, _, by refine .mts _ _ ?_ (by unfold privileged; decide +kernel) (.wspHigh ?_ ?_) <;> decide +kernel⟩,
    ⟨_, _, by refine .mts _ _ ?_ (by unfold privileged; decide +kernel) (.quota ?_ ?_) <;> decide +kernel⟩,
    ⟨_, _, .mts _ _ (by decide +kernel) (by unfold privileged; decide +kernel) (.wdog)⟩,
    ⟨_, _, .mts _ _ (by decide +kernel) (by unfold privileged; decide +kernel) (.fpm (by decide +kernel))⟩,
    ⟨_, _, .mts _ _ (by decide +kernel) (by unfold privileged; decide +kernel) (.fmt (by decide +kernel))⟩,
    ⟨_, _, by refine .mts _ _ ?_ (by unfold privileged; decide +kernel) (.shape ?_ ?_ ?_) <;> decide +kernel⟩,
    ⟨_, _, .mts _ _ (by decide +kernel) (by unfold privileged; decide +kernel) (.tbasLow)⟩,
    ⟨_, _, .mts _ _ (by decide +kernel) (by unfold privileged; decide +kernel) (.tbasHigh 96 (by decide +kernel) (by unfold TrapBases; decide +kernel))⟩⟩

theorem wit_cases_systemActs_2 :
    (∃ x y, Claim.SystemActs (W (fun w => scal [(1, 0x4000)] { w with handler := true })) (.mts ⟨0, 0x3D, 1⟩) x y)
    ∧ (∃ x y, Claim.SystemActs (W (fun w => scal [(1, 0)] { { w with tbas := 96, tfrmLo := some 0x4000 } with handler := true })) (.mts ⟨0, 0x3E, 1⟩) x y)
    ∧ (∃ x y, Claim.SystemActs (S []) (.yield ⟨0⟩) x y)
    ∧ (∃ x y, Claim.SystemActs (at_ (dev2 (scal [(1, 1), (2, 16)]))) (.quota ⟨0, 1⟩) x y)
    ∧ (∃ x y, Claim.SystemActs (at_ (dev2 (scal [(1, 0), (2, 16)]))) (.quota ⟨0, 1⟩) x y)
    ∧ (∃ x y, Claim.SystemActs (S [(1, 0x11)]) (.fmt ⟨0, 1⟩) x y)
    ∧ (∃ x y, Claim.SystemActs (S [(1, 0x3F)]) (.mshape ⟨0, 1⟩) x y)
    ∧ (∃ x y, Claim.SystemActs (C []) (.mstat ⟨0, 1, 1⟩) x y)
    ∧ (∃ x y, Claim.SystemActs (S [(1, 0x30000), (3, 15)]) (.tdesc ⟨0, 1⟩) x y)
    ∧ (∃ x y, Claim.SystemActs (S []) (.waitk ⟨0, 0, 7⟩) x y)
    ∧ (∃ x y, Claim.SystemActs (S []) (.fence ⟨0, 5⟩) x y) :=
  ⟨⟨_, _, .mts _ _ (by decide +kernel) (by unfold privileged; decide +kernel) (.tfrmLow)⟩,
    ⟨_, _, .mts _ _ (by decide +kernel) (by unfold privileged; decide +kernel) (.tfrmHigh 0x4000 (by decide +kernel) (by unfold TrapBases; decide +kernel))⟩,
    ⟨_, _, .yield _⟩,
    ⟨_, _, by refine .quota _ 5 1008 1040 ⟨(by unfold ScalarsClean; decide +kernel), ?_, ?_, ?_, ?_, ?_, ?_, ?_⟩ ?_ <;> decide +kernel⟩,
    ⟨_, _, .quotaNot _ 4 (by unfold ScalarsClean; decide +kernel) (by decide +kernel) (fun _ _ h => absurd (by decide +kernel) h.other)⟩,
    ⟨_, _, .fmt _ (by decide +kernel) (by decide +kernel)⟩,
    ⟨_, _, by refine .mshape _ ?_ ?_ ?_ ?_ <;> decide +kernel⟩,
    ⟨_, _, .mstat _ (by unfold OwnsPair; decide +kernel)⟩,
    ⟨_, _, by refine .tdesc _ ⟨(by unfold ScalarsClean; decide +kernel), ?_, ?_, ?_⟩ (by unfold HasRoom; decide +kernel) <;> decide +kernel⟩,
    ⟨_, _, .waitk _ (by decide +kernel)⟩,
    ⟨_, _, .fenceNow _ _ _ _ (.fence _) (by decide +kernel)⟩⟩

theorem wit_cases_systemActs_3 :
    (∃ x y, Claim.SystemActs (S []) (.fenceAcq ⟨0, 2⟩) x y)
    ∧ (∃ x y, Claim.SystemActs (W (fun w => { w with pend := [.fence 2 true true 0] })) (.fenceRel ⟨0, 3⟩) x y)
    ∧ (∃ x y, Claim.SystemActs (S [(1, 0x30000)]) (.mwait ⟨0, 1, 3, 0⟩) x y)
    ∧ (∃ x y, Claim.SystemActs (S [(1, 0x30000), (3, 7)]) (.cinvD ⟨0, 1⟩) x y)
    ∧ (∃ x y, Claim.SystemActs (S [(1, 0x30000), (3, 7)]) (.cwbL1 ⟨0, 1⟩) x y)
    ∧ (∃ x y, Claim.SystemActs (S [(1, 0x30000), (3, 7)]) (.cwbL2 ⟨0, 1⟩) x y)
    ∧ (∃ x y, Claim.SystemActs (S [(1, 0x30000), (3, 7)]) (.cinvI ⟨0, 1⟩) x y)
    ∧ (∃ x y, Claim.SystemActs (S [(1, 0x30000)]) (.cinvI ⟨0, 1⟩) x y)
    ∧ (∃ x y, Claim.SystemActs (S [(1, 0x30000)]) (.tlbinvPage ⟨0, 1⟩) x y)
    ∧ (∃ x y, Claim.SystemActs (S [(1, 0x30000), (3, 1)]) (.tlbinvRange ⟨0, 1⟩) x y)
    ∧ (∃ x y, Claim.SystemActs (S []) (.tlbinvAsid ⟨0⟩) x y)
    ∧ (∃ x y, Claim.SystemActs (W (fun w => { w with handler := true })) (.tlbinvAll ⟨0⟩) x y) :=
  ⟨⟨_, _, .fenceNow _ _ _ _ (.acq _) (by decide +kernel)⟩,
    ⟨_, _, .fenceLater _ _ _ _ (.rel _) (by decide +kernel)⟩,
    ⟨_, _, by refine .mwait _ (okOr ⟨0, 0, 0, 0⟩ (Device.translate dev0 0 0 .r 0x30000 8)) ⟨(by unfold ScalarsClean; decide +kernel), ?_, ?_, ?_, ?_, ?_, ?_, ?_, ?_⟩ (by unfold waitTest; decide +kernel) <;> decide +kernel⟩,
    ⟨_, _, .cinvD _ (by unfold RangeAt ScalarsClean; decide +kernel) (by unfold HasRoom; decide +kernel)⟩,
    ⟨_, _, .cwbL1 _ (by unfold RangeAt ScalarsClean; decide +kernel) (by unfold HasRoom; decide +kernel)⟩,
    ⟨_, _, .cwbL2 _ (by unfold RangeAt ScalarsClean; decide +kernel) (by unfold HasRoom; decide +kernel)⟩,
    ⟨_, _, .cinvI _ (by unfold RangeAt ScalarsClean; decide +kernel)⟩,
    ⟨_, _, .rangeNone _ ⟨0, 1⟩ (.inl rfl) (by unfold ScalarsClean; decide +kernel) (by decide +kernel)⟩,
    ⟨_, _, .tlbinvPage _ (by unfold ScalarsClean; decide +kernel) (by decide +kernel) (by unfold MayDrop HasRoom; decide +kernel)⟩,
    ⟨_, _, .tlbinvRange _ (by unfold ScalarsClean; decide +kernel) (by decide +kernel) (by unfold MayDrop HasRoom; decide +kernel)⟩,
    ⟨_, _, .tlbinvAsid _ (by unfold MayDrop HasRoom; decide +kernel)⟩,
    ⟨_, _, .tlbinvAll _ (by decide +kernel) (by unfold MayDrop HasRoom; decide +kernel)⟩⟩

theorem wit_cases_systemActs_4 :
    (∃ x y, Claim.SystemActs (S [(1, 0x30000)]) (.launchW ⟨0, 1⟩) x y)
    ∧ (∃ x y, Claim.SystemActs (at_ (Device.setQueue (onWave (scal [(1, 0x30000)])) 0 { queue1 with ctl := 1 })) (.launchW ⟨0, 1⟩) x y)
    ∧ (∃ x y, Claim.SystemActs (S [(1, 0x30000)]) (.tapeW ⟨0, 1⟩) x y)
    ∧ (∃ x y, Claim.SystemActs ({ S [] with ctx := { (S []).ctx with defer := true } }) (.wflush ⟨0⟩) x y)
    ∧ (∃ x y, Claim.SystemActs (S []) (.wflush ⟨0⟩) x y) :=
  ⟨⟨_, _, by refine .launchNot _ ?_ (by unfold ScalarsClean; decide +kernel) ?_ ?_ (by unfold QueueTakes; decide +kernel) <;> decide +kernel⟩,
    ⟨_, _, by refine .launch _ ?_ (by unfold ScalarsClean; decide +kernel) ?_ ?_ (by unfold QueueTakes; decide +kernel) ?_ (by unfold HasRoom; decide +kernel) ?_ <;> (first | decide +kernel | exact ⟨by decide +kernel, by decide +kernel⟩)⟩,
    ⟨_, _, by refine .tape _ (by unfold ScalarsClean; decide +kernel) ?_ ?_ (by unfold HasRoom; decide +kernel) ?_ <;> (first | decide +kernel | exact ⟨by decide +kernel, by decide +kernel⟩)⟩,
    ⟨_, _, .wflushLater _ (by unfold HasRoom; decide +kernel) (.inl (by decide +kernel))⟩,
    ⟨_, _, .wflushNow _ (by unfold HasRoom; decide +kernel) (by decide +kernel) (by decide +kernel) (by decide +kernel)⟩⟩

theorem wit_cases_replayActs :
    (∃ x y, Claim.ReplayActs (W (fun w => { w with handler := true, tfrm := 0x100000, held := [rep 0x40000008 0x30000] })) (.rqr ⟨0, 0⟩) x y)
    ∧ (∃ x y, Claim.ReplayActs (W (fun w => { w with handler := true, tfrm := 0x100000, held := [rep 0x40000008 0x30000] })) (.rqd ⟨0, 0⟩) x y)
    ∧ (∃ x y, Claim.ReplayActs (W (fun w => { w with handler := true, tfrm := 0x100000, held := [rep 0x40000008 0x30000] })) (.rqw ⟨0, 0⟩) x y)
    ∧ (∃ x y, Claim.ReplayActs (at_ (put (onWave (fun w => { w with handler := true, tfrm := 0x100000, held := [rep 0x40000008 0x30000] })) 0x100600 (Replay.image (rep 0x40000008 0x30000)))) (.rqw ⟨0, 0⟩) x y) :=
  ⟨⟨_, _, .rqr _ (rep 0x40000008 0x30000) _ (by decide +kernel) (by decide +kernel) (okOr_eq (a := dev0) (by unfold frameWritten; decide +kernel))⟩,
    ⟨_, _, .rqd _ (rep 0x40000008 0x30000) 0 _ (by decide +kernel) (by decide +kernel) (by decide +kernel) (okOr_eq (a := dev0) (by unfold frameWritten; decide +kernel))⟩,
    ⟨_, _, by refine .rqwNot _ (rep 0x40000008 0x30000) _ ?_ ?_ ?_ (okOr_eq (a := []) (by unfold frameBytes; decide +kernel)) ?_ <;> decide +kernel⟩,
    ⟨_, _, by refine .rqw _ (rep 0x40000008 0x30000) _ _ ?_ ?_ ?_ (okOr_eq (a := []) (by unfold frameBytes; decide +kernel)) (okSome_eq (a := rep 0 0) ?_) <;> decide +kernel⟩⟩

theorem wit_RayActs_nop : RayRuns (R (ray1)) (ray1) ∧ ∃ x, RayActs (R (ray1)) (ray1) .miNop x :=
  ⟨(by unfold RayRuns; decide +kernel), _, .nop ⟩

theorem wit_RayActs_fetch : RayRuns (R (ray1)) (ray1) ∧ ∃ x, RayActs (R (ray1)) (ray1) (.miFetch ⟨0, 0⟩) x :=
  ⟨(by unfold RayRuns; decide +kernel), _, .fetch _ (zeros 32) (by decide +kernel) (by decide +kernel)⟩

theorem wit_RayActs_field : RayRuns (R (ray1)) (ray1) ∧ ∃ x, RayActs (R (ray1)) (ray1) (.miField ⟨1, 0, 0⟩) x :=
  ⟨(by unfold RayRuns; decide +kernel), _, .field _ 0 (by decide +kernel)⟩

theorem wit_RayActs_box : RayRuns (R (ray1)) (ray1) ∧ ∃ x, RayActs (R (ray1)) (ray1) (.miBox ⟨1, 0⟩) x :=
  ⟨(by unfold RayRuns; decide +kernel), _, .box _ [0, 0, 0, 0, 0, 0] 0 true (by decide +kernel) (by decide +kernel) (by unfold BoxResult; decide +kernel)⟩

theorem wit_RayActs_sort : RayRuns (R (ray1)) (ray1) ∧ ∃ x, RayActs (R (ray1)) (ray1) (.miSort ⟨1, 0, 2⟩) x :=
  ⟨(by unfold RayRuns; decide +kernel), _, .sort _ [0, 1] (by decide +kernel) (by unfold Sorted; decide +kernel)⟩

theorem wit_RayActs_nibble : RayRuns (R (ray1)) (ray1) ∧ ∃ x, RayActs (R (ray1)) (ray1) (.miSelect ⟨1, 0, 0, 0, 0⟩) x :=
  ⟨(by unfold RayRuns; decide +kernel), _, .nibble _ rfl⟩

theorem wit_RayActs_imm : RayRuns (R (ray1)) (ray1) ∧ ∃ x, RayActs (R (ray1)) (ray1) (.miSelect ⟨1, 0, 0, 1, 0x1FFF⟩) x :=
  ⟨(by unfold RayRuns; decide +kernel), _, .imm _ rfl⟩

theorem wit_RayActs_addi : RayRuns (R (ray1)) (ray1) ∧ ∃ x, RayActs (R (ray1)) (ray1) (.miSelect ⟨1, 0, 0, 2, 0x1FFF⟩) x :=
  ⟨(by unfold RayRuns; decide +kernel), _, .addi _ rfl⟩

theorem wit_RayActs_add : RayRuns (R (ray1)) (ray1) ∧ ∃ x, RayActs (R (ray1)) (ray1) (.miSelect ⟨1, 0, 0, 3, 0⟩) x :=
  ⟨(by unfold RayRuns; decide +kernel), _, .add _ rfl⟩

theorem wit_RayActs_push : RayRuns (R ({ ray1 with stack := List.replicate 11 0 })) ({ ray1 with stack := List.replicate 11 0 }) ∧ ∃ x, RayActs (R ({ ray1 with stack := List.replicate 11 0 })) ({ ray1 with stack := List.replicate 11 0 }) (.miPush ⟨15⟩) x :=
  ⟨(by unfold RayRuns; decide +kernel), _, .push _ (by decide +kernel)⟩

theorem wit_RayActs_pushFull : RayRuns (R ({ ray1 with stack := List.replicate 12 0 })) ({ ray1 with stack := List.replicate 12 0 }) ∧ ∃ x, RayActs (R ({ ray1 with stack := List.replicate 12 0 })) ({ ray1 with stack := List.replicate 12 0 }) (.miPush ⟨15⟩) x :=
  ⟨(by unfold RayRuns; decide +kernel), _, .pushFull _ (by decide +kernel)⟩

theorem wit_RayActs_pop : RayRuns (R ({ ray1 with stack := [7, 9] })) ({ ray1 with stack := [7, 9] }) ∧ ∃ x, RayActs (R ({ ray1 with stack := [7, 9] })) ({ ray1 with stack := [7, 9] }) (.miPop ⟨1⟩) x :=
  ⟨(by unfold RayRuns; decide +kernel), _, .pop _ 9 [7] (by decide +kernel)⟩

theorem wit_RayActs_tri : RayRuns (R (ray1)) (ray1) ∧ ∃ x, RayActs (R (ray1)) (ray1) (.miTri ⟨0⟩) x :=
  ⟨(by unfold RayRuns; decide +kernel), _, .tri _ (zeros 48) (by decide +kernel)⟩

theorem wit_RayActs_caps : RayRuns (R (ray1)) (ray1) ∧ ∃ x, RayActs (R (ray1)) (ray1) (.miCaps ⟨0⟩) x :=
  ⟨(by unfold RayRuns; decide +kernel), _, .caps _ (zeros 48) (by decide +kernel)⟩

theorem wit_RayActs_curve : RayRuns (R (ray1)) (ray1) ∧ ∃ x, RayActs (R (ray1)) (ray1) (.miCurve ⟨0⟩) x :=
  ⟨(by unfold RayRuns; decide +kernel), _, .curve _ (zeros 80) (by decide +kernel)⟩

theorem wit_RayActs_xform : RayRuns (RM ({ ray1 with regs := putAt ray1.regs 1 0x3000 0 })) ({ ray1 with regs := putAt ray1.regs 1 0x3000 0 }) ∧ ∃ x, RayActs (RM ({ ray1 with regs := putAt ray1.regs 1 0x3000 0 })) ({ ray1 with regs := putAt ray1.regs 1 0x3000 0 }) (.miXform ⟨2, 1⟩) x :=
  ⟨(by unfold RayRuns; decide +kernel), _, .xform _ (leBytes 4 0x3F800000 ++ zeros 16 ++ leBytes 4 0x3F800000 ++ zeros 16 ++ leBytes 4 0x3F800000 ++ zeros 36) (by decide +kernel) (by decide +kernel) (by decide +kernel)⟩

theorem wit_RayActs_xformNot : RayRuns (R (ray1)) (ray1) ∧ ∃ x, RayActs (R (ray1)) (ray1) (.miXform ⟨2, 1⟩) x :=
  ⟨(by unfold RayRuns; decide +kernel), _, .xformNot _ (zeros 80) (by decide +kernel) (by decide +kernel) (by decide +kernel)⟩

theorem wit_RayActs_popx : RayRuns (R ({ ray1 with inInst := true })) ({ ray1 with inInst := true }) ∧ ∃ x, RayActs (R ({ ray1 with inInst := true })) ({ ray1 with inInst := true }) .miPopx x :=
  ⟨(by unfold RayRuns; decide +kernel), _, .popx (by decide +kernel)⟩

theorem wit_RayActs_accept : RayRuns (R ({ ray1 with cand := { RHit.none with valid := true } })) ({ ray1 with cand := { RHit.none with valid := true } }) ∧ ∃ x, RayActs (R ({ ray1 with cand := { RHit.none with valid := true } })) ({ ray1 with cand := { RHit.none with valid := true } }) .miAccept x :=
  ⟨(by unfold RayRuns; decide +kernel), _, .accept (by decide +kernel)⟩

theorem wit_RayActs_acceptNone : RayRuns (R (ray1)) (ray1) ∧ ∃ x, RayActs (R (ray1)) (ray1) .miAccept x :=
  ⟨(by unfold RayRuns; decide +kernel), _, .acceptNone (by decide +kernel)⟩

theorem wit_RayActs_brNot : RayRuns (R (ray1)) (ray1) ∧ ∃ x, RayActs (R (ray1)) (ray1) (.miBr ⟨7, 0, 0, 5⟩) x :=
  ⟨(by unfold RayRuns; decide +kernel), _, .brNot _ (by decide +kernel)⟩

theorem wit_RayActs_loopEnd : RayRuns (R ({ ray1 with regs := putAt ray1.regs 1 1 0 })) ({ ray1 with regs := putAt ray1.regs 1 1 0 }) ∧ ∃ x, RayActs (R ({ ray1 with regs := putAt ray1.regs 1 1 0 })) ({ ray1 with regs := putAt ray1.regs 1 1 0 }) (.miLoop ⟨1, 0⟩) x :=
  ⟨(by unfold RayRuns; decide +kernel), _, .loopEnd _ (by decide +kernel) (by decide +kernel)⟩

theorem wit_RayActs_setbEmpty : RayRuns (R (ray2)) (ray2) ∧ ∃ x, RayActs (R (ray2)) (ray2) (.miSetb ⟨0, 0, 0⟩) x :=
  ⟨(by unfold RayRuns; decide +kernel), _, .setbEmpty _ rfl (by decide +kernel)⟩

theorem wit_RayActs_setbBox : RayRuns (R (ray2)) (ray2) ∧ ∃ x, RayActs (R (ray2)) (ray2) (.miSetb ⟨0, 0, 1⟩) x :=
  ⟨(by unfold RayRuns; decide +kernel), _, .setbBox _ [0, 0, 0, 0, 0, 0] rfl (by decide +kernel) (by decide +kernel) (by decide +kernel) (by decide +kernel)⟩

theorem wit_RayActs_setbPrim : RayRuns (R (ray2)) (ray2) ∧ ∃ x, RayActs (R (ray2)) (ray2) (.miSetb ⟨0, 0, 2⟩) x :=
  ⟨(by unfold RayRuns; decide +kernel), _, .setbPrim _ (zeros 48) rfl (by decide +kernel) (by decide +kernel) (by decide +kernel)⟩

theorem wit_RayActs_setbPrim_2 : RayRuns (R (ray2)) (ray2) ∧ ∃ x, RayActs (R (ray2)) (ray2) (.miSetb ⟨0, 2, 2⟩) x :=
  ⟨(by unfold RayRuns; decide +kernel), _, .setbPrim _ (zeros 80) rfl (by decide +kernel) (by decide +kernel) (by decide +kernel)⟩

theorem wit_RayEnds_term : RayRuns (R (ray1)) (ray1) ∧ RayEnds (ray1) .miTerm 1 0 :=
  ⟨(by unfold RayRuns; decide +kernel), .term ⟩

theorem wit_RayEnds_pop : RayRuns (R (ray1)) (ray1) ∧ RayEnds (ray1) (.miPop ⟨1⟩) 8 2 :=
  ⟨(by unfold RayRuns; decide +kernel), .pop _ (by decide +kernel)⟩

theorem wit_RayEnds_xform : RayRuns (R ({ ray1 with inInst := true })) ({ ray1 with inInst := true }) ∧ RayEnds ({ ray1 with inInst := true }) (.miXform ⟨1, 0⟩) 8 3 :=
  ⟨(by unfold RayRuns; decide +kernel), .xform _ (by decide +kernel)⟩

theorem wit_RayEnds_popx : RayRuns (R (ray1)) (ray1) ∧ RayEnds (ray1) .miPopx 8 3 :=
  ⟨(by unfold RayRuns; decide +kernel), .popx (by decide +kernel)⟩

theorem wit_RayEnds_setb : RayRuns (R (ray1)) (ray1) ∧ RayEnds (ray1) (.miSetb ⟨0, 0, 0⟩) 8 4 :=
  ⟨(by unfold RayRuns; decide +kernel), .setb _ (by decide +kernel)⟩

theorem wit_RayEnds_stb : RayRuns (R (ray1)) (ray1) ∧ RayEnds (ray1) (.miStb ⟨0, 0⟩) 8 4 :=
  ⟨(by unfold RayRuns; decide +kernel), .stb _ (by decide +kernel)⟩

theorem wit_RayEnds_fetch : RayRuns (R (ray1)) (ray1) ∧ RayEnds (ray1) (.miFetch ⟨0, 1⟩) 8 5 :=
  ⟨(by unfold RayRuns; decide +kernel), .fetch _ (by decide +kernel)⟩

theorem wit_RayEnds_field : RayRuns (R (ray1)) (ray1) ∧ RayEnds (ray1) (.miField ⟨1, 0, 7⟩) 8 1 :=
  ⟨(by unfold RayRuns; decide +kernel), .field _ (by decide +kernel)⟩

/-! ### Results of the engines -/

/-- A wave with registers 3 and 5, live in lane 0; a drain of columns 126 and 127 to them; a query of one level, features as f32, and as f16 pairs. -/
def takers : Device := onWave (fun w => { w with vfix := [(3, { VReg.blank with live := 1 }), (5, { VReg.blank with live := 1 })] })
def drain2 : EngOp := { op0 .mdrain 3 with scal := [0x0000017E], dests := [.fixed 3, .fixed 5], fmt := 0x11, ctl := 0x20 }
def query (out : Word) : EngOp := { op0 .hxq 4 with scal := [out * 256], dests := [.fixed 3, .fixed 5] }

theorem wit_engineResults :
    (op0 .mclr 3).kind = .mclr ∧ (0x58000205 : Word).extractLsb' 25 6 = 0x2C ∧ (0x58000205 : Word).extractLsb' 0 5 = 5
    ∧ (0x58000205 : Word).extractLsb' 5 4 = 0
    ∧ fmtOk { op0 .mload 3 with fmt := 0x11, reg := 1 }.fmt = true ∧ { op0 .mload 3 with fmt := 0x11, reg := 1 }.reg < 2 ∧ 63 < 64
    ∧ (EngOp.mdesc { op0 .mload 3 with scal := [0x20000000, 0x20000000] }).kind = 1
    ∧ (EngOp.mdesc { op0 .mload 3 with scal := [0, 0x10000000] }).ord = true
    ∧ (DCtl.of (drain2.scal.getD 0 0)).c0 + (DCtl.of (drain2.scal.getD 0 0)).nc = 128 ∧ (DCtl.of (drain2.scal.getD 0 0)).mxo = false
    ∧ 1 < (DCtl.of (drain2.scal.getD 0 0)).nc := by decide +kernel

theorem wit_reaches : ∃ w, Tbl.get? takers.waves drain2.wave = some w ∧ drain2.dests[1]? = some (.fixed 5) ∧ drain2.dests.Nodup ∧ Reaches w drain2 (.fixed 5) 0 :=
  ⟨okSome Wave.blank (Tbl.get? takers.waves 4), okSome_eq (by decide +kernel), rfl, by decide, by decide, by decide +kernel,
    { VReg.blank with live := 1 }, by decide +kernel, by decide +kernel, by decide +kernel⟩

theorem wit_queried : (∃ w, Tbl.get? takers.waves (query 0).wave = some w ∧ Reaches w (query 0) (.fixed 5) 0) ∧ (query 0).dests[1]? = some (.fixed 5)
    ∧ (query 0).dests.Nodup ∧ (((query 0).scal.getD 0 0).extractLsb' 8 2 ≠ 3)
    ∧ 1 < (if ((query 0).scal.getD 0 0).extractLsb' 8 2 = 0 then 2 else 1) * ((((query 0).scal.getD 0 0).extractLsb' 16 4).toNat + 1)
    ∧ 0 < (if ((query 2).scal.getD 0 0).extractLsb' 8 2 = 0 then 2 else 1) * ((((query 2).scal.getD 0 0).extractLsb' 16 4).toNat + 1) :=
  ⟨⟨okSome Wave.blank (Tbl.get? takers.waves 4), okSome_eq (by decide +kernel), by decide, by decide +kernel, { VReg.blank with live := 1 },
    by decide +kernel, by decide +kernel, by decide +kernel⟩, rfl, by decide, by decide, by decide, by decide⟩

theorem wit_rowSum : (∃ v, RowSum 0 [.nan] v) ∧ (∃ v, RowSum 0 [.inf true, .fin false 1 0] v) ∧ (∃ v, RowSum 0 [.fin true 0 0] v)
    ∧ ∃ v, RowSum 0 [.fin true 3 0, .fin false 1 5] v :=
  ⟨⟨_, .nan (.inl (by decide))⟩, ⟨_, .inf true (by decide) (by decide) (by decide)⟩, ⟨_, .zero (by simp)⟩,
    _, .sum 5 _ (by simp) ⟨false, 1, 5, by decide, by decide, by decide +kernel⟩ (by
      intro n m x h hm
      simp only [List.mem_cons, Fv.fin.injEq, List.not_mem_nil, or_false] at h
      rcases h with ⟨rfl, rfl, rfl⟩ | ⟨rfl, rfl, rfl⟩ <;> decide +kernel) rfl⟩

/-- A header of one level at 0x30000, with its fields: levels, place, VER, counts, VALID; the machine that holds it. -/
def headerOf (lev place ver bc0 bc1 valid : Nat) : List Byte :=
  zeros 40 ++ [BitVec.ofNat 8 lev, BitVec.ofNat 8 place, 0, 0] ++ leBytes 4 ver ++ leBytes 4 bc0 ++ leBytes 4 bc1 ++ leBytes 4 valid ++ zeros 4
    ++ zeros 8 ++ leBytes 4 16 ++ [10] ++ zeros 19
def holdsHeader (lev place ver bc0 bc1 valid : Nat) : Device := put dev0 0x30000 (headerOf lev place ver bc0 bc1 valid)
def leafH : Tr := ⟨0x30000, 0, 0, 0⟩
def verOp (k : EngKind) : EngOp := { op0 k 4 with scal := [0x30000, 0] }

theorem homeHeader (d : Device) (k : EngKind) (h : Device.header d 0 0 0x30000 = .ok leafH) :
    HomeHeader d (verOp k) 0x30000 leafH (Device.headerBytes d leafH 64) :=
  ⟨show (0x30000 : DWord) = pair64 0x30000 0 by decide, fun e => absurd e.2 (by decide), by decide, h, rfl⟩

theorem wit_versions :
    (∃ d v, Versions dev0 { op0 .vbind 4 with scal := [0, 0] } d v) ∧ (∃ d v, Versions dev0 { op0 .vpub 4 with scal := [0x30040, 0] } d v)
    ∧ (∃ d v, Versions { dev0 with tlbs := [] } (verOp .hxcfg) d v)
    ∧ (∃ d v, Versions (holdsHeader 1 0 3 0 1 1) (verOp .hxcfg) d v)
    ∧ (∃ d v, Versions { holdsHeader 1 0 0 0 0 1 with memErr := [0x30040 / 8] } (verOp .hxcfg) d v)
    ∧ (∃ d v, Versions (holdsHeader 17 0 0 0 0 1) (verOp .hxcfg) d v)
    ∧ (∃ d v, Versions (holdsHeader 1 2 3 0 0 0) (verOp .hxcfg) d v)
    ∧ (∃ d v, Versions (holdsHeader 1 0 3 0 1 0) (verOp .vbind) d v)
    ∧ (∃ d v, Versions { holdsHeader 1 0 0 0 0 1 with memErr := [0x30040 / 8] } (verOp .vbind) d v)
    ∧ (∃ d v, Versions (holdsHeader 0 0 0 0 0 1) (verOp .vbind) d v)
    ∧ (∃ d v, Versions (holdsHeader 1 0 3 0 1 1) (verOp .vbind) d v)
    ∧ (∃ d v, Versions (holdsHeader 1 0 3 0 1 0) (verOp .vpub) d v)
    ∧ (∃ d v, Versions (holdsHeader 1 0 3 0 1 1) (verOp .vpub) d v)
    ∧ ∃ d v, Versions (holdsHeader 1 0 0xFFFFFFFF 1 0 1) (verOp .vpub) d v :=
  ⟨⟨_, _, .nothing rfl (by decide)⟩, ⟨_, _, .malformed _ rfl (by decide) (by decide)⟩,
    ⟨_, _, .unreadable _ _ rfl (by decide) (by decide) (errOr_eq (a := 0) (by decide +kernel))⟩,
    ⟨_, _, .configBusy _ _ _ rfl (homeHeader _ _ (by decide +kernel)) (by decide +kernel)⟩,
    ⟨_, _, .configUnread _ _ _ _ rfl (homeHeader _ _ (by decide +kernel)) (by decide +kernel) (errOr_eq (a := 0) (by decide +kernel))⟩,
    ⟨_, _, .configBad _ _ _ _ rfl (homeHeader _ _ (by decide +kernel)) (by decide +kernel) (okOr_eq (a := []) (by decide +kernel)) (by unfold ConfigBad; decide +kernel)⟩,
    ⟨_, _, .config _ _ _ _ rfl (homeHeader _ _ (by decide +kernel)) (by decide +kernel) (okOr_eq (a := []) (by decide +kernel)) (by unfold ConfigBad; decide +kernel)⟩,
    ⟨_, _, .bindInvalid _ _ _ rfl (homeHeader _ _ (by decide +kernel)) (by decide +kernel)⟩,
    ⟨_, _, .bindUnread _ _ _ _ rfl (homeHeader _ _ (by decide +kernel)) (by decide +kernel) (errOr_eq (a := 0) (by decide +kernel))⟩,
    ⟨_, _, .bindBad _ _ _ _ rfl (homeHeader _ _ (by decide +kernel)) (by decide +kernel) (okOr_eq (a := []) (by decide +kernel)) (by unfold ConfigBad; decide +kernel)⟩,
    ⟨_, _, .bind _ _ _ _ 3 rfl (homeHeader _ _ (by decide +kernel)) (by decide +kernel) (okOr_eq (a := []) (by decide +kernel)) (by unfold ConfigBad; decide +kernel) (by decide +kernel)⟩,
    ⟨_, _, .pubInvalid _ _ _ rfl (homeHeader _ _ (by decide +kernel)) (by decide +kernel)⟩,
    ⟨_, _, .pubBusy _ _ _ 3 rfl (homeHeader _ _ (by decide +kernel)) (by decide +kernel) (by decide +kernel) (by decide +kernel)⟩,
    ⟨_, _, .pub _ _ _ 0xFFFFFFFF rfl (homeHeader _ _ (by decide +kernel)) (by decide +kernel) (by decide +kernel) (by decide +kernel)⟩⟩

/-- The records of the fixtures, with boxes of 16 elements; copies of the first, and of lanes of 4 bytes. -/
theorem wit_boxOk : BoxOk (TRec.of box2) [8, -2] ∧ (TRec.of box2).swiz = 0 ∧ 15 < (TRec.of box2).rowCount ∧ 31 < (TRec.of box2).pitch
    ∧ (∃ b, BoxByte (TRec.of box2) [8, -2] 2 15 b) ∧ (∃ b, BoxByte (TRec.of box2) [8, -2] 2 16 b) ∧ (∃ b, BoxByte (TRec.of box2) [8, -2] 1 15 b)
    ∧ BoxOk { TRec.of box1 with box := [1] ++ List.replicate 8 0 } [0] ∧ (∃ b, BoxByte { TRec.of box1 with box := [1] ++ List.replicate 8 0 } [0] 0 4 b) :=
  ⟨⟨by decide +kernel, by decide +kernel, by decide +kernel, by decide +kernel⟩, by decide +kernel, by decide +kernel, by decide +kernel,
    ⟨_, .elem (by decide +kernel) (by
      refine ⟨by decide +kernel, fun i h1 h2 => ?_⟩
      have : i = 1 := by
        have : (TRec.of box2).rank = 2 := by decide +kernel
        omega
      subst this
      decide +kernel)⟩,
    ⟨_, .fill (by decide +kernel) (fun h => absurd h.1 (by decide +kernel))⟩,
    ⟨_, .fill (by decide +kernel) (fun h => absurd (h.2 1 (by decide) (by decide +kernel)) (by decide +kernel))⟩,
    ⟨by decide +kernel, by decide +kernel, by decide +kernel, by decide +kernel⟩, ⟨_, .none (by decide +kernel)⟩⟩

/-- A box copy of the first record from origin 0; a copy of lane 0: 4 bytes between 0x30000 and local address 0x40. -/
def boxCopy : EngOp := { op0 .cpt 2 with scal := [0, 0, 0], desc := box1, aux := [0x80] }
def laneOp (k : EngKind) : EngOp := { op0 k 2 with scal := [0x30000, 0, 0x40, 0], rows := [[0], [0]] }
def sramBad : Device := { dev0 with memErr := [(2 ^ 48 + 0x40) / 8] }
def sramPoisoned : Device := Device.setCluster dev0 0 { Device.cluster dev0 0 with spois := [0x10] }

theorem laneWork (k : EngKind) : LaneWork (laneOp k) 0 0x30000 0x40 4 :=
  ⟨show ((List.range 64).filter (fun l => (1 : Mask).getLsbD l && !(0 : Mask).getLsbD l))[0]? = some 0 by decide,
    show (0x30000 : DWord) = pair64 0x30000 0 + (0 : Word).signExtend 64 by decide, show ((0x40 : Nat) : Int) = ((0x40 : Word).toNat : Int) + (0 : Word).toInt by decide,
    show 4 = 4 * 2 ^ ((0 : Word).extractLsb' 0 2).toNat by decide⟩

theorem wit_laneTile :
    (∃ x, LaneTile dev0 (laneOp .cpl) x) ∧ (∃ x, LaneTile { dev0 with tlbs := [] } (laneOp .cpl) x) ∧ (∃ x, LaneTile sramBad (laneOp .cpl) x)
    ∧ (∃ x, LaneTile sramBad (laneOp .cpls) x) ∧ (∃ x, LaneTile sramPoisoned (laneOp .cpls) x) ∧ (∃ x, LaneTile { dev0 with tlbs := [] } (laneOp .cpls) x)
    ∧ ∃ x, LaneTile dev0 (laneOp .cpls) x :=
  ⟨⟨_, .load _ _ _ _ _ _ rfl (laneWork _) (okOr_eq (a := (dev0, [])) (by decide +kernel)) (by decide +kernel)⟩,
    ⟨_, .loadFails _ _ _ _ _ rfl (laneWork _) (errOr_eq (a := 0) (by decide +kernel))⟩,
    ⟨_, .loadLost _ _ _ _ _ _ rfl (laneWork _) (okOr_eq (a := (dev0, [])) (by decide +kernel)) (by decide +kernel)⟩,
    ⟨_, .unread _ _ _ 0 _ rfl (laneWork _) (by decide) (by decide +kernel) (by decide +kernel) (fun j h => absurd h (by omega))⟩,
    ⟨_, .poisoned _ _ _ 0 _ rfl (laneWork _) (by decide) (by decide +kernel) (fun j h => absurd h (by omega))⟩,
    ⟨_, .storeFails _ _ _ _ _ rfl (laneWork _) (by decide +kernel) (errOr_eq (a := 0) (by decide +kernel))⟩,
    ⟨_, .store _ _ _ _ _ rfl (laneWork _) (by decide +kernel) (okOr_eq (a := leafH) (by decide +kernel))⟩⟩

/-- Does a source byte stand at or above 0x40000. -/
def aboveBase : BSrc → Bool
  | .glob a _ _ => decide (0x40000 ≤ a.toNat)
  | _ => true

theorem wit_tileStops : ∃ c, TileStops { dev0 with tlbs := [] } boxCopy (TRec.of box1) 0x40000 c := by
  refine ⟨_, rfl, rfl, ⟨0, by decide, 0xFF, 0, by decide +kernel, errOr_eq (a := 0) (by decide +kernel)⟩, ?_⟩
  rintro b x ⟨i, hi, m, f, e, -⟩
  have all : ∀ i < 128, aboveBase ((TRec.of box1).byteAt (boxOrigin boxCopy.scal (TRec.of box1).rank) (128 * boxCopy.phase + i)) = true := by
    decide +kernel
  have h := all i hi
  rw [e] at h
  exact of_decide_eq_true h

/-! ### Starting and saving -/

/-- Queue 0 whose head launch places gangs of one workgroup with one wave. -/
def starts : Device := qLaunch { Launch.blank with lrec := LRec.of rec0 }

theorem wit_started : 0 < (Device.launch starts (Device.gang (Device.setGang starts 50 { Gang.blank with launch := 7 }) 50).launch).lrec.waves
    ∧ Queue.headLaunch (Device.queue starts 0) = some 7 ∧ (Device.launch starts 7).lrec = LRec.of rec0 ∧ (Device.launch starts 7).next = 0
    ∧ 0 < (LRec.of rec0).gsize ∧ 0 < (LRec.of rec0).waves ∧ 4194303 < slotSize := by decide +kernel

/-- A workgroup with every header field: descriptor slot 0 poisoned, slot 15 written. -/
def full : Workgroup :=
  { Workgroup.blank with waves := [10], group := some 2, succ := .entry 960, bars := List.replicate 16 Bar.zero, allocs := [⟨0x3000, 2⟩],
                         descs := ⟨zeros 256, true⟩ :: List.replicate 14 ⟨zeros 256, false⟩ ++ [⟨1 :: zeros 255, false⟩] }

theorem wit_headerFields : HeaderFits full ∧ HeaderFits { full with group := none, succ := .unset }
    ∧ (∃ o bs, HeaderField dev0 saved1 (9, full) 0x1E o bs ∧ o = 0) ∧ (∃ bs, HeaderField dev0 saved1 (9, full) 0x1E 4 bs)
    ∧ (∃ bs, HeaderField dev0 saved1 (9, full) 0x1E 5 bs) ∧ (∃ bs, HeaderField dev0 saved1 (9, full) 0x1E 6 bs)
    ∧ (∃ bs, HeaderField dev0 saved1 (9, { full with group := none }) 0x1E 7 bs) ∧ (∃ bs, HeaderField dev0 saved1 (9, full) 0x1E 7 bs)
    ∧ (∃ bs, HeaderField dev0 saved1 (9, full) 0x1E 8 bs) ∧ (∃ bs, HeaderField dev0 saved1 (9, full) 0x1E 12 bs)
    ∧ (∃ bs, HeaderField dev0 saved1 (9, full) 0x1E 16 bs) ∧ (∃ bs, HeaderField dev0 saved1 (9, full) 0x1E 0x18 bs)
    ∧ (∃ bs, HeaderField dev0 saved1 (9, { full with succ := .unset }) 0x1E 0x18 bs) ∧ (∃ bs, HeaderField dev0 saved1 (9, full) 0x1E 0x20 bs)
    ∧ (∃ bs, HeaderField dev0 saved1 (9, full) 0x1E 0x1F0 bs) ∧ (∃ bs, HeaderField dev0 saved1 (9, full) 0x1E 0x200 bs)
    ∧ (∃ bs, HeaderField dev0 saved1 (9, full) 0x1E 0x10FF bs) ∧ ∃ bs, HeaderField dev0 saved1 (9, full) 0x1E 0x1F00 bs :=
  ⟨⟨by decide, by decide, by decide +kernel, by decide⟩, ⟨by decide, by decide, by decide +kernel, by decide⟩, ⟨_, _, .lnch, rfl⟩, ⟨_, .queue⟩, ⟨_, .index⟩,
    ⟨_, .waves⟩, ⟨_, .noGroup rfl⟩, ⟨_, .group 2 rfl⟩, ⟨_, .gx⟩, ⟨_, .gy⟩, ⟨_, .gz⟩, ⟨_, .successor 960 rfl⟩, ⟨_, .noSuccessor rfl⟩, ⟨_, .pair⟩,
    ⟨_, .bar 15 Bar.zero rfl⟩, ⟨_, .alloc 0 ⟨0x3000, 2⟩ rfl⟩, ⟨_, .poisonedDesc 0 ⟨zeros 256, true⟩ rfl rfl⟩,
    ⟨_, .desc 15 ⟨1 :: zeros 255, false⟩ rfl rfl ⟨1, by decide, by decide⟩⟩⟩

/-- A stopped wave with something in every field of its block: in a handler, and not. -/
def stopped (h : Bool) : Wave :=
  { Wave.blank with
    wlim := 48, quota := 16, handler := h, firstPoison := some (0x30000, 5), held := [rep 0x40000008 0x30000], launches := [⟨0x30000, 63, 16⟩],
    vbind := some ⟨0x30000, 1, []⟩, tlay := some ⟨0x40000, []⟩, tcode := some ⟨0x50000, []⟩, vfix := [(15, reg0)],
    win := if h then [(3, slot .spilled), (95, slot .resident)] else [(3, slot .spilled)], rays := [(0, ray0), (63, { ray0 with st := .finished })] }

theorem wit_blockFields (h : Bool) : BlockFits (stopped h) (zeros 1024) ∧ AtRest (stopped h) := by
  cases h <;> exact ⟨⟨by decide +kernel, by decide, by decide⟩,
    ⟨by decide, by decide +kernel, by decide, by decide, (by intro a c e; simp only [stopped, Option.some.injEq, Prod.mk.injEq] at e; obtain ⟨-, rfl⟩ := e; decide), by decide, by decide⟩⟩

theorem wit_blockFields_of :
    (∃ bs, BlockField (stopped true) 0 bs) ∧ (∃ bs, BlockField (stopped true) 1 bs) ∧ (∃ bs, BlockField (stopped true) 6 bs)
    ∧ (∃ bs, BlockField (stopped true) 0x38 bs) ∧ (∃ bs, BlockField (stopped true) 0x40 bs) ∧ (∃ bs, BlockField (stopped true) 0x48 bs)
    ∧ (∃ bs, BlockField (stopped true) 0x2F8 bs) ∧ (∃ bs, BlockField (stopped true) 0x37E bs) ∧ (∃ bs, BlockField (stopped true) 0x43FC bs)
    ∧ (∃ bs, BlockField (stopped true) 0x4457 bs) ∧ (∃ bs, BlockField (stopped true) 0x4458 bs) ∧ (∃ bs, BlockField (stopped true) 0x4468 bs)
    ∧ (∃ bs, BlockField (stopped true) 0x4470 bs) ∧ (∃ bs, BlockField (stopped true) 0x44E0 bs) ∧ (∃ bs, BlockField (stopped true) 0x4500 bs)
    ∧ (∃ bs, BlockField (stopped true) 0x5FFC bs) ∧ (∃ bs, BlockField (stopped true) 0x6078 bs) ∧ (∃ bs, BlockField (stopped true) 0x60F8 bs)
    ∧ (∃ bs, BlockField (stopped true) 0x9FFC bs) ∧ (∃ bs, BlockField (stopped true) 0xF800 bs) ∧ (∃ bs, BlockField (stopped true) 0xF83E bs)
    ∧ (∃ bs, BlockField (stopped true) 0xF840 bs) ∧ (∃ bs, BlockField (stopped true) 0xB000 bs) ∧ (∃ bs, BlockField (stopped true) 0xF7FC bs)
    ∧ ∃ bs, BlockField (stopped true) 0xFC50 bs :=
  ⟨⟨_, .trc⟩, ⟨_, .entries⟩, ⟨_, .mode⟩, ⟨_, .exited⟩, ⟨_, .helper⟩, ⟨_, .waiting⟩, ⟨_, .pc 63 (by decide)⟩, ⟨_, .wb 63 (by decide)⟩,
    ⟨_, .scalar 255 (by decide)⟩, ⟨_, .counter 7 (by decide)⟩, ⟨_, .version _ rfl⟩, ⟨_, .layout _ rfl⟩, ⟨_, .program _ rfl⟩, ⟨_, .pred 7 (by decide)⟩,
    ⟨_, .launch 0 _ rfl⟩, ⟨_, .reg 15 63 (by decide)⟩, ⟨_, .live 15 (by decide)⟩, ⟨_, .pois 15 (by decide)⟩, ⟨_, .reserve 47 63 rfl (by decide)⟩,
    ⟨_, .ray 0 ray0 rfl⟩, ⟨_, .noRay 62 (by decide) rfl⟩, ⟨_, .fetched 0 ray0 rfl⟩, ⟨_, .record 0 ray0 rfl (by decide)⟩,
    ⟨_, .result 63 7 { ray0 with st := .finished } rfl rfl (by decide)⟩, ⟨_, .trapped rfl⟩⟩

/-- A workgroup of one wave that has been saved, and the bytes of its slot that are not zero. -/
def saved2 : Saved := { saved1 with waves := [(10, { Wave.blank with wg := 9, wlim := 48, quota := 16, shape := 0x3F })] }
def group9 : Nat × Workgroup := (9, { Workgroup.blank with gang := 8, waves := [10] })
def written : Device :=
  { back1 with mem := [(6, 1), (7, 0xFF), (0x40000, 0x12), (0x44420, 48), (0x44422, 16), (0x44438, 0x3F)] }

theorem wit_slotGood : SlotGood written saved2 group9 0 ∧ group9.2.waves.Nodup ∧ 10 ∈ group9.2.waves :=
  ⟨⟨by decide +kernel, by decide +kernel, by decide +kernel⟩, by decide, by decide⟩

/-- A pair with nothing in it but scale codes 0. -/
def pair9 : Pair := { Device.pair dev0 0 with scales := (List.range 2048).map (fun i => (i, 0)), banks := [], slots := [], bankP := [], slotP := [] }

theorem zeroPieces {ps : List (Nat × List Byte)} (h : ∀ p ∈ ps, ∀ b ∈ p.2, b = 0) (a : Nat) : pieceByte ps a = 0 := by
  have step : ∀ (x : Byte), x = 0 → ps.foldl (fun x p => if p.1 ≤ a ∧ a < p.1 + p.2.length then p.2.getD (a - p.1) 0 else x) x = 0 := by
    induction ps with
    | nil => exact fun x e => e
    | cons p ps ih =>
      intro x e
      refine ih (fun q m => h q (List.mem_cons_of_mem _ m)) _ ?_
      show (if p.1 ≤ a ∧ a < p.1 + p.2.length then p.2.getD (a - p.1) 0 else x) = 0
      split
      · rename_i k
        have : a - p.1 < p.2.length := by omega
        rw [List.getD_eq_getElem _ _ this]
        exact h p List.mem_cons_self _ (List.getElem_mem _)
      · exact e
  exact step 0 rfl

theorem getD_zeros (n k : Nat) (h : k < n) : Tbl.getD ((List.range n).map (fun i => (i, 0))) k 127 = 0 := by
  have key : ∀ l : List Nat, k ∈ l → Tbl.getD (l.map (fun i => (i, 0))) k 127 = 0 := by
    intro l
    induction l with
    | nil => exact fun m => absurd m (by simp)
    | cons i l ih =>
      intro m
      rw [List.map_cons, Tbl.getD, Tbl.get?]
      split
      · rfl
      · rename_i e
        exact ih ((List.mem_cons.1 m).resolve_left (fun x => e x.symm))
  exact key _ (List.mem_range.2 h)

/-- A module whose memory holds the flags of that pair at 0x400020 and nothing else. -/
def flagged : Device := { dev0 with mem := [(0x400020, 1)] }

theorem zeroWord : ∀ b ∈ leBytes 4 (0 : Word).toNat, b = 0 := by decide
theorem zeroCell : ∀ b ∈ leBytes 2 (0 : BitVec 16).toNat, b = 0 := by decide

theorem zeroWords (n : Nat) (f : Nat → Word) (h : ∀ i, f i = 0) : ∀ b ∈ wordBytes ((List.range n).map f), b = 0 := by
  intro b k
  obtain ⟨x, hx, hb⟩ := List.mem_flatMap.1 k
  obtain ⟨i, -, rfl⟩ := List.mem_map.1 hx
  rw [h] at hb
  exact zeroWord b hb

theorem zeroCells (n : Nat) (f : Nat → BitVec 16) (h : ∀ i, f i = 0) : ∀ b ∈ (List.range n).flatMap (fun i => leBytes 2 (f i).toNat), b = 0 := by
  intro b k
  obtain ⟨i, -, hb⟩ := List.mem_flatMap.1 k
  rw [h] at hb
  exact zeroCell b hb

theorem zeroMap (n : Nat) (f : Nat → Byte) (h : ∀ i < n, f i = 0) : ∀ b ∈ (List.range n).map f, b = 0 := by
  intro b k
  obtain ⟨i, hi, rfl⟩ := List.mem_map.1 k
  exact h i (List.mem_range.1 hi)

theorem wit_holdsPair : (∀ i < 2048, Tbl.getD pair9.scales i 127 < 256) ∧ HoldsPair flagged 0x400000 pair9 := by
  have code : ∀ i < 2048, Tbl.getD pair9.scales i 127 = 0 := fun i h => getD_zeros 2048 i h
  refine ⟨fun i h => by rw [code i h]; decide, fun a h1 h2 => ?_, by decide +kernel⟩
  have e : Device.memByte flagged 0 (0x400000 + a) = 0 := by
    show (if 0x400020 = 0x400000 + a then (1 : Byte) else 0) = 0
    rw [if_neg (by omega)]
  rw [e, zeroPieces]
  intro p m
  simp only [Pair.pieces, List.mem_cons, List.not_mem_nil, or_false] at m
  rcases m with rfl | rfl | rfl | rfl | rfl
  · dsimp only
    exact zeroWords _ _ (fun _ => rfl)
  · exact zeroCells _ (fun i => Tbl.getD pair9.slots i 0) (fun _ => rfl)
  · exact zeroMap _ _ (fun i h => congrArg (BitVec.ofNat 8) (code i h))
  · exact zeroMap _ _ (fun _ _ => rfl)
  · exact zeroMap _ _ (fun _ _ => rfl)

/-! ### Translation -/

/-- A module whose memory holds the record of address space 0 at 0x40000 and tables below it that map address 0: five levels down to a leaf of 64 KiB, the root at 0x50000, with the entries given for levels 0 to 4. -/
def walks (record : DWord) (es : List DWord) : Device :=
  let base := [0x90000, 0x80000, 0x70000, 0x60000, 0x50000]
  let d := { State.reset.dev with sys := { State.reset.dev.sys with astb := 0x40000 } }
  let d := put d 0x40000 (leBytes 8 record.toNat)
  (base.zip es).foldl (fun d e => put d e.1 (leBytes 8 e.2.toNat)) d

/-- A good record, good tables and a leaf that permits everything. -/
def tables : List DWord := [0x39, 0x90003, 0x80003, 0x70003, 0x60003]
def good : Device := walks 0x50001 tables
def blocked : Device := { good with memErr := [0x50000 / 8] }

theorem rootGood (d : Device) (h : recordAt d 0 < 2 ^ 40) (b : Device.memBad d (recordAt d 0) 32 = false) (v : (entryWord d (recordAt d 0)).getLsbD 0 = true)
    (m : ¬ RecordBad d (recordAt d 0)) (e : ((entryWord d (recordAt d 0)).extractLsb' 12 40).toNat * 4096 = 0x50000) : Root d 0 (.ok 0x50000) := by
  rw [← e]
  exact .table h b v m

theorem sound (x : DWord) (n : Nat) (h : ¬ (x.extractLsb' 52 4 ≠ 0 ∨ x.extractLsb' 6 2 ≠ 0 ∨ x.getLsbD 2 = true ∨ x.extractLsb' 58 2 = 3 ∨ x.extractLsb' 56 2 = 3
      ∨ x.extractLsb' 48 4 ≠ 0 ∨ x.extractLsb' 60 4 ≠ 0 ∨ x.extractLsb' 58 2 ≠ 0))
    (k : (x.getLsbD 1 = true ∧ n ≠ 0 ∧ x.extractLsb' 8 4 = 0) ∨ (x.getLsbD 1 = false ∧ n < 3 ∧ (x.extractLsb' 8 44).toNat * 256 % 2 ^ indexLow n = 0)) :
    ¬ Malformed n x := by
  intro m
  cases m <;> simp_all
  omega

theorem wit_walk :
    Walk good 0 2 (2 ^ 40) (.error 0x07) ∧ Walk blocked 0 4 0x50000 (.error 0x0F) ∧ Walk (walks 0x50001 []) 0 4 0x50000 (.error 0x06)
    ∧ Walk (walks 0x50001 [0, 0, 0, 0, 0x61003 + 0x4]) 0 4 0x50000 (.error 0x07)
    ∧ Walk good 0 0 0x90000 (.ok (0x39, 0)) ∧ Walk good 0 1 0x80000 (.ok (0x39, 0)) := by
  refine ⟨.outside _ _ (by decide), .unread _ _ (by decide) (by decide +kernel), .absent _ _ (by decide) (by decide +kernel) (by decide +kernel),
    .malformed _ _ (by decide) (by decide +kernel) (by decide +kernel) (.zeros (.inr (.inr (by decide +kernel)))), ?_, ?_⟩
  all_goals
    have e0 : entryWord good (entryPlace 0x90000 0 0) = 0x39 := by decide +kernel
    have l0 : Walk good 0 0 0x90000 (.ok (0x39, 0)) := by
      rw [← e0]
      exact .leaf _ _ (by decide) (by decide +kernel) (by decide +kernel) (by rw [e0]; exact sound _ _ (by decide) (.inr (by decide))) (by decide +kernel)
  · exact l0
  · have e1 : entryWord good (entryPlace 0x80000 1 0) = 0x90003 := by decide +kernel
    refine .table 0 _ _ (by decide) (by decide +kernel) (by decide +kernel) (by rw [e1]; exact sound _ _ (by decide) (.inl (by decide))) (by decide +kernel) ?_
    rw [show ((entryWord good (entryPlace 0x80000 (0 + 1) 0)).extractLsb' 8 44).toNat * 256 = 0x90000 from by decide +kernel]
    exact l0

theorem wit_root :
    Root { good with sys := { good.sys with astb := 2 ^ 40 } } 0 (.error 0x07) ∧ Root { good with memErr := [0x40000 / 8] } 0 (.error 0x0F)
    ∧ Root (walks 0x50000 tables) 0 (.error 0x06) ∧ Root (walks 0x50003 tables) 0 (.error 0x07) ∧ Root good 0 (.ok 0x50000) :=
  ⟨.outside (by decide +kernel), .unread (by decide +kernel) (by decide +kernel), .absent (by decide +kernel) (by decide +kernel) (by decide +kernel),
    .malformed (by decide +kernel) (by decide +kernel) (by decide +kernel) (by unfold RecordBad; decide +kernel),
    rootGood _ (by decide +kernel) (by decide +kernel) (by decide +kernel) (by unfold RecordBad; decide +kernel) (by decide +kernel)⟩

theorem wit_malformed :
    Malformed 1 0x80 ∧ Malformed 1 0x0C00000000000000 ∧ Malformed 3 1 ∧ Malformed 0 2 ∧ Malformed 2 0x102 ∧ Malformed 1 0x1000000000002 ∧ Malformed 0 0x100
    ∧ Malformed 0 0x3000000000000 ∧ Malformed 0 0x1001000000000000 ∧ Malformed 0 0x0401000000000000 ∧ Malformed 0 0x0102000000000000 :=
  ⟨.zeros (by decide), .kinds (by decide), .noLeaf (by decide) (by decide), .noTable rfl (by decide), .tableAligned (by decide) (by decide) (by decide),
    .tablePlace (by decide) (by decide), .frame (by decide) (by decide), .reserved (by decide) (by decide), .key (by decide) (by decide) (by decide),
    .attr (by decide) (by decide) (by decide), .cache (by decide) (by decide) (by decide)⟩

theorem wit_leafGives : (∃ a, LeafGives good .w 0 4 0x29 16 a) ∧ (∃ a, LeafGives good .r 0 4 0x10000010039 16 a) ∧ ∃ a, LeafGives good .rw 0xFFFC 4 0x39 16 a :=
  ⟨⟨_, .denied (by unfold Permits; decide)⟩,
    ⟨_, .nowhere (by unfold Permits; decide) (by rintro (⟨-, h⟩ | ⟨h, -⟩ | ⟨h, -⟩ | ⟨h, -⟩ | ⟨h, -⟩) <;> revert h <;> decide +kernel)⟩,
    ⟨_, .there (by unfold Permits; decide) (.hbm (by decide +kernel) (by decide +kernel))⟩⟩

theorem wit_translates : Device.tlbFind good 0 0 (0 : DWord).toNat = none
    ∧ Translates good 0 .r 0x0100000000000000 4 (.error 0x07) ∧ Translates (walks 0x50000 tables) 0 .r 0 4 (.error 0x06)
    ∧ Translates blocked 0 .r 0 4 (.error 0x0F) ∧ ∃ a, Translates good 0 .r 0 4 a := by
  refine ⟨by decide +kernel, .form (by decide), .root _ (by decide) wit_root.2.2.1, .walk _ 0x50000 (by decide) ?_ wit_walk.2.1, ?_⟩
  · exact rootGood _ (by decide +kernel) (by decide +kernel) (by decide +kernel) (by unfold RecordBad; decide +kernel) (by decide +kernel)
  · have up : ∀ n t b, t < 2 ^ 40 → entryWord good (entryPlace t (n + 1) 0) = b → Device.memBad good (entryPlace t (n + 1) 0) 8 = false → b.getLsbD 0 = true →
        ¬ Malformed (n + 1) b → b.getLsbD 1 = true → ∀ r, Walk good 0 n ((b.extractLsb' 8 44).toNat * 256) r → Walk good 0 (n + 1) t r := by
      rintro n t b h rfl e v m l r w
      exact .table _ _ _ h e v m l w
    have w2 := up 1 0x70000 0x80003 (by decide) (by decide +kernel) (by decide +kernel) (by decide) (sound _ _ (by decide) (.inl (by decide))) (by decide) _ wit_walk.2.2.2.2.2
    have w3 := up 2 0x60000 0x70003 (by decide) (by decide +kernel) (by decide +kernel) (by decide) (sound _ _ (by decide) (.inl (by decide))) (by decide) _ w2
    have w4 := up 3 0x50000 0x60003 (by decide) (by decide +kernel) (by decide +kernel) (by decide) (sound _ _ (by decide) (.inl (by decide))) (by decide) _ w3
    exact ⟨_, .leaf 0x39 0x50000 0 _ (by decide) wit_root.2.2.2.2 w4
      (.there (by unfold Permits; decide) (.hbm (by decide +kernel) (by decide +kernel)))⟩

/-- Entries that a unit holds about address 0: the leaf, and the level 1 entry, which names a table that is there or is not. -/
def heldLeaf : TlbEntry := ⟨0, 0, 16, 0x39⟩
def heldTable (pte : DWord) : TlbEntry := ⟨0, 0, 21, pte⟩

theorem wit_buffered : Device.tlbFind { good with tlbs := [(0, heldLeaf), (0, heldTable 0x90003)] } 0 0 (0 : DWord).toNat = some heldLeaf
    ∧ (∃ a, Buffered { good with tlbs := [(0, heldLeaf)] } heldLeaf .r 0 4 a)
    ∧ Device.tlbFind { good with tlbs := [(0, heldTable 0x90003)] } 0 0 (0 : DWord).toNat = some (heldTable 0x90003)
    ∧ (∃ c, Buffered good (heldTable 0x10000000003) .r 0 4 (.error c)) ∧ ∃ a, Buffered good (heldTable 0x90003) .r 0 4 a :=
  ⟨by decide +kernel, ⟨_, .leaf _ (by decide) (.there (by unfold Permits; decide) (.hbm (by decide +kernel) (by decide +kernel)))⟩, by decide +kernel,
    ⟨_, .fails 0 0x07 (by decide) (by decide) (.outside _ _ (by decide))⟩,
    ⟨_, .table 0 0 0x39 _ (by decide) (by decide) wit_walk.2.2.2.2.1 (.there (by unfold Permits; decide) (.hbm (by decide +kernel) (by decide +kernel)))⟩⟩

/-! ### Floating point -/

theorem reads_one : Fmt.read f32 false (0x3F800000 : Word).toNat = .fin false 8388608 (-23) := by decide +kernel
theorem reads_four : Fmt.read f32 false (0x40800000 : Word).toNat = .fin false 8388608 (-21) := by decide +kernel
theorem reads_half : Fmt.read f32 false (0x3F000000 : Word).toNat = .fin false 8388608 (-24) := by decide +kernel
theorem reads_minus : Fmt.read f32 false (0xC3150000 : Word).toNat = .fin true 9764864 (-16) := by decide +kernel

theorem wit_less : Less (.inf true) (.fin false 0 0) ∧ Less (.fin true 3 7) (.inf false) ∧ Less (.inf true) (.inf false)
    ∧ Less (.fin true 1 (-3)) (.fin false 1 (-3)) := by
  refine ⟨.bottom _ (by decide) (by decide), .top _ _ _, .bottom _ (by decide) (by decide), .finite _ _ _ _ _ _ ?_⟩
  norm_num [ratOf]

theorem wit_selects (big : Bool) : 0x7F800001 < 2 ^ (Fmt.width f32 + 1) ∧ (∃ r, Selects f32 big 0x7FC00000 0xFFC00001 r) ∧ (∃ r, Selects f32 big 0x7F800001 0x3F800000 r)
    ∧ (∃ r, Selects f32 big 0 0x7FC00000 r) ∧ (∃ r, Selects f32 big 0x80000000 0 r) ∧ (∃ r, Selects f32 big 0xFF800000 0xFF800000 r)
    ∧ (∃ r, Selects f32 true 0xFF800000 0x3F800000 r) ∧ ∃ r, Selects f32 false 0x3F800000 0xFF800000 r :=
  ⟨by decide, ⟨_, .nans (by decide +kernel) (by decide +kernel)⟩, ⟨_, .right (by decide +kernel) (by decide +kernel)⟩,
    ⟨_, .left (by decide +kernel) (by decide +kernel)⟩, ⟨_, .zeros true false (-149) (-149) (by decide +kernel) (by decide +kernel)⟩,
    ⟨_, .first (by decide +kernel) (by decide +kernel) (by
        rintro ⟨n, m, e, f, h, -⟩
        rw [show Fmt.value f32 0xFF800000 = .inf true by decide +kernel] at h
        cases h) (by
        rw [show Fmt.value f32 0xFF800000 = .inf true by decide +kernel]
        intro h
        have k : Less (.inf true) (.inf true) := by cases big <;> exact h
        cases k with
        | bottom y a b => exact b rfl)⟩,
    ⟨_, .second (by decide +kernel) (by decide +kernel) (by
        rw [show Fmt.value f32 0xFF800000 = .inf true by decide +kernel]
        exact .bottom _ (by decide +kernel) (by decide +kernel))⟩,
    ⟨_, .second (by decide +kernel) (by decide +kernel) (by
        rw [show Fmt.value f32 0xFF800000 = .inf true by decide +kernel]
        exact .bottom _ (by decide +kernel) (by decide +kernel))⟩⟩

theorem wit_classOf : (∃ c, ClassOf 0x7F800001 c) ∧ (∃ c, ClassOf 0xFF800000 c) ∧ (∃ c, ClassOf 0x00800000 c) ∧ (∃ c, ClassOf 0x807FFFFF c)
    ∧ ∃ c, ClassOf 0x80000000 c :=
  ⟨⟨_, .nan (by decide) (by decide)⟩, ⟨_, .inf (by decide) (by decide)⟩, ⟨_, .normal (by decide) (by decide)⟩, ⟨_, .subnormal (by decide) (by decide)⟩,
    _, .zero (by decide) (by decide)⟩

theorem wit_scales : (∃ x, Scales 0 0 0x7FC00000 5 x) ∧ (∃ x, Scales 0 0 0xFF800000 5 x) ∧ (∃ x, Scales 0 0 0x80000000 5 x)
    ∧ ∃ x, Scales 0 0 0x3F800000 0x80000000 x :=
  ⟨⟨_, .nan (by decide +kernel)⟩, ⟨_, .inf true (by decide +kernel)⟩, ⟨_, .zero true (-149) (by decide +kernel)⟩,
    _, .finite false 8388608 (-23) (by decide +kernel) (by decide)⟩

theorem wit_fraction : (∃ x, Fraction 0 0 0x7F800000 x) ∧ ∃ x, Fraction 0 0 0x3F000000 x := by
  refine ⟨⟨_, .none (fun n k e h => ?_)⟩, _, .finite false 8388608 (-24) 0 _ (by decide +kernel) (by norm_num [ratOf]) rfl⟩
  rw [show in32 0 0x7F800000 = .inf false by decide +kernel] at h
  cases h

theorem wit_lerps : (∃ x, Lerps 0 0 0x7FC00000 0 0 x) ∧ (∃ x, Lerps 0 0 0x3F800000 0x40800000 0x3F000000 x)
    ∧ (∃ x, Lerps 0 0 0xFF800000 0xFF800000 0x3F000000 x) ∧ ∃ x, Lerps 0 0 0x7F800000 0xFF800000 0 x := by
  have one : in32 0 0x3F800000 = .fin false 8388608 (-23) := by decide +kernel
  have four : in32 0 0x40800000 = .fin false 8388608 (-21) := by decide +kernel
  have half : in32 0 0x3F000000 = .fin false 8388608 (-24) := by decide +kernel
  refine ⟨⟨_, .nan (.inl (by decide +kernel))⟩, ⟨_, .finite false 5 (-1) ⟨_, _, _, one⟩ ⟨_, _, _, four⟩ ⟨_, _, _, half⟩ (by decide) ?_⟩,
    ⟨_, .common true ⟨_, _, _, half⟩ (by decide +kernel) (by decide +kernel)⟩, _, .other (by decide +kernel) ?_ ?_⟩
  · rw [one, four, half]
    norm_num [ratOf]
  · rintro ⟨⟨n, m, e, h⟩, -⟩
    rw [show in32 0 0x7F800000 = .inf false by decide +kernel] at h
    cases h
  · rintro ⟨-, h⟩
    exact absurd h (by decide +kernel)

theorem wit_lerpsToZero : IsFinite (in32 0 0x3F800000) ∧ IsFinite (in32 0 0) ∧ IsFinite (in32 0 0x3F800000)
    ∧ ratOf (in32 0 0x3F800000) * (1 - ratOf (in32 0 0x3F800000)) + ratOf (in32 0 0) * ratOf (in32 0 0x3F800000) = 0 := by
  have one : in32 0 0x3F800000 = .fin false 8388608 (-23) := by decide +kernel
  have zero : in32 0 0 = .fin false 0 (-149) := by decide +kernel
  refine ⟨⟨_, _, _, one⟩, ⟨_, _, _, zero⟩, ⟨_, _, _, one⟩, ?_⟩
  rw [one, zero]
  norm_num [ratOf]

/-- A block whose largest number has the weight 2^k, and 31 zeros. -/
def peaked (k : Int) : List Fv := .fin true 1 k :: List.replicate 31 (.fin false 0 0)

theorem peak (k : Int) : Peak (peaked k) k := by
  refine ⟨fun v h => ?_, ⟨true, 1, k, List.mem_cons_self, by decide, ?_⟩, fun n m e h z => ?_⟩
  · rcases List.mem_cons.1 h with rfl | h
    · exact ⟨_, _, _, rfl⟩
    · rw [List.eq_of_mem_replicate h]
      exact ⟨_, _, _, rfl⟩
  · show ((Nat.log2 1 : Nat) : Int) + k = k
    rw [show Nat.log2 1 = 0 by decide]
    omega
  · rcases List.mem_cons.1 h with h | h
    · cases h
      show ((Nat.log2 1 : Nat) : Int) + k ≤ k
      rw [show Nat.log2 1 = 0 by decide]
      omega
    · cases List.eq_of_mem_replicate h
      exact absurd rfl z

theorem wit_quantises : ∀ e ∈ blockTypes, (∃ r, Quantises e.1 e.2.1 e.2.2 0 (List.replicate 32 0) (.nan :: peaked 0) r)
    ∧ (∃ r, Quantises e.1 e.2.1 e.2.2 0 (List.replicate 32 0) (.inf true :: peaked 0) r)
    ∧ (∃ r, Quantises e.1 e.2.1 e.2.2 0 (List.replicate 32 0) (List.replicate 32 (.fin true 0 0)) r)
    ∧ (∃ r, Quantises e.1 e.2.1 e.2.2 0 (List.replicate 32 0) (peaked (128 + e.2.1)) r)
    ∧ (∃ r, Quantises e.1 e.2.1 e.2.2 0 (List.replicate 32 0) (peaked (127 + e.2.1)) r)
    ∧ ∃ r, Quantises e.1 e.2.1 e.2.2 0 (List.replicate 32 0) (peaked (-128 + e.2.1)) r := fun e _ =>
  ⟨⟨_, .nan List.mem_cons_self⟩, ⟨_, .inf true (by decide) List.mem_cons_self⟩,
    ⟨_, .zero (fun v h => ⟨_, _, List.eq_of_mem_replicate h⟩)⟩, ⟨_, .over _ (peak _) (by omega)⟩, ⟨_, .block _ (peak _) (by omega)⟩,
    _, .block _ (peak _) (by omega)⟩

theorem wit_special : (∃ f r, Special false f 0x7F800001 r) ∧ (∃ f r, Special true f 0xFF800000 r) ∧ (∃ f r, Special true f 0x80000000 r)
    ∧ (∃ f r, Special true f 0 r) ∧ (∃ f r, Special true f 0x7F800000 r) ∧ (∃ r, Special false Fv.sqrt 0xC3150000 r)
    ∧ (∃ r, Special false Fv.exp2 0x3F800000 r) ∧ (∃ r, Special false Fv.exp2 0xC3150000 r) ∧ (∃ r, Special false Fv.log2 0x3F000000 r)
    ∧ (∃ r, Special false Fv.sqrt 0x40800000 r) ∧ (∃ r, Special false Fv.sinPi 0x3F800000 r) ∧ (∃ r, Special false Fv.sinPi 0x3F000000 r)
    ∧ (∃ r, Special false Fv.cosPi 0x40800000 r) ∧ ∃ r, Special false Fv.cosPi 0x3F000000 r := by
  refine ⟨⟨_, _, .nan _ _ List.mem_cons_self (by decide +kernel)⟩, ⟨_, _, .minusInf _ List.mem_cons_self⟩, ⟨_, _, .minusZero _ List.mem_cons_self⟩,
    ⟨_, _, .zero _ List.mem_cons_self⟩, ⟨_, _, .inf _ List.mem_cons_self⟩, ⟨_, .negative _ _ 9764863 (-16) (.inr (.inl rfl)) reads_minus⟩,
    ⟨_, .power _ 1 ⟨_, _, _, reads_one⟩ ?_ (by decide)⟩, ⟨_, .small _ (-149) rfl ⟨_, _, _, reads_minus⟩ ?_ (by decide)⟩,
    ⟨_, .log _ (-1) ⟨_, _, _, reads_half⟩ ?_⟩, ⟨_, .root _ 2 0 ⟨_, _, _, reads_four⟩ (by decide) ?_⟩, ⟨_, .sinInteger _ 1 _ _ _ reads_one ?_⟩,
    ⟨_, .sinHalf _ 0 ⟨_, _, _, reads_half⟩ ?_⟩, ⟨_, .cosInteger _ 4 ⟨_, _, _, reads_four⟩ ?_⟩, _, .cosHalf _ 0 ⟨_, _, _, reads_half⟩ ?_⟩
  all_goals
    try rw [reads_one]
    try rw [reads_half]
    try rw [reads_four]
    try rw [reads_minus]
    norm_num [ratOf]

theorem wit_specialDiv : (∃ r, SpecialDiv .nan (.inf true) r) ∧ (∃ r, SpecialDiv (.inf true) (.inf false) r) ∧ (∃ r, SpecialDiv (.fin true 0 0) (.fin false 0 0) r)
    ∧ (∃ r, SpecialDiv (.inf true) (.fin false 0 0) r) ∧ (∃ r, SpecialDiv (.fin true 1 0) (.fin false 0 0) r)
    ∧ (∃ r, SpecialDiv (.fin true 0 0) (.inf false) r) ∧ ∃ r, SpecialDiv (.fin true 0 0) (.fin false 1 0) r :=
  ⟨⟨_, .nan _ _ (.inl rfl)⟩, ⟨_, .infs _ _⟩, ⟨_, .zeros _ _ _ _⟩, ⟨_, .inf _ _ _ _⟩, ⟨_, .byZero _ _ _ _ _ (by decide)⟩, ⟨_, .byInf _ _ _ _⟩,
    _, .zero _ _ _ _ _ (by decide)⟩

/-- A third lies between two numbers that round to one pattern; the other functions at 1. -/
def below3 : Fv := .fin false 22906492245 (-36)
def above3 : Fv := .fin false 22906492246 (-36)
def one0 : Fv := .fin false 1 0

theorem reads_three : Fmt.read f32 false (0x40400000 : Word).toNat = .fin false 12582912 (-22) := by decide +kernel

theorem wit_between : Closes false below3 above3 (nearest false below3) ∧ (∃ v, Between false below3 above3 v ∧ v = Fv.rcp (Fmt.read f32 false (0x40400000 : Word).toNat))
    ∧ (∃ v, Between false below3 above3 v ∧ v = Fv.div (Fmt.read f32 false (0x3F800000 : Word).toNat) (Fmt.read f32 false (0x40400000 : Word).toNat))
    ∧ Closes false one0 one0 (nearest false one0) ∧ (∃ v, Between false one0 one0 v ∧ v = Fv.sqrt (Fmt.read f32 false (0x3F800000 : Word).toNat))
    ∧ ∃ v, Between false one0 one0 v ∧ v = Fv.rsqrt (Fmt.read f32 false (0x3F800000 : Word).toNat) := by
  refine ⟨⟨⟨⟨_, _, _, rfl⟩, ⟨_, _, _, rfl⟩⟩, rfl, by decide +kernel⟩, ⟨_, .rcp _ ⟨_, _, _, reads_three⟩ ?_ ?_, rfl⟩,
    ⟨_, .div _ _ ⟨_, _, _, reads_one⟩ ⟨_, _, _, reads_three⟩ ?_ ?_, rfl⟩, ⟨⟨⟨_, _, _, rfl⟩, ⟨_, _, _, rfl⟩⟩, rfl, rfl⟩,
    ⟨_, .sqrt _ ⟨_, _, _, reads_one⟩ ?_ ?_ ?_, rfl⟩, _, .rsqrt _ ⟨_, _, _, reads_one⟩ ?_ ?_ ?_, rfl⟩
  all_goals
    try rw [reads_one]
    try rw [reads_three]
    norm_num [ratOf, below3, above3, one0]

theorem wit_bounds : IsFinite (Fmt.read f32 false (0x3F000000 : Word).toNat) ∧ ((0 : Int) : ℚ) ≤ ratOf (Fmt.read f32 false (0x3F000000 : Word).toNat)
    ∧ ratOf (Fmt.read f32 false (0x3F000000 : Word).toNat) < ((0 : Int) : ℚ) + 1
    ∧ (2 : ℚ) ^ (-1 : Int) ≤ ratOf (Fmt.read f32 false (0x3F000000 : Word).toNat) ∧ ratOf (Fmt.read f32 false (0x3F000000 : Word).toNat) < (2 : ℚ) ^ ((-1 : Int) + 1) := by
  rw [reads_half]
  refine ⟨⟨_, _, _, rfl⟩, ?_, ?_, ?_, ?_⟩ <;> norm_num [ratOf]

end Sys2Proof.Tests
end

section
/-! Byte order of memory (R1): the bytes of a value, one by one, and memory that holds them. -/

namespace Sys2Proof

/-- Byte `k` of a value, least significant first, holds its bits `8 * k + 7` down to `8 * k` (R1). -/
theorem getD_leBytes {n k : Nat} (x : Nat) (h : k < n) :
    (leBytes n x).getD k 0 = BitVec.ofNat 8 (x / 2 ^ (8 * k)) := by
  induction n generalizing x k with
  | zero => omega
  | succ n ih =>
    cases k with
    | zero => simp [leBytes]
    | succ k =>
      have hdiv : x / 256 / 2 ^ (8 * k) = x / 2 ^ (8 * (k + 1)) := by
        rw [Nat.div_div_eq_div_mul, Nat.mul_add, Nat.pow_add, Nat.mul_comm]
      rw [leBytes, List.getD_cons_succ, ih (x / 256) (by omega), hdiv]

namespace Machine

/-- A value of `n` bytes written to memory puts its byte `k` at the `k`-th address. -/
theorem Memory.read_writeN_leBytes (m : Memory) (a v : Nat) {n k : Nat} (h : k < n) :
    Memory.read (Memory.writeN m a (leBytes n v)) (a + k) = BitVec.ofNat 8 (v / 2 ^ (8 * k)) := by
  rw [Memory.read_writeN, length_leBytes, if_pos (by omega), Nat.add_sub_cancel_left, getD_leBytes v h]

/-- A value written to memory reads back, modulo its width. -/
theorem Memory.ofLeBytes_readN_writeN_leBytes (m : Memory) (a n v : Nat) :
    ofLeBytes (Memory.readN (Memory.writeN m a (leBytes n v)) a n) = v % 2 ^ (8 * n) := by
  have hread : Memory.readN (Memory.writeN m a (leBytes n v)) a n = leBytes n v := by
    simpa using Memory.readN_writeN m a (leBytes n v)
  rw [hread, ofLeBytes_leBytes, Nat.pow_mul]

/-- Settles O29: what a write of a value's bytes leaves at each address, by the laws of `Memory.writeN`. -/
theorem littleEndian : Obligations.LittleEndian := by
  intro m a n v
  refine ⟨fun k hk => Memory.read_writeN_leBytes m a v hk, Memory.ofLeBytes_readN_writeN_leBytes m a n v, ?_⟩
  intro x hx
  exact Memory.read_writeN_out m a (leBytes n v) x (by rwa [length_leBytes])

end Machine
end Sys2Proof
end

section
/-! Major 0x00 (R21): a field of a word as the decoder reads it, and the words that the first reading of decode refuses. -/

namespace Sys2Proof
namespace Machine

/-- A slice of a word is the field that the decoder reads from the word's number. -/
theorem toNat_extractLsb'_eq_fld (w : Word) (hi lo : Nat) :
    (w.extractLsb' lo (hi + 1 - lo)).toNat = fld w.toNat hi lo := by
  rw [BitVec.extractLsb'_toNat, Nat.shiftRight_eq_div_pow, fld]

/-- A fault of the first reading of a word is the word's decode fault. -/
theorem decodeWord_of_decodeRaw_error {w : Word} {f : DecodeFault} (h : decodeRaw w.toNat = .error f) :
    decodeWord w = .error f := by
  rw [decodeWord, h]

theorem decodeRaw_of_major_zero {w : Nat} (h : fld w 30 25 = 0) : decodeRaw w = .error .illegalInstruction := by
  simp only [decodeRaw, h]

/-- Major 0x00 raises illegal instruction whatever the chain bit and the other fields hold (R21). -/
theorem decodeWord_of_major_zero {w : Word} (h : w.extractLsb' 25 6 = 0) : decodeWord w = .error .illegalInstruction := by
  have hmajor : fld w.toNat 30 25 = 0 := by
    rw [← toNat_extractLsb'_eq_fld, h]
    rfl
  exact decodeWord_of_decodeRaw_error (decodeRaw_of_major_zero hmajor)

/-- Settles O2: no major of the opcode map is 0x00, and the all-zero word is one instance. -/
theorem reservedMajor : Obligations.ReservedMajor :=
  ⟨fun _ hmajor => decodeWord_of_major_zero hmajor, rfl, decodeWord_of_major_zero (by decide)⟩

end Machine
end Sys2Proof
end

section
/-! Issue (R96, R98): the words of major 0x03 as the decoder reads them, what `nop` leaves as it was, and the lane that `elect` chooses. -/

namespace Sys2Proof
namespace Machine

/-- The issue rules and the decoder name the same field of a word. -/
theorem bitsOf_eq_fld (w hi lo : Nat) : bitsOf w hi lo = fld w hi lo := by
  rw [bitsOf, fld, Nat.shiftRight_eq_div_pow]

/-- The major and the function number of a word of major 0x03, as the decoder reads them. -/
theorem fld_of_flow {w : Word} {n : BitVec 5} (hmajor : w.extractLsb' 25 6 = 3) (hfn : w.extractLsb' 0 5 = n) :
    fld w.toNat 30 25 = 3 ∧ fld w.toNat 4 0 = n.toNat := by
  constructor
  · rw [← toNat_extractLsb'_eq_fld, hmajor]
    rfl
  · rw [← toNat_extractLsb'_eq_fld, hfn]

/-- A field of a word is zero for the decoder only where its slice is zero. -/
theorem fld_ne_zero {w : Word} {hi lo : Nat} (h : w.extractLsb' lo (hi + 1 - lo) ≠ 0) : fld w.toNat hi lo ≠ 0 := by
  rw [← toNat_extractLsb'_eq_fld]
  exact BitVec.toNat_ne.1 h

theorem decodeRaw_of_major_flow {w : Nat} (h : fld w 30 25 = 3) : decodeRaw w = decodeFlow w := by
  simp only [decodeRaw, h]

/-- An instruction whose fields break the rules that a word alone decides is an illegal operand. -/
theorem decodeWord_of_not_wf {w : Word} {i : Instr} (hraw : decodeRaw w.toNat = .ok i) (hwf : Instr.wf i = false) :
    decodeWord w = .error .illegalOperand := by
  simp [decodeWord, hraw, hwf]

theorem decodeFlow_nop {w : Nat} (h : fld w 4 0 = 8) :
    decodeFlow w = if fld w 24 5 == 0 then .ok (.nop (C0.ofWord w)) else .error .illegalOperand := by
  simp only [decodeFlow, h]

theorem decodeFlow_elect {w : Nat} (h : fld w 4 0 = 5) :
    decodeFlow w = if fld w 24 19 == 0 && fld w 10 8 == 0 then .ok (.elect (CSP.ofWord w)) else .error .illegalOperand := by
  simp only [decodeFlow, h]

/-! ### `nop` -/

/-- `nop` answers the state that it was given (R98). -/
theorem exec_nop (o : C0) (s : State) : exec (.nop o) s = .next s := rfl

/-- Major 0x03 occupies SC (R23). -/
theorem pipeOf_of_major_flow {w : Word} (h : w.extractLsb' 25 6 = 3) : pipeOf (bitsOf w.toNat 30 25) = .sc := by
  rw [bitsOf_eq_fld, ← toNat_extractLsb'_eq_fld, h]
  rfl

/-- A `nop` word with a bit set in its other fields is an illegal operand (R45). -/
theorem decodeWord_nop_of_field_ne_zero {w : Word} (hmajor : w.extractLsb' 25 6 = 3) (hfn : w.extractLsb' 0 5 = 8)
    (hfield : w.extractLsb' 5 20 ≠ 0) : decodeWord w = .error .illegalOperand := by
  obtain ⟨hmaj, hfun⟩ := fld_of_flow hmajor hfn
  have hne : fld w.toNat 24 5 ≠ 0 := fld_ne_zero hfield
  apply decodeWord_of_decodeRaw_error
  rw [decodeRaw_of_major_flow hmaj, decodeFlow_nop hfun, if_neg (by simpa using hne)]

/-- Settles O28: `nop` is the identity of the state, and its word has one form for each chain bit. -/
theorem nopDoesNothing : Obligations.NopDoesNothing :=
  ⟨fun s c => exec_nop ⟨c⟩ s, rfl, by decide +kernel, fun _ hmajor hfn =>
    ⟨pipeOf_of_major_flow hmajor, decodeWord_nop_of_field_ne_zero hmajor hfn⟩⟩

/-! ### `elect` -/

/-- The first lane of a mask, or 64 for a mask without lanes, is the one that no lane of the mask stands below. -/
theorem headD_lanesOf_eq {m : DWord} {L : Nat} (hin : L < 64 ∧ m.getLsbD L = true ∨ L = 64)
    (hbelow : ∀ l < L, l < 64 → m.getLsbD l = false) : (lanesOf m).headD 64 = L := by
  have hhead : (lanesOf m).head? = (List.range 64).find? (fun l => m.getLsbD l) := List.head?_filter
  rw [List.headD_eq_head?_getD, hhead]
  rcases hin with ⟨hlt, hset⟩ | rfl
  · have hfind : (List.range 64).find? (fun l => m.getLsbD l) = some L := by
      rw [List.find?_range_eq_some]
      exact ⟨hset, List.mem_range.2 hlt, fun l hl => by simp [hbelow l hl (hl.trans hlt)]⟩
    rw [hfind, Option.getD_some]
  · have hfind : (List.range 64).find? (fun l => m.getLsbD l) = none := by
      rw [List.find?_range_eq_none]
      exact fun l hl => by simp [hbelow l hl hl]
    rw [hfind, Option.getD_none]

/-- The lanes that a reduction, a vote or an election goes over: those of the subset that are no helpers (R96, R121). -/
theorem getLsbD_lanes_andn_helpers (s : State) {l : Nat} (hl : l < 64) :
    (s.ctx.lanes &&& ~~~(Wave.helpers (State.src s))).getLsbD l = Claim.contributes s l := by
  simp [Claim.contributes, hl]

/-- The lane that `elect` chooses. -/
theorem headD_lanesOf_contributes {s : State} {L : Nat} (hin : L < 64 ∧ Claim.contributes s L = true ∨ L = 64)
    (hbelow : ∀ l < L, l < 64 → Claim.contributes s l = false) :
    (lanesOf (s.ctx.lanes &&& ~~~(Wave.helpers (State.src s)))).headD 64 = L := by
  apply headD_lanesOf_eq
  · exact hin.imp_left fun ⟨hlt, hc⟩ => ⟨hlt, (getLsbD_lanes_andn_helpers s hlt).trans hc⟩
  · exact fun l hl h64 => (getLsbD_lanes_andn_helpers s h64).trans (hbelow l hl h64)

/-- A scalar and a predicate may be written in either order. -/
theorem State.setSc_setPred (s : State) (n : Nat) (e : Elem) (k : Nat) (v p : Nat → Bool) :
    State.setSc (State.setPred s k v p) n e = State.setPred (State.setSc s n e) k v p := by
  simp only [State.setSc, State.setPred, State.mapWave_mapWave]
  rfl

/-- The change of `elect` when it chooses lane `L`, 64 for none (R96). -/
def changeElect (o : CSP) (L : Nat) : Change :=
  { preds := [(o.p.toNat, fun l => (decide (l = L), false))], scals := [(o.s.toNat, ⟨BitVec.ofNat 32 L, false⟩)] }

theorem changeElect_sound (o : CSP) (L : Nat) : Change.Sound (changeElect o L) :=
  ⟨List.nodup_nil, List.nodup_singleton _, List.nodup_singleton _, List.nodup_nil, .inr (.inl (List.cons_ne_nil _ _))⟩

/-- `elect` makes the change of the first lane of the subset that is no helper. -/
theorem exec_elect (o : CSP) (s : State) : exec (.elect o) s
    = .next (State.does s (changeElect o ((lanesOf (s.ctx.lanes &&& ~~~(Wave.helpers (State.src s)))).headD 64))) := by
  show execElect o s = _
  simp only [execElect, State.does, changeElect, List.foldl_cons, List.foldl_nil, ← State.setSc_setPred, ← beq_eq_decide]
  cases lanesOf (s.ctx.lanes &&& ~~~(Wave.helpers (State.src s))) with
  | nil => simp only [List.headD_nil]
  | cons l ls => simp only [List.headD_cons]

/-- `elect` completes with the lowest lane of the subset that is no helper (R96). -/
theorem completes_elect (s : State) (o : CSP) {L : Nat} (hin : L < 64 ∧ Claim.contributes s L = true ∨ L = 64)
    (hbelow : ∀ l < L, l < 64 → Claim.contributes s l = false) : Claim.Completes (.elect o) s (changeElect o L) := by
  refine ⟨State.does s (changeElect o L), ?_, Change.leads_does s _ (changeElect_sound o L) rfl⟩
  rw [exec_elect, headD_lanesOf_contributes hin hbelow]

/-- The word of `elect` (R96). -/
theorem encodeNat_elect (c : BitVec 1) (n : BitVec 8) (k : BitVec 3) :
    encodeNat (.elect ⟨c, n, k⟩) = some (c.toNat * 2 ^ 31 + 0x06000005 + n.toNat * 2 ^ 11 + k.toNat * 2 ^ 5) := by
  simp only [encodeNat, CSP.bits, Option.some.injEq]
  omega

/-- `elect` into p0 is no well-formed instruction (R96). -/
theorem wf_elect_eq_false {o : CSP} (h : o.p = 0) : Instr.wf (.elect o) = false := by
  simp [Instr.wf, h]

/-- An `elect` word that names p0, or that has a bit set in its other fields, is an illegal operand (R45, R96). -/
theorem decodeWord_elect_of_illegal {w : Word} (hmajor : w.extractLsb' 25 6 = 3) (hfn : w.extractLsb' 0 5 = 5)
    (hbad : w.extractLsb' 5 3 = 0 ∨ w.extractLsb' 8 3 ≠ 0 ∨ w.extractLsb' 19 6 ≠ 0) :
    decodeWord w = .error .illegalOperand := by
  obtain ⟨hmaj, hfun⟩ := fld_of_flow hmajor hfn
  have hraw := (decodeRaw_of_major_flow hmaj).trans (decodeFlow_elect hfun)
  by_cases hzero : (fld w.toNat 24 19 == 0 && fld w.toNat 10 8 == 0) = true
  · rw [if_pos hzero] at hraw
    simp only [Bool.and_eq_true, beq_iff_eq] at hzero
    obtain ⟨htop, hmid⟩ := hzero
    rcases hbad with hp0 | h | h
    · refine decodeWord_of_not_wf hraw (wf_elect_eq_false ?_)
      show BitVec.ofNat 3 (w.toNat / 2 ^ 5) = 0
      rw [← Nat.shiftRight_eq_div_pow]
      exact hp0
    · exact absurd hmid (fld_ne_zero h)
    · exact absurd htop (fld_ne_zero h)
  · rw [if_neg hzero] at hraw
    exact decodeWord_of_decodeRaw_error hraw

/-- Settles O18: `elect` is the change of the lane that `headD_lanesOf_contributes` names. -/
theorem electChooses : Obligations.ElectChooses :=
  ⟨fun s o _ hin hbelow => completes_elect s o hin hbelow, fun _ _ => wf_elect_eq_false rfl, encodeNat_elect, rfl,
    fun _ => decodeWord_elect_of_illegal, by decide +kernel⟩

end Machine
end Sys2Proof
end

section
/-! Rays (R343, R345, R348): the micro-registers, what a micro-operation of a running ray leaves, and the stack of handles. -/

namespace Sys2Proof
namespace Machine

/-- The model's and the statements' reading of a micro-register agree (R343). -/
@[simp] theorem Ray.x_eq_reg (r : Ray) (i : BitVec 4) : Ray.x r i = Claim.reg r i := by
  by_cases hi : i = 0 <;> simp [Ray.x, Claim.reg, hi]

/-- The model's and the statements' writing of a micro-register agree (R343). -/
@[simp] theorem Ray.setX_eq_setReg (r : Ray) (i : Nat) (v : Word) : Ray.setX r i v = Claim.setReg r i v := by
  by_cases hi : i = 0 <;> simp [Ray.setX, Claim.setReg, hi]

/-- A ray whose operation ends at a micro-operation has counted it and is finished (R345, R358). -/
theorem Ray.finish_counted (r : Ray) (c n : Nat) : Ray.finish (Ray.counted r) c n = Claim.ended (Claim.ranOn r r.mpc) c n := by
  simp only [Ray.finish, Ray.counted, Claim.ended, Claim.ranOn, Bool.and_eq_true, decide_eq_true_eq]

/-! ### One micro-operation of a running ray -/

theorem State.ray?_of_runs {s : State} {r : Ray} (hr : Claim.RayRuns s r) : State.ray? s = some r := by
  obtain ⟨hget, hst, -⟩ := hr
  simp [State.ray?, hget, hst]

theorem Ray.spent_of_runs {s : State} {r : Ray} (hr : Claim.RayRuns s r) : Ray.spent r = false := by
  obtain ⟨-, -, hbudget⟩ := hr
  simpa [Ray.spent] using hbudget

/-- The index that `State.micro` counts on to is the statements' next index (R345, R373). -/
theorem mpc_add_step_eq_nextIndex (r : Ray) : (r.mpc + if r.rf.isSome then 0 else 1) = Claim.nextIndex r := by
  rw [Claim.nextIndex]
  split <;> rfl

section
variable {s : State} {r r' : Ray} {d : Device} {f : Device → Wave → Ray → Device × MRes} (hr : Claim.RayRuns s r)
include hr

/-- A micro-operation that goes on leaves its ray at the next index (R345). -/
theorem State.micro_of_next (hf : f s.dev (Claim.rayWave s) r = (d, .next r')) :
    State.micro s f = .next (Claim.withRay s d (Claim.ranOn r' (Claim.nextIndex r))) := by
  rw [Claim.rayWave] at hf
  simp only [State.micro, State.ray?_of_runs hr, Ray.spent_of_runs hr, Bool.false_eq_true, if_false, hf, mpc_add_step_eq_nextIndex]
  rfl

/-- A micro-operation that ends its ray's operation leaves the ray finished (R355, R358). -/
theorem State.micro_of_fin {c n : Nat} (hf : f s.dev (Claim.rayWave s) r = (d, .fin r' c n)) :
    State.micro s f = .next (Claim.withRay s d (Claim.ended (Claim.ranOn r' r'.mpc) c n)) := by
  rw [Claim.rayWave] at hf
  simp only [State.micro, State.ray?_of_runs hr, Ray.spent_of_runs hr, Bool.false_eq_true, if_false, hf, Ray.finish_counted]
  rfl

theorem State.microR_of_next {g : Ray → MRes} (hg : g r = .next r') :
    State.microR s g = .next (Claim.withRay s s.dev (Claim.ranOn r' (Claim.nextIndex r))) :=
  State.micro_of_next hr (by rw [hg])

theorem State.microR_of_fin {g : Ray → MRes} {c n : Nat} (hg : g r = .fin r' c n) :
    State.microR s g = .next (Claim.withRay s s.dev (Claim.ended (Claim.ranOn r' r'.mpc) c n)) :=
  State.micro_of_fin hr (by rw [hg])

end

/-! ### The stack of handles -/

theorem exec_miPush (o : UA) (s : State) : exec (.miPush o) s = execMiPush o s := rfl

theorem exec_miPop (o : UD) (s : State) : exec (.miPop o) s = execMiPop o s := rfl

section
variable {s : State} {r : Ray} (hr : Claim.RayRuns s r)
include hr

/-- PUSH below the depth of 12 adds the handle on top (R348). -/
theorem exec_miPush_of_length_lt (o : UA) (hroom : r.stack.length < 12) : exec (.miPush o) s
    = .next (Claim.withRay s s.dev (Claim.ranOn { r with stack := r.stack ++ [Claim.reg r o.a] } (Claim.nextIndex r))) := by
  rw [exec_miPush, execMiPush]
  refine State.microR_of_next hr ?_
  simp [Nat.not_le.mpr hroom]

/-- PUSH at the depth of 12 drops the oldest handle, sets SLOST and lowers XD (R348). -/
theorem exec_miPush_of_le_length (o : UA) (hfull : 12 ≤ r.stack.length) : exec (.miPush o) s
    = .next (Claim.withRay s s.dev (Claim.ranOn
        { r with stack := r.stack.tail ++ [Claim.reg r o.a], slost := true, xd := r.xd - 1 } (Claim.nextIndex r))) := by
  rw [exec_miPush, execMiPush]
  refine State.microR_of_next hr ?_
  simp [hfull]

/-- POP takes the top handle (R348). -/
theorem exec_miPop_of_concat (o : UD) {l : List Word} {v : Word} (hstack : r.stack = l ++ [v]) : exec (.miPop o) s
    = .next (Claim.withRay s s.dev (Claim.ranOn (Claim.setReg { r with stack := l } o.d.toNat v) (Claim.nextIndex r))) := by
  rw [exec_miPop, execMiPop]
  refine State.microR_of_next hr ?_
  simp [hstack]

/-- POP on an empty stack is program error 2 (R348, R355). -/
theorem exec_miPop_of_nil (o : UD) (hstack : r.stack = []) : exec (.miPop o) s
    = .next (Claim.withRay s s.dev (Claim.ended (Claim.ranOn r r.mpc) 8 2)) := by
  rw [exec_miPop, execMiPop]
  refine State.microR_of_fin hr ?_
  simp [hstack]

end

/-- XD falls by 1 when it is above 0: a subtraction that stops at 0 (R348). -/
theorem ite_pos_sub_one (n : Nat) : (if 0 < n then n - 1 else 0) = n - 1 := by
  split <;> omega

/-- Settles O49: PUSH by the depth it meets, POP by whether the stack holds a handle. -/
theorem rayStack : Obligations.RayStack := by
  refine ⟨fun s r o hr => ?_, fun s r o v l hr hstack => exec_miPop_of_concat hr o hstack,
    fun s r o hr hstack => ⟨_, exec_miPop_of_nil hr o hstack, rfl, rfl, rfl, rfl⟩⟩
  rcases Nat.lt_or_ge r.stack.length 12 with hroom | hfull
  · exact ⟨_, exec_miPush_of_length_lt hr o hroom, fun _ => rfl, fun hdepth => by omega⟩
  · exact ⟨_, exec_miPush_of_le_length hr o hfull, fun hdepth => by omega, fun _ => by rw [ite_pos_sub_one]⟩

end Machine
end Sys2Proof
end
